-- ==== Sys2Proof/Word.lean ====
section
/-!
DEFINITION. The word types of the PT-900 model and their plainest arithmetic.
-/
namespace Sys2Proof

/-- One byte of memory or of a packet. -/
abbrev Byte := BitVec 8

/-- The code of an FP32 or A32 value (R48). -/
abbrev F32 := BitVec 32

/-- A 64-bit register, a scalar of a stream, or an instruction word. -/
abbrev Word := BitVec 64

end Sys2Proof
end

