-- ==== Sys2Proof/Syntax.lean ====
section
/-!
DEFINITION. The commands of the PT-900 block: one constructor of `Instr` for every row of spec/opcode_table.json, with the
row's operands. Index operands are bounded by their type; the remaining ranges are in WellFormed.lean.
-/
namespace Sys2Proof

/-- Who makes an access of a control register (R295, R607). -/
inductive Agent where
  | core (n : Fin 128)
  | teller (t : Fin 4)
  | mover (c : Fin 64)
  | exchange (t : Fin 4)
  | clearing (t : Fin 4)
  | mill (t : Fin 4)
  | netIn (t : Fin 4)
  | mmc
  | frontEnd (s : Fin 2)
  deriving DecidableEq, Repr

/-- The header fields of a command packet that reach the opcode (R402); the rest are checked when it is fetched. -/
structure Hdr where
  queue   : Fin 256
  ticket  : BitVec 32
  ordered : Bool
  ack     : Bool
  deriving DecidableEq, Repr

/-- R427: the parameters of ATTACH. -/
structure AttachParams where
  queue     : Fin 256
  alloc     : Bool
  ctrlKind  : Fin 4
  partition : Fin 16
  ringLog2  : Fin 32
  epoch     : BitVec 32
  ringBase  : BitVec 44
  cplAddr   : BitVec 64
  pkg       : BitVec 16
  path      : BitVec 12
  rkey      : BitVec 32
  retain    : BitVec 40
  deriving DecidableEq, Repr

/-- R416: the parameters of JOB_OPEN. -/
structure JobParams where
  jobId       : Fin 4096
  alloc       : Bool
  axes        : BitVec 5
  fanin       : BitVec 5
  rotate      : Bool
  density     : Fin 4
  wireSr      : Bool
  divMode     : Fin 4
  outFmt      : Fin 16
  mode        : Fin 4
  keepReserve : Bool
  hop         : Fin 256
  ctx         : Fin 256
  firstStep   : BitVec 48
  buckets     : Fin 256
  bucketTable : BitVec 44
  rollRing    : BitVec 44
  rollEntries : BitVec 16
  rollSrc     : BitVec 44
  rollSrcEntries : BitVec 32
  deriving DecidableEq, Repr

/-- R499: the parameters of STREAM_OPEN; BATCH_CTX holds the batch and the context. -/
structure StreamParams where
  tile     : Fin 4
  codec    : Fin 8
  live     : Bool
  subframe : Bool
  priority : BitVec 8
  maxW     : BitVec 16
  maxH     : BitVec 16
  initQp   : BitVec 8
  stale    : BitVec 32
  batch    : BitVec 16
  ctx      : Fin 256
  deriving DecidableEq, Repr

/-- The parameters of ENCODE_OPEN. -/
structure EncodeParams where
  tile     : Fin 4
  hevc     : Bool
  subframe : Bool
  w        : BitVec 16
  h        : BitVec 16
  initQp   : BitVec 8
  rate     : BitVec 32
  outRing  : BitVec 44
  ctx      : Fin 256
  priority : Fin 16
  deriving DecidableEq, Repr

/-- R329: an Icrun packet as it arrives: its 40-byte header, byte 0 first, and its payload. -/
structure Packet where
  hdr     : List Byte
  payload : List Byte
  deriving DecidableEq, Repr

/-- R324, R325: what the port sees of the frame around a packet: whether its IP header carries CE, whether the lane FEC could not
correct one of its codewords, its 802.1Q tags, whether it is an IPv6 frame, whether it has IPv4 options or IPv6 extension headers, and
whether it is a fragment. -/
structure FrameHead where
  ce       : Bool
  corrupt  : Bool
  tags     : Nat
  ipv6     : Bool
  options  : Bool
  fragment : Bool
  deriving DecidableEq, Repr

/-- R355: what the port sees of an inbound RoCE packet beside its operation: whether its IP header carries CE, its P_Key, whether its
invariant CRC is right, and the path MTU in bytes under which its message was cut. -/
structure RoceHead where
  ce   : Bool
  pkey : BitVec 16
  icrc : Bool
  mtu  : Nat
  deriving DecidableEq, Repr

/-- An inbound RoCE packet's queue pair at the module, and what the port sees of the packet. -/
structure QpHead where
  qp   : Fin 1024
  head : RoceHead
  deriving DecidableEq, Repr

/-- The port that a packet arrives on, and the frame around it. -/
structure FrameAt where
  port  : Fin 16
  frame : FrameHead
  deriving DecidableEq, Repr

/-- R595: a port, and for each of its four receive lanes the far-end port that it comes from. -/
structure PortLanes where
  port : Fin 16
  far  : List Nat
  deriving DecidableEq, Repr

/-- R300: a coherence message: its 20-byte header, byte 0 first, and its payload. -/
structure CohMsg where
  hdr     : List Byte
  payload : List Byte
  deriving DecidableEq, Repr

/-- R307: what a caching agent has of a line when a snoop reaches it: nothing any more, since its WB or EVICT of the line is on
its way, its copy as the home gave it, or its copy modified. -/
inductive AgentLine where
  | gone
  | clean
  | modified (data : List Byte)
  deriving DecidableEq, Repr

/-- A caching agent that a snoop reaches, and what it has of the line. -/
structure Snooped where
  agent : Fin 132
  held  : AgentLine
  deriving DecidableEq, Repr

/-- A unit of memory: a stack of a tile or a channel of the capacity tier. -/
inductive MemUnit where
  | stack (t : Fin 4) (s : Fin 4)
  | channel (c : Fin 16)
  deriving DecidableEq, Repr

/-- R251, R256: a dispatch, return or shift record as it reaches a tile, with the rows that came with it. -/
structure ExchRecord where
  partition : Fin 16
  exchId    : BitVec 16
  kind      : Fin 3
  srcIdx    : Fin 16
  rows      : List (BitVec 44 × List Byte)
  deriving DecidableEq, Repr

/-- R506, R507: what parsing a frame's headers shows as the bitstream engine starts it: whether a later frame references it, its bytes of
block-row syntax, and its cropped size. -/
structure FrameStart where
  referenced : Bool
  wort       : BitVec 25
  width      : BitVec 16
  height     : BitVec 16
  deriving DecidableEq, Repr

/-- R507: the rows of the table that the codec itself decides. -/
inductive FrameCheck where
  | clean | unsupported | missingReference | wrongUnits | badSyntax | shortData
  deriving DecidableEq, Repr

/-- R494, R507: what parsing a feed gives: the largest declared size, the first failed check, whether the picture is a random access
point, what it references, whether a sector of the stream's pages is poisoned, and where, and its order count. -/
structure FrameResult where
  declW   : BitVec 16
  declH   : BitVec 16
  check   : FrameCheck
  access  : Bool
  refs    : List Nat
  poison  : Option (BitVec 44)
  order   : BitVec 32
  deriving DecidableEq, Repr

/-- R474, R490: what the monitor and the sensors read at a ledger close: the energy in microjoules since it was last taken, for the
module and for each tile, input voltage, current and power, coolant inlet and flow, and the 26 junctions in the order of R609. -/
structure WindowReadings where
  energy  : BitVec 64
  tiles   : List (BitVec 64)
  voltage : BitVec 16
  current : BitVec 16
  power   : BitVec 16
  inlet   : BitVec 16
  flow    : BitVec 16
  junctions : List (BitVec 16)
  deriving DecidableEq, Repr

/-- A value in the body of a request on the management port. -/
inductive JArg where
  | str (s : String)
  | num (n : Int)
  | bool (b : Bool)
  deriving DecidableEq, Repr

/-- The body of a request: not valid JSON, or its properties, those of an object within it under dotted names. -/
inductive JBody where
  | malformed
  | props (l : List (String × JArg))
  deriving DecidableEq, Repr

/-- An IP address that a request on the management port is sent to. -/
inductive MgmtAddr where
  | v4 (a : BitVec 32)
  | v6 (a : BitVec 128)
  deriving DecidableEq, Repr

/-- What a request on the management port names, and the IP address that it is sent to. -/
structure Sent (α : Type) where
  dest : MgmtAddr
  what : α
  deriving DecidableEq, Repr

/-- R591: a delivery of an event message: its subscription, and its place among the deliveries to it. -/
structure DeliveryAt where
  sub   : Fin 4
  place : Nat
  deriving DecidableEq, Repr

/-- What a release of MOD_RESET_N finds: the nonce drawn at boot, the joins that train, and the hottest junction. -/
structure ResetInputs where
  nonce   : BitVec 256
  trained : BitVec 14
  hottest : BitVec 16
  deriving DecidableEq, Repr

/-- The commands of the block. -/
inductive Instr where
  -- Command queues (13_commands.md)
  | queueDoorbell (q : Fin 256) (tail : BitVec 17)
  | cplHeadWrite (q : Fin 256) (head : BitVec 17)
  | roceSendPackets (m : QpHead) (packets : List (BitVec 512))
  | roceWriteImmediateDoorbell (m : QpHead) (imm : BitVec 32)
  | nop (h : Hdr)
  | attach (h : Hdr) (p : AttachParams)
  | detach (h : Hdr) (q : Fin 256)
  | detachFree (h : Hdr) (q : Fin 256)
  | fence (h : Hdr)
  | settle (h : Hdr) (kind : Fin 4) (srcPkg : BitVec 16) (path : BitVec 12) (stamp : BitVec 64) (limit : BitVec 32)
  | settleLimitExpire (cmd : Nat)
  | readResult (h : Hdr) (q : Fin 256) (ticket : BitVec 32) (dest : BitVec 64)
  | releaseResult (h : Hdr) (q : Fin 256) (ticket : BitVec 32)
  | resultExpire (q : Fin 256) (ticket : BitVec 32)
  | queryCaps (h : Hdr) (dest : BitVec 64)
  | setEventRoute (h : Hdr) (source : Fin 1024) (prio : Fin 16) (group : Fin 64) (targetKind : Fin 4)
      (target : Fin 256) (enable : Bool)
  | partCreate (h : Hdr) (partition : Fin 16) (alloc : Bool) (desc : BitVec 44)
  | partDestroy (h : Hdr) (partition : Fin 16)
  | partSlice (h : Hdr) (partition : Fin 16) (quantum : BitVec 32)
  | contextOpen (h : Hdr) (saveBase : BitVec 44) (prio : Fin 16) (saveRanks : BitVec 32)
  | contextClose (h : Hdr) (ctx : Fin 256)
  | copy (h : Hdr) (src dst : BitVec 44) (len : BitVec 40)
  | fill (h : Hdr) (dst : BitVec 44) (len : BitVec 40) (pattern : BitVec 64)
  | gatherSectors (h : Hdr) (list dst : BitVec 44) (count : BitVec 32)
  | scatterSectors (h : Hdr) (list src : BitVec 44) (count : BitVec 32) (accumulate : Bool) (aop : Fin 16) (size : Bool)
  | remoteWrite (h : Hdr) (src : BitVec 44) (dst : BitVec 64) (len : BitVec 32) (path : BitVec 12) (kind : Bool)
      (rkey : BitVec 32)
  | remoteRead (h : Hdr) (src : BitVec 64) (dst : BitVec 44) (len : BitVec 25) (path : BitVec 12) (kind : Bool)
      (rkey : BitVec 32)
  | placeRetire (h : Hdr) (addr : BitVec 44)
  | placeHome (h : Hdr) (addr : BitVec 44) (tile : Fin 4) (fixed : Bool)
  | loadProgram (h : Hdr) (src : BitVec 44) (len : BitVec 32)
  | run (h : Hdr) (ctx : Fin 256) (program : BitVec 16) (scalars : BitVec 44)
  | runStep (h : Hdr) (ctx : Fin 256) (program : BitVec 16) (scalars : BitVec 44) (step : BitVec 48) (gate : Bool)
  | caskFlush (h : Hdr) (ctx : Fin 256)
  | setSeed (h : Hdr) (ctx : Fin 256) (seed : BitVec 64)
  | routeTableWrite (h : Hdr) (first : BitVec 16) (count : BitVec 17) (src cfg : BitVec 44) (clearCounters : Bool)
  | auditArm (h : Hdr) (ctx : Fin 256) (warmup : BitVec 32) (spike : BitVec 32) (lossAddr : BitVec 44)
  | auditDisarm (h : Hdr) (ctx : Fin 256) (warmup : BitVec 32) (spike : BitVec 32) (lossAddr : BitVec 44)
  | auditRead (h : Hdr) (ctx : Fin 256) (dest : BitVec 64)
  | tallyRead (h : Hdr) (slot : Fin 64) (clear : Bool) (dest : BitVec 64)
  | jobOpen (h : Hdr) (p : JobParams)
  | jobClose (h : Hdr) (job : Fin 4096)
  | jobCloseForce (h : Hdr) (job : Fin 4096)
  | bucketContribute (h : Hdr) (job : Fin 65536) (bucket : Fin 256) (ctx : Fin 256) (step : BitVec 48) (due : BitVec 64)
      (weight : BitVec 32)
  | rollRead (h : Hdr) (job : Fin 65536) (bucket : Fin 256) (step : BitVec 48) (dest : BitVec 64)
  | parSet (h : Hdr) (job : Fin 65536) (bucket : Fin 256) (src : BitVec 44)
  | reserveFlushZero (h : Hdr) (job : Fin 65536) (buckets : BitVec 256) (buffer : BitVec 44)
  | reserveFlushSave (h : Hdr) (job : Fin 65536) (buckets : BitVec 256) (buffer : BitVec 44)
  | reserveFlushLoad (h : Hdr) (job : Fin 65536) (buckets : BitVec 256) (buffer : BitVec 44)
  | streamOpen (h : Hdr) (p : StreamParams)
  | streamClose (h : Hdr) (stream : BitVec 16)
  | streamFeed (h : Hdr) (stream : BitVec 16) (src : BitVec 44) (len : BitVec 32) (capture : BitVec 64)
  | batchDefine (h : Hdr) (batch : BitVec 16) (slots sampleBytes : BitVec 32) (dest record : BitVec 44)
  | encodeOpen (h : Hdr) (p : EncodeParams)
  | budgetSet (h : Hdr) (partition : Fin 16) (credits : BitVec 32)
  | budgetSetModule (h : Hdr) (partition : Fin 16) (credits : BitVec 32)
  | ledgerRead (h : Hdr) (dest : BitVec 64)
  | twoKeyPropose (h : Hdr) (target : Fin 16) (change : BitVec 44) (len : BitVec 32)
  | twoKeyConfirm (h : Hdr) (proposal : BitVec 32) (signature : BitVec 44)
  | proposalLapse (proposal : BitVec 32)
  | attest (h : Hdr) (nonce : BitVec 44) (dest : BitVec 64)
  | fwStage (h : Hdr) (src : BitVec 44) (len : BitVec 32)
  | fwCommit (h : Hdr)
  -- The cluster sequencer (06_cluster_sequencer.md)
  | cnop (c : Fin 64) (st : Fin 4) (w : Word)
  | endStream (c : Fin 64) (st : Fin 4) (w : Word)
  | loop (c : Fin 64) (st : Fin 4) (w : Word)
  | twait (c : Fin 64) (st : Fin 4) (w : Word)
  | twaitSatisfied (c : Fin 64) (waiter : Fin 8)
  | tokenTimeout (c : Fin 64) (st : Fin 4)
  | tsignal (c : Fin 64) (st : Fin 4) (w : Word)
  | sli (c : Fin 64) (st : Fin 4) (w : Word)
  | slui (c : Fin 64) (st : Fin 4) (w : Word)
  | salu (c : Fin 64) (st : Fin 4) (w : Word)
  | sid (c : Fin 64) (st : Fin 4) (w : Word)
  -- The vats (04_vat.md)
  | vop (c : Fin 64) (w : Word) (stall : BitVec 32)
  | vatSlice (c : Fin 64) (v : Fin 4) (stall : BitVec 32)
  | vatDrain (c : Fin 64) (v : Fin 4)
  | vatDrainComplete (c : Fin 64) (v : Fin 4)
  -- The vector engine (05_vector_row_engines.md)
  | vnop (c : Fin 64) (w : Word) (stall : BitVec 32)
  | vsetvl (c : Fin 64) (w : Word) (stall : BitVec 32)
  | vld (c : Fin 64) (w : Word) (stall : BitVec 32)
  | vst (c : Fin 64) (w : Word) (stall : BitVec 32)
  | vldu (c : Fin 64) (w : Word) (stall : BitVec 32)
  | vldv (c : Fin 64) (w : Word) (stall : BitVec 32)
  | vstu (c : Fin 64) (w : Word) (stall : BitVec 32)
  | vstv (c : Fin 64) (w : Word) (stall : BitVec 32)
  | vmov (c : Fin 64) (w : Word) (stall : BitVec 32)
  | vtrn (c : Fin 64) (w : Word) (stall : BitVec 32)
  | vadd (c : Fin 64) (w : Word) (stall : BitVec 32)
  | vsub (c : Fin 64) (w : Word) (stall : BitVec 32)
  | vmul (c : Fin 64) (w : Word) (stall : BitVec 32)
  | vfma (c : Fin 64) (w : Word) (stall : BitVec 32)
  | vfnma (c : Fin 64) (w : Word) (stall : BitVec 32)
  | vmax (c : Fin 64) (w : Word) (stall : BitVec 32)
  | vmin (c : Fin 64) (w : Word) (stall : BitVec 32)
  | vabs (c : Fin 64) (w : Word) (stall : BitVec 32)
  | vrcp (c : Fin 64) (w : Word) (stall : BitVec 32)
  | vsqrt (c : Fin 64) (w : Word) (stall : BitVec 32)
  | vrsqrt (c : Fin 64) (w : Word) (stall : BitVec 32)
  | vexp (c : Fin 64) (w : Word) (stall : BitVec 32)
  | vexp2 (c : Fin 64) (w : Word) (stall : BitVec 32)
  | vlog2 (c : Fin 64) (w : Word) (stall : BitVec 32)
  | vtanh (c : Fin 64) (w : Word) (stall : BitVec 32)
  | verf (c : Fin 64) (w : Word) (stall : BitVec 32)
  | vcmplt (c : Fin 64) (w : Word) (stall : BitVec 32)
  | vcmple (c : Fin 64) (w : Word) (stall : BitVec 32)
  | vcmpeq (c : Fin 64) (w : Word) (stall : BitVec 32)
  | vcmpun (c : Fin 64) (w : Word) (stall : BitVec 32)
  | vmand (c : Fin 64) (w : Word) (stall : BitVec 32)
  | vmor (c : Fin 64) (w : Word) (stall : BitVec 32)
  | vmxor (c : Fin 64) (w : Word) (stall : BitVec 32)
  | vmnot (c : Fin 64) (w : Word) (stall : BitVec 32)
  | vmset (c : Fin 64) (w : Word) (stall : BitVec 32)
  | vsel (c : Fin 64) (w : Word) (stall : BitVec 32)
  | vmaskf (c : Fin 64) (w : Word) (stall : BitVec 32)
  | vrsumr (c : Fin 64) (w : Word) (stall : BitVec 32)
  | vrsumc (c : Fin 64) (w : Word) (stall : BitVec 32)
  | vrmaxr (c : Fin 64) (w : Word) (stall : BitVec 32)
  | vrmaxc (c : Fin 64) (w : Word) (stall : BitVec 32)
  -- The row engine (05_vector_row_engines.md)
  | normFwd (c : Fin 64) (w : Word)
  | normBwd (c : Fin 64) (w : Word)
  | smaxFwd (c : Fin 64) (w : Word)
  | smaxAcc (c : Fin 64) (w : Word)
  | smaxFin (c : Fin 64) (w : Word)
  | smaxBwd (c : Fin 64) (w : Word)
  | topkFwd (c : Fin 64) (w : Word)
  | topkBwd (c : Fin 64) (w : Word)
  | rowOpComplete (c : Fin 64)
  -- The data mover (06_cluster_sequencer.md)
  | moveLinear (c : Fin 64) (w : Word)
  | moveStrided (c : Fin 64) (w : Word)
  | moveGather (c : Fin 64) (w : Word)
  | moveScatter (c : Fin 64) (w : Word)
  | slotFill (c : Fin 64) (w : Word)
  | moveComplete (c : Fin 64) (seq : Nat)
  -- Scheduling (07, 14)
  | schedulerWalk (p : Fin 16)
  | sliceComplete (run : Nat) (slice : Fin 4096) (energy : List (BitVec 64))
  | wideSliceHold (p : Fin 16)
  | quantumPreempt (run : Nat) (slice : Fin 4096)
  | caskAgePromote (run : Nat) (slice : Fin 4096)
  -- Exchanges (08_experts_sequence.md)
  | expDoorbellWrite (c : Fin 64) (addr : BitVec 44) (data : List Byte)
  | exchDispatch (tile : Fin 4)
  | exchReturn (tile : Fin 4)
  | exchCombine (tile : Fin 4)
  | exchReceive (tile : Fin 4)
  | exchShift (tile : Fin 4)
  | exchangeRecordArrive (tile : Fin 4) (r : ExchRecord)
  | exchangeComplete (tile : Fin 4) (n : Nat) (lost : Bool)
  | receiveLimitExpire (tile : Fin 4) (n : Nat)
  | expLoadRead (a : Agent) (tile : Fin 4) (entry : Fin 65536)
  -- Coherence (10_cellar_coherence.md)
  | rdShared (home : Fin 4) (m : CohMsg)
  | rdOwn (home : Fin 4) (m : CohMsg)
  | upgrade (home : Fin 4) (m : CohMsg)
  | wb (home : Fin 4) (m : CohMsg)
  | evict (home : Fin 4) (m : CohMsg)
  | rdNc (home : Fin 4) (m : CohMsg)
  | wrNc (home : Fin 4) (m : CohMsg)
  | atomicSwap (home : Fin 4) (m : CohMsg)
  | atomicCas (home : Fin 4) (m : CohMsg)
  | atomicAdd (home : Fin 4) (m : CohMsg)
  | atomicAnd (home : Fin 4) (m : CohMsg)
  | atomicOr (home : Fin 4) (m : CohMsg)
  | atomicXor (home : Fin 4) (m : CohMsg)
  | atomicSmin (home : Fin 4) (m : CohMsg)
  | atomicSmax (home : Fin 4) (m : CohMsg)
  | atomicUmin (home : Fin 4) (m : CohMsg)
  | atomicUmax (home : Fin 4) (m : CohMsg)
  | atomicFadd (home : Fin 4) (m : CohMsg)
  | atomicFmin (home : Fin 4) (m : CohMsg)
  | atomicFmax (home : Fin 4) (m : CohMsg)
  | atomicSc (home : Fin 4) (m : CohMsg)
  | reduce (home : Fin 4) (m : CohMsg)
  | dataS (home : Fin 4) (m : CohMsg)
  | dataE (home : Fin 4) (m : CohMsg)
  | cohGrant (home : Fin 4) (m : CohMsg)
  | cohComplete (home : Fin 4) (m : CohMsg)
  | atomicResult (home : Fin 4) (m : CohMsg)
  | cohNack (home : Fin 4) (m : CohMsg)
  | cohPoisoned (home : Fin 4) (m : CohMsg)
  | cohDenied (home : Fin 4) (m : CohMsg)
  | snpInv (home : Fin 4) (agent : Fin 132) (m : CohMsg)
  | snpData (home : Fin 4) (a : Snooped) (m : CohMsg)
  | snpInvData (home : Fin 4) (a : Snooped) (m : CohMsg)
  | snpAck (home : Fin 4) (m : CohMsg)
  | snpAckData (home : Fin 4) (m : CohMsg)
  | homeQueueAdmit (home : Fin 4) (set : Fin 32768)
  | snoopTimeout (home : Fin 4) (line : BitVec 37)
  | coherenceRequestTimeout (agent : Fin 256) (tag : BitVec 16)
  -- Memory (09_memory.md)
  | stackDown (u : MemUnit)
  | spreadChange (a : Agent) (tile : Fin 4) (spread : Bool)
  | scrubRead (sector : BitVec 39)
  | correctionEntryExpire (u : MemUnit) (sector : BitVec 39)
  | retireReportRead (a : Agent) (site : Fin 6)
  | injectWrite (a : Agent) (site : Fin 6) (v : Word)
  -- The network (11_network_fabric.md)
  | netWrite (port : Fin 16) (f : FrameHead) (p : Packet)
  | netReadReq (port : Fin 16) (f : FrameHead) (p : Packet)
  | netReadResp (port : Fin 16) (f : FrameHead) (p : Packet)
  | netAck (port : Fin 16) (f : FrameHead) (p : Packet)
  | netNak (port : Fin 16) (f : FrameHead) (p : Packet)
  | netProbe (port : Fin 16) (f : FrameHead) (mac : BitVec 48) (p : Packet)
  | packetForward (f : FrameAt) (p : Packet)
  | rtoExpire (pkg : BitVec 16) (path : BitVec 12)
  | ackTimer (pkg : BitVec 16) (path : BitVec 12)
  | probeTimer (port : Fin 16)
  | rateRecover (pkg : BitVec 16) (path : BitVec 12)
  | laneLockLoss (lane : Fin 64)
  | portRetrainDone (l : PortLanes)
  | portFailed (port : Fin 16)
  | portEnableWrite (a : Agent) (port : Fin 16) (enable : Bool)
  | pkgIdWrite (a : Agent) (pkg : BitVec 16)
  | roceRdmaWrite (qp : Fin 1024) (addr : BitVec 64) (rkey : BitVec 32) (f : RoceHead) (data : List Byte)
  | roceRdmaRead (qp : Fin 1024) (addr : BitVec 64) (rkey : BitVec 32) (f : RoceHead) (len : BitVec 32)
  | roceCnp (m : QpHead)
  | rocePeerReset (m : QpHead)
  -- Gradient clearing (12_clearing.md)
  | probeUp (port : Fin 16) (f : FrameHead) (p : Packet)
  | probeDown (port : Fin 16) (f : FrameHead) (p : Packet)
  | contribUp (port : Fin 16) (f : FrameHead) (p : Packet)
  | partialUp (port : Fin 16) (f : FrameHead) (p : Packet)
  | closeUp (port : Fin 16) (f : FrameHead) (p : Packet)
  | resultDown (port : Fin 16) (f : FrameHead) (p : Packet)
  | rollDown (port : Fin 16) (f : FrameHead) (p : Packet)
  | clrAbort (port : Fin 16) (f : FrameHead) (p : Packet)
  | closeBeat (job : Fin 4096) (bucket : Fin 256) (step : BitVec 48)
  | bcastLimitExpire (job : Fin 4096) (bucket : Fin 256)
  -- Beat, power and supply (15_beat_power.md)
  | beatEdge (spacing : BitVec 32) (ptp : BitVec 64)
  | beatPulseMissing
  | ptpLock
  | ptpLockLoss
  | ledgerClose (r : WindowReadings)
  | powerHoldEnter
  | pwrWarnAssert
  | pwrWarnRelease
  | undervoltageLockout
  | overvoltageDisconnect
  | supplyRestart
  | supplyExcursion
  -- Reset, boot and joins (01, 18)
  | thermalTrip (tiles : List (BitVec 16)) (cores : List (BitVec 16))
  | modResetAssert
  | modResetRelease (nonce : BitVec 256) (trained : BitVec 14) (hottest : BitVec 16)
  | bootTrialTimeout (nonce : BitVec 256) (trained : BitVec 14)
  | joinFlitReplay (join : Fin 14) (again : Bool)
  | joinFail (join : Fin 14)
  | joinReplayRead (a : Agent) (join : Fin 14)
  -- Events (17_events_audit.md)
  | eventDelivery (source : Fin 1024)
  | holdoffExpire (group : Fin 64)
  | evtPendClear (a : Agent) (tile : Fin 4) (word : Fin 4) (v : Word)
  | evtPendSet (a : Agent) (tile : Fin 4) (word : Fin 4) (v : Word)
  | evtSrcCountRead (a : Agent) (source : Fin 1024)
  | evtCoreClaim (a : Agent) (core : Fin 128)
  | evtCoreEoi (a : Agent) (core : Fin 128) (prio : Fin 16)
  | evtHoldoffWrite (a : Agent) (group : Fin 64) (period : BitVec 32)
  -- Ingest and mills (16_ingest_video.md)
  | frameDecodeStart (tile : Fin 4) (f : FrameStart)
  | frameDecodeDone (tile : Fin 4) (f : FrameResult)
  | batchClose (a : Agent) (tile : Fin 4) (entry : Fin 64)
  | coreRingEntryPost (partition : Fin 16)
  | ingCoreDone (a : Agent) (tile : Fin 4) (v : Word)
  | ingStreamSideWrite (a : Agent) (tile : Fin 4) (entry : Fin 128) (side : Bool)
  | ingCoreRingWrite (a : Agent) (tile : Fin 4) (partition : Fin 16) (v : Word)
  | milPoolWrite (a : Agent) (tile : Fin 4) (v : Word)
  | pictureEncode (tile : Fin 4) (stream : BitVec 16) (picture : BitVec 32)
  | encodeUnitEmit (tile : Fin 4)
  | wortPeakRead (a : Agent) (tile : Fin 4)
  -- The management port (19_electrical_mechanical.md)
  | redfishGet (r : Sent String)
  | bootConfigurationPatch (r : Sent JBody)
  | managerReset (dest : MgmtAddr) (body : JBody) (x : ResetInputs)
  | subscriptionCreate (dest : MgmtAddr) (json : Bool) (l : List (String × JArg))
  | subscriptionDelete (r : Sent (Fin 8))
  | eventPostRetry (d : DeliveryAt)
  | smbusCapability
  | readVin (v : BitVec 16)
  | readIin (v : BitVec 16)
  | readPin (v : BitVec 16)
  | readTemperature1 (v : BitVec 16)
  | readTemperature2 (v : BitVec 16)
  | mfrId
  | mfrModel
  -- Registers (00_scope.md)
  | registerWrite (a : Agent) (addr : BitVec 44) (size : Fin 16) (v : Word)
  | reservedAccess (a : Agent) (addr : BitVec 44) (size : Fin 16) (write : Bool)
  -- Steps the table lists last
  | roceAck (m : QpHead) (count : BitVec 16)
  | roceRnrNak (m : QpHead)
  | roceReadResponse (m : QpHead) (data : List Byte)
  | roceRetryTimeout (qp : Fin 1024)
  | pfcFrame (port : Fin 16) (pause : Bool) (pcp : Fin 8)
  | smbusUnsupportedCommand (code : BitVec 8)
  | redfishUnsupportedRequest (method : String) (r : Sent String)
  deriving DecidableEq, Repr

end Sys2Proof
end

