-- ==== Sys2Proof/WellFormed.lean ====
section
/-!
DEFINITION. The ranges of operands that their types do not bound.
-/
namespace Sys2Proof

/-- R329: an Icrun packet has a 40-byte header; its frame holds at most 4,224 bytes (R325). -/
def packetShape (p : Packet) : Bool := decide (p.hdr.length = 40 ∧ p.payload.length ≤ 4136)

/-- R300: a coherence message has a 20-byte header. -/
def messageShape (m : CohMsg) : Bool := decide (m.hdr.length = 20 ∧ m.payload.length ≤ 144)

/-- R301: a line that an agent gives up has 128 bytes. -/
def heldShape (h : AgentLine) : Bool :=
  match h with
  | .modified d => d.length == 128
  | _ => true

/-- A command whose operands lie in their ranges. -/
def wellFormed (i : Instr) : Bool :=
  match i with
  | .queueDoorbell _ _ => true
  | .cplHeadWrite _ _ => true
  | .roceSendPackets _ packets => !packets.isEmpty
  | .roceWriteImmediateDoorbell _ _ => true
  | .nop _ => true
  | .attach _ _ => true
  | .detach _ _ => true
  | .detachFree _ _ => true
  | .fence _ => true
  | .settle _ _ _ _ _ _ => true
  | .settleLimitExpire _ => true
  | .readResult _ _ _ _ => true
  | .releaseResult _ _ _ => true
  | .resultExpire _ _ => true
  | .queryCaps _ _ => true
  | .setEventRoute _ _ _ _ _ _ _ => true
  | .partCreate _ _ _ _ => true
  | .partDestroy _ _ => true
  | .partSlice _ _ _ => true
  | .contextOpen _ _ _ _ => true
  | .contextClose _ _ => true
  | .copy _ _ _ _ => true
  | .fill _ _ _ _ => true
  | .gatherSectors _ _ _ _ => true
  | .scatterSectors _ _ _ _ _ _ _ => true
  | .remoteWrite _ _ _ _ _ _ _ => true
  | .remoteRead _ _ _ _ _ _ _ => true
  | .placeRetire _ _ => true
  | .placeHome _ _ _ _ => true
  | .loadProgram _ _ _ => true
  | .run _ _ _ _ => true
  | .runStep _ _ _ _ _ _ => true
  | .caskFlush _ _ => true
  | .setSeed _ _ _ => true
  | .routeTableWrite _ _ _ _ _ _ => true
  | .auditArm _ _ _ _ _ => true
  | .auditDisarm _ _ _ _ _ => true
  | .auditRead _ _ _ => true
  | .tallyRead _ _ _ _ => true
  | .jobOpen _ _ => true
  | .jobClose _ _ => true
  | .jobCloseForce _ _ => true
  | .bucketContribute _ _ _ _ _ _ _ => true
  | .rollRead _ _ _ _ _ => true
  | .parSet _ _ _ _ => true
  | .reserveFlushZero _ _ _ _ => true
  | .reserveFlushSave _ _ _ _ => true
  | .reserveFlushLoad _ _ _ _ => true
  | .streamOpen _ _ => true
  | .streamClose _ _ => true
  | .streamFeed _ _ _ _ _ => true
  | .batchDefine _ _ _ _ _ _ => true
  | .encodeOpen _ _ => true
  | .budgetSet _ _ _ => true
  | .budgetSetModule _ _ _ => true
  | .ledgerRead _ _ => true
  | .twoKeyPropose _ _ _ _ => true
  | .twoKeyConfirm _ _ _ => true
  | .proposalLapse _ => true
  | .attest _ _ _ => true
  | .fwStage _ _ _ => true
  | .fwCommit _ => true
  | .cnop _ _ _ => true
  | .endStream _ _ _ => true
  | .loop _ _ _ => true
  | .twait _ _ _ => true
  | .twaitSatisfied _ _ => true
  | .tokenTimeout _ _ => true
  | .tsignal _ _ _ => true
  | .sli _ _ _ => true
  | .slui _ _ _ => true
  | .salu _ _ _ => true
  | .sid _ _ _ => true
  | .vop _ _ _ => true
  | .vatSlice _ _ _ => true
  | .vatDrain _ _ => true
  | .vatDrainComplete _ _ => true
  | .vnop _ _ _ => true
  | .vsetvl _ _ _ => true
  | .vld _ _ _ => true
  | .vst _ _ _ => true
  | .vldu _ _ _ => true
  | .vldv _ _ _ => true
  | .vstu _ _ _ => true
  | .vstv _ _ _ => true
  | .vmov _ _ _ => true
  | .vtrn _ _ _ => true
  | .vadd _ _ _ => true
  | .vsub _ _ _ => true
  | .vmul _ _ _ => true
  | .vfma _ _ _ => true
  | .vfnma _ _ _ => true
  | .vmax _ _ _ => true
  | .vmin _ _ _ => true
  | .vabs _ _ _ => true
  | .vrcp _ _ _ => true
  | .vsqrt _ _ _ => true
  | .vrsqrt _ _ _ => true
  | .vexp _ _ _ => true
  | .vexp2 _ _ _ => true
  | .vlog2 _ _ _ => true
  | .vtanh _ _ _ => true
  | .verf _ _ _ => true
  | .vcmplt _ _ _ => true
  | .vcmple _ _ _ => true
  | .vcmpeq _ _ _ => true
  | .vcmpun _ _ _ => true
  | .vmand _ _ _ => true
  | .vmor _ _ _ => true
  | .vmxor _ _ _ => true
  | .vmnot _ _ _ => true
  | .vmset _ _ _ => true
  | .vsel _ _ _ => true
  | .vmaskf _ _ _ => true
  | .vrsumr _ _ _ => true
  | .vrsumc _ _ _ => true
  | .vrmaxr _ _ _ => true
  | .vrmaxc _ _ _ => true
  | .normFwd _ _ => true
  | .normBwd _ _ => true
  | .smaxFwd _ _ => true
  | .smaxAcc _ _ => true
  | .smaxFin _ _ => true
  | .smaxBwd _ _ => true
  | .topkFwd _ _ => true
  | .topkBwd _ _ => true
  | .rowOpComplete _ => true
  | .moveLinear _ _ => true
  | .moveStrided _ _ => true
  | .moveGather _ _ => true
  | .moveScatter _ _ => true
  | .slotFill _ _ => true
  | .moveComplete _ _ => true
  | .schedulerWalk _ => true
  | .sliceComplete _ _ _ => true
  | .wideSliceHold _ => true
  | .quantumPreempt _ _ => true
  | .caskAgePromote _ _ => true
  | .expDoorbellWrite _ addr data => decide (0 < data.length ∧ addr.toNat % 128 + data.length ≤ 128)
  | .exchDispatch _ => true
  | .exchReturn _ => true
  | .exchCombine _ => true
  | .exchReceive _ => true
  | .exchShift _ => true
  | .exchangeRecordArrive _ r => r.rows.all (fun x => x.1.toNat % 4 == 0 && x.2.length % 4 == 0)
  | .exchangeComplete _ _ _ => true
  | .receiveLimitExpire _ _ => true
  | .expLoadRead _ _ _ => true
  | .rdShared _ m => messageShape m
  | .rdOwn _ m => messageShape m
  | .upgrade _ m => messageShape m
  | .wb _ m => messageShape m
  | .evict _ m => messageShape m
  | .rdNc _ m => messageShape m
  | .wrNc _ m => messageShape m
  | .atomicSwap _ m => messageShape m
  | .atomicCas _ m => messageShape m
  | .atomicAdd _ m => messageShape m
  | .atomicAnd _ m => messageShape m
  | .atomicOr _ m => messageShape m
  | .atomicXor _ m => messageShape m
  | .atomicSmin _ m => messageShape m
  | .atomicSmax _ m => messageShape m
  | .atomicUmin _ m => messageShape m
  | .atomicUmax _ m => messageShape m
  | .atomicFadd _ m => messageShape m
  | .atomicFmin _ m => messageShape m
  | .atomicFmax _ m => messageShape m
  | .atomicSc _ m => messageShape m
  | .reduce _ m => messageShape m
  | .dataS _ m => messageShape m
  | .dataE _ m => messageShape m
  | .cohGrant _ m => messageShape m
  | .cohComplete _ m => messageShape m
  | .atomicResult _ m => messageShape m
  | .cohNack _ m => messageShape m
  | .cohPoisoned _ m => messageShape m
  | .cohDenied _ m => messageShape m
  | .snpInv _ _ m => messageShape m
  | .snpData _ a m => messageShape m && heldShape a.held
  | .snpInvData _ a m => messageShape m && heldShape a.held
  | .snpAck _ m => messageShape m
  | .snpAckData _ m => messageShape m
  | .homeQueueAdmit _ _ => true
  | .snoopTimeout _ _ => true
  | .coherenceRequestTimeout _ _ => true
  | .stackDown _ => true
  | .spreadChange _ _ _ => true
  | .scrubRead _ => true
  | .correctionEntryExpire _ _ => true
  | .retireReportRead _ _ => true
  | .injectWrite _ _ _ => true
  | .netWrite _ _ p => packetShape p
  | .netReadReq _ _ p => packetShape p
  | .netReadResp _ _ p => packetShape p
  | .netAck _ _ p => packetShape p
  | .netNak _ _ p => packetShape p
  | .netProbe _ _ _ p => packetShape p
  | .packetForward _ p => packetShape p
  | .rtoExpire _ _ => true
  | .ackTimer _ _ => true
  | .probeTimer _ => true
  | .rateRecover _ _ => true
  | .laneLockLoss _ => true
  | .portRetrainDone l => l.far.length == 4
  | .portFailed _ => true
  | .portEnableWrite _ _ _ => true
  | .pkgIdWrite _ _ => true
  | .roceRdmaWrite _ _ _ _ data => !data.isEmpty
  | .roceRdmaRead _ _ _ _ _ => true
  | .roceCnp _ => true
  | .rocePeerReset _ => true
  | .probeUp _ _ p => packetShape p
  | .probeDown _ _ p => packetShape p
  | .contribUp _ _ p => packetShape p
  | .partialUp _ _ p => packetShape p
  | .closeUp _ _ p => packetShape p
  | .resultDown _ _ p => packetShape p
  | .rollDown _ _ p => packetShape p
  | .clrAbort _ _ p => packetShape p
  | .closeBeat _ _ _ => true
  | .bcastLimitExpire _ _ => true
  | .beatEdge _ _ => true
  | .beatPulseMissing => true
  | .ptpLock => true
  | .ptpLockLoss => true
  | .ledgerClose r => decide (r.tiles.length = 4 ∧ r.junctions.length = 26)
  | .powerHoldEnter => true
  | .pwrWarnAssert => true
  | .pwrWarnRelease => true
  | .undervoltageLockout => true
  | .overvoltageDisconnect => true
  | .supplyRestart => true
  | .supplyExcursion => true
  | .thermalTrip tiles cores => decide (tiles.length = 24 ∧ cores.length = 2)
  | .modResetAssert => true
  | .modResetRelease _ _ _ => true
  | .bootTrialTimeout _ _ => true
  | .joinFlitReplay _ _ => true
  | .joinFail _ => true
  | .joinReplayRead _ _ => true
  | .eventDelivery _ => true
  | .holdoffExpire _ => true
  | .evtPendClear _ _ _ _ => true
  | .evtPendSet _ _ _ _ => true
  | .evtSrcCountRead _ _ => true
  | .evtCoreClaim _ _ => true
  | .evtCoreEoi _ _ _ => true
  | .evtHoldoffWrite _ _ _ => true
  | .frameDecodeStart _ _ => true
  | .frameDecodeDone _ _ => true
  | .batchClose _ _ _ => true
  | .coreRingEntryPost _ => true
  | .ingCoreDone _ _ _ => true
  | .ingStreamSideWrite _ _ _ _ => true
  | .ingCoreRingWrite _ _ _ _ => true
  | .milPoolWrite _ _ _ => true
  | .pictureEncode _ _ _ => true
  | .encodeUnitEmit _ => true
  | .wortPeakRead _ _ => true
  | .redfishGet _ => true
  | .bootConfigurationPatch _ => true
  | .managerReset _ _ _ => true
  | .subscriptionCreate _ _ _ => true
  | .subscriptionDelete _ => true
  | .eventPostRetry _ => true
  | .smbusCapability => true
  | .readVin _ => true
  | .readIin _ => true
  | .readPin _ => true
  | .readTemperature1 _ => true
  | .readTemperature2 _ => true
  | .mfrId => true
  | .mfrModel => true
  | .registerWrite _ _ _ _ => true
  | .reservedAccess _ _ _ _ => true
  | .roceAck _ _ => true
  | .roceRnrNak _ => true
  | .roceReadResponse _ _ => true
  | .roceRetryTimeout _ => true
  | .pfcFrame _ _ _ => true
  | .smbusUnsupportedCommand _ => true
  | .redfishUnsupportedRequest _ _ => true

end Sys2Proof
end

