-- ==== Sys2Proof/Config.lean ====
section
/-!
DEFINITION. What one part fixes and what the spec leaves open. Every `opaque` constant here has no body: nothing in
Lean can evaluate it, so a claim about the model holds whatever it is.
-/
namespace Sys2Proof

/-- The `n`-th free byte of a run: a value the spec leaves undefined (log entry 5). -/
opaque Config.freeByte : Nat → BitVec 8

/-- The `n`-th free 64-bit value of a run (log entry 5). -/
opaque Config.freeWord : Nat → BitVec 64

/-- The correctly rounded FP32 result of function `fn` (1 exp, 2 exp2, 3 log2, 4 tanh, 5 erf, 6 sqrt, 7 rsqrt) on an
operand for which the interval refinement of Elementary.lean did not settle the rounding (log entry 6). -/
opaque Config.unsettledRounding : Nat → BitVec 32 → BitVec 32

/-- What VTRN gives an active element (row, column) whose mirror image is inactive: VLEN's rows and columns, the element's row and
column, and the bits that the register holds there (log entry 38). -/
opaque Config.vtrnInactive : Nat → Nat → Nat → Nat → BitVec 32 → BitVec 32

/-- Word `i` of the stat entry that a row of SMAX_ACC leaves whose entry fails the check of R181: the descriptor's tag, the row, and the
entry that failed (log entry 17). -/
opaque Config.failedStat : Nat → Nat → List (BitVec 8) → Nat → BitVec 32

/-- Byte `i` of what a COPY of `n` bytes from `src` to `dst` leaves where the two ranges overlap, from the bytes that its source range
held: the spec gives no order in which a COPY moves its sectors, but one result on every run (R394; log entry 33). -/
opaque Config.copyOverlap : Nat → Nat → Nat → List (BitVec 8) → Nat → BitVec 8

/-- The port that queue pair `qp` sends on, modulo 16: the spec gives no route to an external machine (log entry 79). -/
opaque Config.rocePort : Nat → Nat

/-- What connection management has agreed for a queue pair: whether it runs over IPv6, the module's and the host's IP address, and the
UDP source port (log entry 79). -/
opaque Config.roceEnds : Nat → Bool × Nat × Nat × Nat

/-- The MAC address that a port in DIRECT mode sends the frames of a queue pair to: R327 names one for Icrun frames only (log entry 79). -/
opaque Config.roceMac : Nat → Nat

/-- The path MTU of a queue pair, of the three that R355 supports (log entry 79). -/
opaque Config.roceMtu : Nat → Fin 3

/-- Whether server core `n` acts for partition `p` when it writes a register of R530: the spec does not say which partition a
core acts for (log entry 24). -/
opaque Config.coreActsFor : Nat → Nat → Bool

/-- ML-DSA-65 verification of a 64-byte message digest under a public key (FIPS 204, empty context; log entry 35): key, digest,
signature. -/
opaque Config.mldsaVerify : List (BitVec 8) → List (BitVec 8) → List (BitVec 8) → Bool

/-- Byte `i` of the root key digest fused in the security block (R557). -/
opaque Config.rootKeyDigest : Nat → BitVec 8

/-- Byte `i` of the device public key (R572). -/
opaque Config.deviceKey : Nat → BitVec 8

/-- Byte `i` of the alias public key derived from an image digest (R572). -/
opaque Config.aliasKey : List (BitVec 8) → Nat → BitVec 8

/-- Byte `i` of the device key's signature over a digest (R573). -/
opaque Config.deviceSign : List (BitVec 8) → Nat → BitVec 8

/-- Byte `i` of the `n`-th signature of a run, over a digest by the alias key of an image digest (R573). -/
opaque Config.aliasSign : List (BitVec 8) → List (BitVec 8) → Nat → Nat → BitVec 8

/-- Word `n` of the device certificate chain area of the flash (R554). -/
opaque Config.deviceCert : Nat → BitVec 64

/-- How the flash lays out the key slots, empty ones as none: the spec does not say (log entry 35). -/
opaque Config.keySlotFlash : List (Option (List (BitVec 8))) → List (BitVec 8)

/-- How the flash lays out the boot configuration's values, in the order of R554: the spec does not say (log entry 35). -/
opaque Config.bootConfigFlash : List Nat → List (BitVec 8)

/-- Whether the firmware of an image digest attaches queue 0 at its boot (R558, R560): an image's behaviour is its own (log entry 3). -/
opaque Config.firmwareAttaches : List (BitVec 8) → Bool

/-- How the module writes a reading of `num / den` in PMBus LINEAR11 (R585), which gives a number many forms: how far above the least
exponent its own lies, and whether an inexact mantissa is rounded up (log entry 36). -/
opaque Config.linear11Choice : Nat → Nat → Nat × Bool

/-- The RedfishVersion of the service (R588). -/
opaque Config.redfishVersion : String

/-- The fused SerialNumber (R588). -/
opaque Config.serialNumber : String

/-- The HTTP status of a DELETE that is carried out: the spec names none (log entry 36). -/
opaque Config.deleteCode : Nat

/-- Value `i`, in raster order, of plane `p` (0 Y, 1 Cb, 2 Cr) of the picture that the decoding process of a codec's standard gives for the
last of a stream's feeds, from the bytes of all of them (R494, R495; log entry 67): codec, feeds, plane, index. -/
opaque Config.codecSample : Nat → List (List (BitVec 8)) → Nat → Nat → BitVec 10

/-- The bits of a block row that the encoder codes (R526; log entry 67): the stream's codec, size and latency mode, its earlier pictures as
sample values with the qp of each of their block rows, this picture's values, and its qps so far, the last for the row itself. -/
opaque Config.rowBits : List Nat → List (List Nat × List Nat) → List Nat → List Nat → Nat

/-- The bytes of a unit of a picture that the encoder emits (R525, R526; log entry 67): the stream's codec, size and latency mode, its
earlier pictures with their qps, this picture's values and qps, and the unit's number. -/
opaque Config.unitBytes : List Nat → List (List Nat × List Nat) → List Nat → List Nat → Nat → List (BitVec 8)

/-- The MAC address fused for the management port (R587). -/
opaque Config.mgmtMac : BitVec 48

/-- The IPv4 address that a DHCPv4 server gives the management port (R587; log entry 82). -/
opaque Config.dhcpAddress : BitVec 32

/-- Which address under RFC 3927 the management port takes in the ROM state (R587; log entry 82). -/
opaque Config.romAddress : Nat

/-- The MAC address fused for a port (chapter 11, `NET_PORT_MAC`). -/
opaque Config.portMac : Nat → BitVec 48

end Sys2Proof
end

