-- ==== Sys2Proof/Machine/Num.lean ====
section
/-!
DEFINITION. Exact arithmetic and rounding: extended reals held as exact fractions, sums of them, and the two rounding
modes of R67 to R69 onto a grid given by its fraction bits and least exponent.
-/
namespace Sys2Proof.Machine

/-- An exact signed fraction; `den` is never 0. -/
structure Frac where
  num : Int
  den : Nat
  deriving DecidableEq, Repr

/-- The exact sum of two fractions, over one denominator where one divides the other. -/
def fracAdd (a b : Frac) : Frac :=
  if a.den % b.den = 0 then ⟨a.num + b.num * (a.den / b.den : Nat), a.den⟩
  else if b.den % a.den = 0 then ⟨a.num * (b.den / a.den : Nat) + b.num, b.den⟩
  else ⟨a.num * b.den + b.num * a.den, a.den * b.den⟩

/-- The exact product of two fractions. -/
def fracMul (a b : Frac) : Frac := ⟨a.num * b.num, a.den * b.den⟩

/-- The exact quotient of a fraction by a non-zero fraction. -/
def fracDiv (a b : Frac) : Frac :=
  if b.num < 0 then ⟨-(a.num * b.den), a.den * b.num.natAbs⟩
  else ⟨a.num * b.den, a.den * b.num.natAbs⟩

/-- `a < b` of fractions. -/
def fracLt (a b : Frac) : Bool := decide (a.num * b.den < b.num * a.den)

/-- `a ≤ b` of fractions. -/
def fracLe (a b : Frac) : Bool := decide (a.num * b.den ≤ b.num * a.den)

/-- The fraction of an integer. -/
def fracOfInt (n : Int) : Frac := ⟨n, 1⟩

/-- The fraction 2^e. -/
def fracPow2 (e : Int) : Frac :=
  if 0 ≤ e then ⟨(2 ^ e.toNat : Nat), 1⟩ else ⟨1, 2 ^ (-e).toNat⟩

/-- A decoded value: NaN, an infinity, or a finite value with its sign (the sign of zero is kept, R50) and exact
magnitude `num / den`. -/
inductive Ext where
  | nan
  | inf (neg : Bool)
  | fin (neg : Bool) (num den : Nat)
  deriving DecidableEq, Repr

/-- +0. -/
def extZero : Ext := .fin false 0 1

/-- The value is NaN. -/
def extIsNan : Ext → Bool
  | .nan => true
  | .inf _ => false
  | .fin _ _ _ => false

/-- The value is infinite. -/
def extIsInf : Ext → Bool
  | .nan => false
  | .inf _ => true
  | .fin _ _ _ => false

/-- The value is finite. -/
def extIsFin : Ext → Bool
  | .nan => false
  | .inf _ => false
  | .fin _ _ _ => true

/-- The value is a zero of either sign. -/
def extIsZero : Ext → Bool
  | .nan => false
  | .inf _ => false
  | .fin _ n _ => n == 0

/-- The sign bit of a value that is no NaN. -/
def extNegative : Ext → Bool
  | .nan => false
  | .inf s => s
  | .fin s _ _ => s

/-- The value with its sign inverted. -/
def extNeg : Ext → Ext
  | .nan => .nan
  | .inf s => .inf (!s)
  | .fin s n d => .fin (!s) n d

/-- The magnitude of the value. -/
def extAbs : Ext → Ext
  | .nan => .nan
  | .inf _ => .inf false
  | .fin _ n d => .fin false n d

/-- The signed fraction of a finite value, 0 of any other. -/
def extFrac : Ext → Frac
  | .nan => ⟨0, 1⟩
  | .inf _ => ⟨0, 1⟩
  | .fin s n d => ⟨if s then -(n : Int) else n, d⟩

/-- A fraction as a value; the zero is +0. -/
def extOfFrac (x : Frac) : Ext := .fin (decide (x.num < 0)) x.num.natAbs x.den

/-- R89: the exact product of two decoded operands. -/
def extMul (a b : Ext) : Ext :=
  match a, b with
  | .nan, _ => .nan
  | _, .nan => .nan
  | .inf s, .inf t => .inf (s ^^ t)
  | .inf s, .fin t n _ => if n = 0 then .nan else .inf (s ^^ t)
  | .fin s n _, .inf t => if n = 0 then .nan else .inf (s ^^ t)
  | .fin s n d, .fin t m e => .fin (s ^^ t) (n * m) (d * e)

/-- `a < b` of two values, neither a NaN; false of a NaN. -/
def extLt (a b : Ext) : Bool :=
  match a, b with
  | .nan, _ => false
  | _, .nan => false
  | .inf s, .inf t => s && !t
  | .inf s, .fin _ _ _ => s
  | .fin _ _ _, .inf t => !t
  | .fin s n d, .fin t m e => fracLt (extFrac (.fin s n d)) (extFrac (.fin t m e))

/-- `a = b` of two values as numbers (the two zeros are equal); false of a NaN. -/
def extEq (a b : Ext) : Bool :=
  !extIsNan a && !extIsNan b && !extLt a b && !extLt b a

/-- The exact sum of values: a NaN, an infinity, or an exact fraction. -/
inductive ExactSum where
  | nan
  | inf (neg : Bool)
  | fin (x : Frac)
  deriving DecidableEq, Repr

/-- One more term of an exact sum: a NaN term or two opposite infinities give a NaN (R91 cases 1 and 2). -/
def sumAdd (s : ExactSum) (v : Ext) : ExactSum :=
  match s, v with
  | .nan, _ => .nan
  | _, .nan => .nan
  | .inf a, .inf b => if a = b then .inf a else .nan
  | .inf a, .fin _ _ _ => .inf a
  | .fin _, .inf b => .inf b
  | .fin x, .fin b n d => .fin (fracAdd x (extFrac (.fin b n d)))

/-- The exact sum of a list of values. -/
def exactSum (l : List Ext) : ExactSum := l.foldl sumAdd (.fin ⟨0, 1⟩)

/-- R67: the two rounding modes; stochastic rounding carries its 16-bit coin. -/
inductive Rounding where
  | rne
  | sr (coin : Nat)
  deriving DecidableEq, Repr

/-- ⌊log2 (n / d)⌋ of a non-zero magnitude. -/
def floorLog2 (n d : Nat) : Int :=
  let e : Int := (Nat.log2 n : Int) - (Nat.log2 d : Int)
  let fits := if 0 ≤ e then decide (d * 2 ^ e.toNat ≤ n) else decide (d ≤ n * 2 ^ (-e).toNat)
  if fits then e else e - 1

/-- A magnitude n / d divided by 2^e, as numerator and denominator. -/
def scaleDown (n d : Nat) (e : Int) : Nat × Nat :=
  if 0 ≤ e then (n, d * 2 ^ e.toNat) else (n * 2 ^ (-e).toNat, d)

/-- R68 and R69: the magnitude n / d, in units of the grid, rounded to an integer. -/
def roundUnits (n d : Nat) (mode : Rounding) : Nat :=
  let q := n / d
  let r := n % d
  match mode with
  | .rne =>
    if 2 * r < d then q
    else if d < 2 * r then q + 1
    else if q % 2 = 0 then q else q + 1
  | .sr c => if 65536 ≤ r * 65536 / d + c then q + 1 else q

/-- A floating-point layout of R48: exponent bits, fraction bits, bias and the code of the largest finite
magnitude. -/
structure Layout where
  expBits  : Nat
  fracBits : Nat
  bias     : Nat
  maxCode  : Nat
  deriving DecidableEq, Repr

/-- The exponent of a layout's smallest normal. -/
def Layout.emin (f : Layout) : Int := 1 - (f.bias : Int)

/-- The width of a layout's code. -/
def Layout.width (f : Layout) : Nat := 1 + f.expBits + f.fracBits

/-- A magnitude rounded onto a layout's grid, as its magnitude code (exponent and fraction field), unbounded above. -/
def roundCode (f : Layout) (n d : Nat) (mode : Rounding) : Nat :=
  if n = 0 then 0
  else
    let e := floorLog2 n d
    let e := if e < f.emin then f.emin else e
    let u := scaleDown n d (e - f.fracBits)
    (e - f.emin).toNat * 2 ^ f.fracBits + roundUnits u.1 u.2 mode

/-- FP32 and A32. -/
def layFp32 : Layout := ⟨8, 23, 127, 0x7F7FFFFF⟩
/-- BF16. -/
def layBf16 : Layout := ⟨8, 7, 127, 0x7F7F⟩
/-- FP16. -/
def layFp16 : Layout := ⟨5, 10, 15, 0x7BFF⟩
/-- A22 (R77). -/
def layA22 : Layout := ⟨8, 13, 127, 0x1FDFFF⟩
/-- E4M3 (R53). -/
def layE4m3 : Layout := ⟨4, 3, 7, 0x7E⟩
/-- E5M2 (R54). -/
def layE5m2 : Layout := ⟨5, 2, 15, 0x7B⟩
/-- E3M2. -/
def layE3m2 : Layout := ⟨3, 2, 3, 0x1F⟩
/-- E2M3. -/
def layE2m3 : Layout := ⟨2, 3, 1, 0x1F⟩
/-- E2M1. -/
def layE2m1 : Layout := ⟨2, 1, 1, 0x7⟩

/-- The infinity code of an IEEE layout (R49): exponent all ones, fraction zero. -/
def Layout.infCode (f : Layout) : Nat := (2 ^ f.expBits - 1) * 2 ^ f.fracBits

/-- The canonical NaN of an IEEE layout (R51): the infinity code with the top fraction bit set. -/
def Layout.nanCode (f : Layout) : Nat := f.infCode + 2 ^ (f.fracBits - 1)

/-- The sign bit of a layout as a code offset. -/
def Layout.signBit (f : Layout) : Nat := 2 ^ (f.expBits + f.fracBits)

/-- R49: the finite value of a code by its exponent and fraction fields. -/
def decodeFinite (f : Layout) (code : Nat) : Ext :=
  let s := decide (f.signBit ≤ code % (2 * f.signBit))
  let e := code / 2 ^ f.fracBits % 2 ^ f.expBits
  let m := code % 2 ^ f.fracBits
  let sig := if e = 0 then m else 2 ^ f.fracBits + m
  let exp : Int := (if e = 0 then 1 else (e : Int)) - f.bias - f.fracBits
  if 0 ≤ exp then .fin s (sig * 2 ^ exp.toNat) 1 else .fin s sig (2 ^ (-exp).toNat)

/-- R49 and R50: the value of a code of a layout whose all-ones exponent is infinity or NaN. -/
def decodeIeee (f : Layout) (code : Nat) : Ext :=
  let e := code / 2 ^ f.fracBits % 2 ^ f.expBits
  if e = 2 ^ f.expBits - 1 then
    (if code % 2 ^ f.fracBits = 0 then .inf (decide (f.signBit ≤ code % (2 * f.signBit))) else .nan)
  else decodeFinite f code

/-- R66, R71 and R72: a value encoded in an IEEE layout. -/
def encodeIeee (f : Layout) (mode : Rounding) (sat : Bool) (v : Ext) : Nat :=
  match v with
  | .nan => f.nanCode
  | .inf s => (if s then f.signBit else 0) + f.infCode
  | .fin s n d =>
    let c := roundCode f n d mode
    (if s then f.signBit else 0) +
      (if f.maxCode < c then (if sat then f.maxCode else f.infCode) else c)

/-- The value of an FP32 or A32 code. -/
def decode32 (w : F32) : Ext := decodeIeee layFp32 w.toNat

/-- A value rounded to FP32 or A32, without the saturate option. -/
def encode32 (mode : Rounding) (v : Ext) : F32 := BitVec.ofNat 32 (encodeIeee layFp32 mode false v)

/-- The canonical FP32 NaN (R51). -/
def nan32 : F32 := 0x7FC00000#32

/-- An exact sum rounded once to FP32; an exact zero is +0 (R91 case 4). -/
def sumTo32 (mode : Rounding) (s : ExactSum) : F32 :=
  match s with
  | .nan => nan32
  | .inf neg => encode32 mode (.inf neg)
  | .fin x => encode32 mode (extOfFrac x)

/-- A code with any NaN replaced by the canonical one (R86). -/
def canonNan32 (w : F32) : F32 := if extIsNan (decode32 w) then nan32 else w

end Sys2Proof.Machine
end

