-- ==== Sys2Proof/Machine/Elementary.lean ====
section
/-!
DEFINITION. The correctly rounded elementary functions of R159. Each is computed as a pair of exact bounds at a
precision `p` in bits; the result is settled once both bounds round to one code.
-/
namespace Sys2Proof.Machine

/-- The integer square root of `n`, built from bit `b` downwards onto `acc`. -/
def isqrtFrom (n : Nat) (acc : Nat) : Nat → Nat
  | 0 => acc
  | b + 1 =>
    let t := acc + 2 ^ b
    isqrtFrom n (if t * t ≤ n then t else acc) b

/-- ⌊√n⌋. -/
def isqrt (n : Nat) : Nat := isqrtFrom n 0 (Nat.log2 n / 2 + 1)

/-- Division rounded up. -/
def ceilDiv (a b : Nat) : Nat := (a + b - 1) / b

/-- Bounds, in units of 2^-p, of the sum of the next `k` terms of a series and a bound of the last term: from term
bounds `t` at index `i`, each next term is the last times `n / (d * den i)`. -/
def seriesSum (n d : Nat) (den : Nat → Nat) : Nat → Nat → Nat × Nat → Nat × Nat → (Nat × Nat) × Nat
  | 0, _, t, acc => (acc, t.2)
  | k + 1, i, t, acc =>
    let acc' := (acc.1 + t.1, acc.2 + t.2)
    let t' := (t.1 * n / (d * den i), ceilDiv (t.2 * n) (d * den i))
    seriesSum n d den k (i + 1) t' acc'

/-- Bounds of exp (n / d) in units of 2^-p, for n / d at most 256: Taylor terms until they are below half of each
other, the tail bounded by twice the last. -/
def expUnits (n d p : Nat) : Nat × Nat :=
  let r := seriesSum n d (fun i => i + 1) (p + 1024) 0 (2 ^ p, 2 ^ p) (0, 0)
  (r.1.1, r.1.2 + 2 * r.2 + 1)

/-- Bounds of ln 2 in units of 2^-p: the terms 1 / (k 2^k). -/
def ln2Units (p : Nat) : Nat × Nat :=
  let lo := (List.range (p + 1)).foldl (fun a k => a + 2 ^ p / ((k + 1) * 2 ^ (k + 1))) 0
  (lo, lo + p + 3)

/-- Bounds of exp x as fractions; beyond ±256 one value stands for all, far outside the range of FP32. -/
def expBounds (x : Frac) (p : Nat) : Frac × Frac :=
  if 256 * (x.den : Int) < x.num then (fracPow2 300, fracPow2 300)
  else if x.num < -(256 * (x.den : Int)) then (fracPow2 (-300), fracPow2 (-300))
  else
  let u := expUnits x.num.natAbs x.den p
  if 0 ≤ x.num then (⟨u.1, 2 ^ p⟩, ⟨u.2, 2 ^ p⟩)
  else (⟨(2 ^ p : Nat), u.2⟩, ⟨(2 ^ p : Nat), u.1⟩)

/-- Bounds of 2^x: the integer part scales, the fraction part is exp (f ln 2); beyond ±300 one value stands for
all. -/
def exp2Bounds (x : Frac) (p : Nat) : Frac × Frac :=
  if 300 * (x.den : Int) < x.num then (fracPow2 300, fracPow2 300)
  else if x.num < -(300 * (x.den : Int)) then (fracPow2 (-300), fracPow2 (-300))
  else
  let i := x.num / (x.den : Int)
  let f := (x.num % (x.den : Int)).toNat
  if f = 0 then (fracPow2 i, fracPow2 i)
  else
    let l := ln2Units p
    let lo := (expUnits (f * l.1) (x.den * 2 ^ p) p).1
    let hi := (expUnits (f * l.2) (x.den * 2 ^ p) p).2
    (fracMul (fracPow2 i) ⟨lo, 2 ^ p⟩, fracMul (fracPow2 i) ⟨hi, 2 ^ p⟩)

/-- Bounds of log2 (n / d), n / d positive: the binade plus ln m / ln 2 with ln m = 2 atanh ((m - 1) / (m + 1)). -/
def log2Bounds (n d p : Nat) : Frac × Frac :=
  let e := floorLog2 n d
  let m := scaleDown n d e
  if m.1 = m.2 then (fracOfInt e, fracOfInt e)
  else
    let zn := m.1 - m.2
    let zd := m.1 + m.2
    let l := ln2Units p
    -- the powers z^(2k+1), then each over 2k + 1
    let step := fun (a : (Nat × Nat) × (Nat × Nat)) (k : Nat) =>
      (((a.1.1 * (zn * zn) / (zd * zd)), ceilDiv (a.1.2 * (zn * zn)) (zd * zd)),
        (a.2.1 + a.1.1 / (2 * k + 1), a.2.2 + ceilDiv a.1.2 (2 * k + 1)))
    let r := (List.range (p + 1)).foldl step ((2 ^ p * zn / zd, ceilDiv (2 ^ p * zn) zd), (0, 0))
    let lo := 2 * r.2.1
    let hi := 2 * (r.2.2 + 2 * r.1.2)
    (⟨e * (l.2 : Int) + lo, l.2⟩, ⟨e * (l.1 : Int) + hi, l.1⟩)

/-- Bounds of tanh x for positive x = n / d: (t - 1) / (t + 1) with t = exp (2x); beyond 32 it lies within 2^-60 of 1. -/
def tanhBounds (n d p : Nat) : Frac × Frac :=
  if 32 * d < n then (⟨(2 ^ 60 - 1 : Nat), 2 ^ 60⟩, fracOfInt 1)
  else
    let u := expUnits (2 * n) d p
    (⟨(u.1 - 2 ^ p : Nat), u.1 + 2 ^ p⟩, ⟨(u.2 - 2 ^ p : Nat), u.2 + 2 ^ p⟩)

/-- Bounds of atan (1 / q) in units of 2^-p. -/
def atanInvUnits (q p : Nat) : Nat × Nat :=
  let step := fun (a : Int) (k : Nat) =>
    let t : Int := ((2 ^ p / ((2 * k + 1) * q ^ (2 * k + 1)) : Nat) : Int)
    if k % 2 = 0 then a + t else a - t
  let s := ((List.range (p + 1)).foldl step 0).toNat
  (s - (p + 2), s + (p + 2))

/-- Bounds of pi in units of 2^-p (Machin's formula). -/
def piUnits (p : Nat) : Nat × Nat :=
  let a := atanInvUnits 5 p
  let b := atanInvUnits 239 p
  (16 * a.1 - 4 * b.2, 16 * a.2 - 4 * b.1)

/-- Bounds of erf x for positive x = n / d: 2 / √π · exp (-x²) · Σ x (2x²)^k / (2k + 1)!!; beyond 8 it lies within
2^-60 of 1. -/
def erfBounds (n d p : Nat) : Frac × Frac :=
  if 8 * d < n then (⟨(2 ^ 60 - 1 : Nat), 2 ^ 60⟩, fracOfInt 1)
  else
    let r := seriesSum (2 * n * n) (d * d) (fun i => 2 * i + 3) (p + 1024) 0
      (2 ^ p * n / d, ceilDiv (2 ^ p * n) d) (0, 0)
    let e := expUnits (n * n) (d * d) p
    let pi := piUnits p
    let rlo := isqrt (pi.1 * 2 ^ p)
    let rhi := isqrt (pi.2 * 2 ^ p) + 1
    (⟨(2 * r.1.1 * 2 ^ p : Nat), e.2 * rhi⟩, ⟨(2 * (r.1.2 + 2 * r.2 + 1) * 2 ^ p : Nat), e.1 * rlo⟩)

/-- Bounds of √(n / d); equal when the root is exact at this precision. -/
def sqrtBounds (n d p : Nat) : Frac × Frac :=
  let v := n * 2 ^ (2 * p)
  let s := isqrt (v / d)
  if s * s * d = v then (⟨s, 2 ^ p⟩, ⟨s, 2 ^ p⟩) else (⟨s, 2 ^ p⟩, ⟨(s + 1 : Nat), 2 ^ p⟩)

/-- The code both bounds round to under `rnd`, at the first of the precisions listed that settles it. -/
def settle (rnd : Ext → F32) (bounds : Nat → Frac × Frac) (fn : Nat) (w : F32) : List Nat → F32
  | [] => Config.unsettledRounding fn w
  | p :: ps =>
    let b := bounds p
    let lo := rnd (extOfFrac b.1)
    if lo = rnd (extOfFrac b.2) then lo else settle rnd bounds fn w ps

/-- The precisions tried, in bits. -/
def precisions : List Nat := [256, 512, 1024]

/-- The functions of R159. -/
inductive ElemFn where
  | rcp | sqrt | rsqrt | exp | exp2 | log2 | tanh | erf
  deriving DecidableEq, Repr

/-- The bounds of an odd function at a negative operand, from those at its magnitude. -/
def mirror (neg : Bool) (b : Frac × Frac) : Frac × Frac :=
  if neg then (⟨-b.2.num, b.2.den⟩, ⟨-b.1.num, b.1.den⟩) else b

/-- R159 on a finite operand that its table does not list: sign `s`, magnitude n / d not 0. -/
def elemFinite (rnd : Ext → F32) (f : ElemFn) (w : F32) (s : Bool) (n d : Nat) : F32 :=
  match f with
  | .rcp => rnd (.fin s d n)
  | .sqrt => settle rnd (fun p => sqrtBounds n d p) 6 w precisions
  | .rsqrt => settle rnd (fun p => sqrtBounds d n p) 7 w precisions
  | .exp => settle rnd (fun p => expBounds (extFrac (.fin s n d)) p) 1 w precisions
  | .exp2 => settle rnd (fun p => exp2Bounds (extFrac (.fin s n d)) p) 2 w precisions
  | .log2 => settle rnd (fun p => log2Bounds n d p) 3 w precisions
  | .tanh => settle rnd (fun p => mirror s (tanhBounds n d p)) 4 w precisions
  | .erf => settle rnd (fun p => mirror s (erfBounds n d p)) 5 w precisions

/-- R159: the function at an FP32 operand, rounded once by `rnd`; zeros, negative operands of the roots and the
logarithm, infinities and NaN as the rule's table gives them. -/
def elemFn (rnd : Ext → F32) (f : ElemFn) (w : F32) : F32 :=
  match decode32 w with
  | .nan => nan32
  | .inf s =>
    match f with
    | .rcp => rnd (.fin s 0 1)
    | .sqrt => if s then nan32 else rnd (.inf false)
    | .rsqrt => if s then nan32 else rnd extZero
    | .exp => if s then rnd extZero else rnd (.inf false)
    | .exp2 => if s then rnd extZero else rnd (.inf false)
    | .log2 => if s then nan32 else rnd (.inf false)
    | .tanh => rnd (.fin s 1 1)
    | .erf => rnd (.fin s 1 1)
  | .fin s n d =>
    if n = 0 then
      match f with
      | .rcp => rnd (.inf s)
      | .sqrt => rnd (.fin s 0 1)
      | .rsqrt => rnd (.inf s)
      | .exp => rnd (.fin false 1 1)
      | .exp2 => rnd (.fin false 1 1)
      | .log2 => rnd (.inf true)
      | .tanh => rnd (.fin s 0 1)
      | .erf => rnd (.fin s 0 1)
    else if s && (f == .sqrt || f == .rsqrt || f == .log2) then nan32
    else elemFinite rnd f w s n d

end Sys2Proof.Machine
end

