-- ==== Sys2Proof/Machine/Operands.lean ====
section
/-!
DEFINITION. The operand formats of R48: their numbers (R112), the values of their codes and block scales (R49 to R60),
their packing (R63), the conversions of R66 to R76, the coin function (R97) and the sums of R91 and R103.
-/
namespace Sys2Proof.Machine

/-- R48: the eleven operand formats. -/
inductive Fmt where
  | fp32 | bf16 | fp16 | e4m3 | e5m2 | e3m2 | e2m3 | e2m1 | int8 | int4 | s2
  deriving DecidableEq, Repr

/-- R112: the format a 4-bit field names; 11 to 15 are reserved. -/
def fmtOfCode : Nat → Option Fmt
  | 0 => some .fp32
  | 1 => some .bf16
  | 2 => some .fp16
  | 3 => some .e4m3
  | 4 => some .e5m2
  | 5 => some .e3m2
  | 6 => some .e2m3
  | 7 => some .e2m1
  | 8 => some .int8
  | 9 => some .int4
  | 10 => some .s2
  | _ + 11 => none

/-- R48: a format's width in bits. -/
def fmtBits : Fmt → Nat
  | .fp32 => 32
  | .bf16 => 16
  | .fp16 => 16
  | .e4m3 => 8
  | .e5m2 => 8
  | .e3m2 => 6
  | .e2m3 => 6
  | .e2m1 => 4
  | .int8 => 8
  | .int4 => 4
  | .s2 => 2

/-- R48: the formats that carry an E8M0 scale for every 32 elements. -/
def fmtScaled : Fmt → Bool
  | .fp32 => false
  | .bf16 => false
  | .fp16 => false
  | .e4m3 => true
  | .e5m2 => true
  | .e3m2 => true
  | .e2m3 => true
  | .e2m1 => true
  | .int8 => true
  | .int4 => true
  | .s2 => true

/-- The layout of a format with an exponent field. -/
def fmtLayout : Fmt → Option Layout
  | .fp32 => some layFp32
  | .bf16 => some layBf16
  | .fp16 => some layFp16
  | .e4m3 => some layE4m3
  | .e5m2 => some layE5m2
  | .e3m2 => some layE3m2
  | .e2m3 => some layE2m3
  | .e2m1 => some layE2m1
  | .int8 => none
  | .int4 => none
  | .s2 => none

/-- R56: a two's complement integer of `w` bits. -/
def decodeInt (w code : Nat) : Ext :=
  let c := code % 2 ^ w
  if c < 2 ^ (w - 1) then .fin false c 1 else .fin true (2 ^ w - c) 1

/-- R49, R53, R54, R56, R57: the value of an element code, before its block scale. -/
def elemDecode (f : Fmt) (code : Nat) : Ext :=
  match f with
  | .fp32 => decodeIeee layFp32 code
  | .bf16 => decodeIeee layBf16 code
  | .fp16 => decodeIeee layFp16 code
  | .e4m3 => if code % 128 = 127 then .nan else decodeFinite layE4m3 code
  | .e5m2 => decodeIeee layE5m2 code
  | .e3m2 => decodeFinite layE3m2 code
  | .e2m3 => decodeFinite layE2m3 code
  | .e2m1 => decodeFinite layE2m1 code
  | .int8 => decodeInt 8 code
  | .int4 => decodeInt 4 code
  | .s2 =>
    match code % 4 with
    | 1 => .fin false 1 1
    | 3 => .fin true 1 1
    | _ => extZero

/-- R57: an S2 code 10 is malformed. -/
def elemMalformed (f : Fmt) (code : Nat) : Bool :=
  match f with
  | .s2 => code % 4 == 2
  | _ => false

/-- R59 and R60: an element value under its group's scale code; code 0xFF makes every element NaN. -/
def scaleApply (k : Nat) (v : Ext) : Ext :=
  if k = 255 then .nan
  else
    let p := fracPow2 ((k : Int) - 127)
    extMul v (.fin false p.num.natAbs p.den)

/-- The value of an element under the format's scale; formats without scales take none. -/
def elemValue (f : Fmt) (scale code : Nat) : Ext :=
  if fmtScaled f then scaleApply scale (elemDecode f code) else elemDecode f code

/-- Bits `[lo + w - 1 : lo]` of a natural number. -/
def natBits (x lo w : Nat) : Nat := x / 2 ^ lo % 2 ^ w

/-- R63: element `i` of a group's bit string. -/
def unpackElem (f : Fmt) (group i : Nat) : Nat := natBits group (fmtBits f * i) (fmtBits f)

/-- R63: the bit string of a group from its element codes, element 0 lowest. -/
def packElems (f : Fmt) : List Nat → Nat
  | [] => 0
  | c :: t => c % 2 ^ fmtBits f + 2 ^ fmtBits f * packElems f t

/-- R64: the bytes of a group of 32 elements. -/
def groupBytes (f : Fmt) : Nat := 4 * fmtBits f

/-- R64: the bytes of a 32 × 32 block. -/
def blockBytes (f : Fmt) : Nat := 128 * fmtBits f

/-- R70: the destination's exponent of its top binade. -/
def fmtEmax : Fmt → Int
  | .fp32 => 127
  | .bf16 => 127
  | .fp16 => 15
  | .e4m3 => 8
  | .e5m2 => 15
  | .e3m2 => 4
  | .e2m3 => 2
  | .e2m1 => 2
  | .int8 => 6
  | .int4 => 2
  | .s2 => 0

/-- The larger of two magnitudes, the first of equals. -/
def magMax (a b : Nat × Nat) : Nat × Nat := if a.1 * b.2 < b.1 * a.2 then b else a

/-- The largest magnitude among the finite values of a group, 0 / 1 when it has none. -/
def groupAmax (vs : List Ext) : Nat × Nat :=
  vs.foldl (fun a v => match v with
    | .nan => a
    | .inf _ => a
    | .fin _ n d => magMax a (n, d)) (0, 1)

/-- R70: the scale code of a group with no supplied scale. -/
def chooseScale (f : Fmt) (vs : List Ext) : Nat :=
  let a := groupAmax vs
  if a.1 = 0 then 0
  else
    let k := floorLog2 a.1 a.2 - fmtEmax f
    (max (-127) (min 127 k) + 127).toNat

/-- R58: the largest magnitude of an integer destination. -/
def intMax : Fmt → Nat
  | .int8 => 127
  | .int4 => 7
  | .s2 => 1
  | _ => 0

/-- The code of a signed integer element (R56). -/
def intCode (f : Fmt) (neg : Bool) (u : Nat) : Nat :=
  if neg ∧ u ≠ 0 then 2 ^ fmtBits f - u else u

/-- R68, R69, R73, R75: a finite value, already over its scale, encoded in a scaled format; true when it saturated. Exactly 464, halfway
between 448 and 480, goes to the even 448 of E4M3 by R68 and does not count, where the text under R76 lets it saturate
(DESIGN CHOICE, log entry 73). -/
def encodeScaled (f : Fmt) (mode : Rounding) (neg : Bool) (n d : Nat) : Nat × Bool :=
  match fmtLayout f with
  | some l =>
    let c := roundCode l n d mode
    ((if neg then l.signBit else 0) + min c l.maxCode, decide (l.maxCode < c))
  | none =>
    let u := roundUnits n d mode
    (intCode f neg (min u (intMax f)), decide (intMax f < u))

/-- What a conversion adds to the audit counters: saturations (R73) and non-finite source elements (R74). -/
structure ConvCounts where
  saturated : Nat
  nonFinite : Nat
  deriving DecidableEq, Repr

/-- A converted group: its scale code, its element codes and what it counts. -/
structure ConvGroup where
  scale  : Nat
  codes  : List Nat
  counts : ConvCounts
  deriving DecidableEq, Repr

/-- R74: the code of a non-finite element in a destination that has one. -/
def nonFiniteCode (f : Fmt) (v : Ext) : Nat :=
  match f, v with
  | .e5m2, .inf s => if s then 0xFC else 0x7C
  | .e5m2, _ => 0x7E
  | _, _ => 0x7F

/-- The number of elements of a list that satisfy a test. -/
def countWhere {α : Type} (p : α → Bool) (l : List α) : Nat := (l.filter p).length

/-- R70 to R76: one group converted to a scaled destination, element `i` rounded in `modes i`. -/
def convGroup (f : Fmt) (modes : Nat → Rounding) (supplied : Option Nat) (vs : List Ext) : ConvGroup :=
  let nf := countWhere (fun v => !extIsFin v) vs
  if nf ≠ 0 ∧ f ≠ .e5m2 ∧ f ≠ .e4m3 then ⟨255, vs.map (fun _ => 0), ⟨0, nf⟩⟩
  else
    let k : Nat := match supplied with
      | some k => k
      | none => chooseScale f vs
    let p := fracPow2 ((k : Int) - 127)
    let enc := vs.mapIdx (fun i v => match v with
      | .fin s n d => encodeScaled f (modes i) s (n * p.den) (d * p.num.natAbs)
      | .nan => (nonFiniteCode f v, false)
      | .inf _ => (nonFiniteCode f v, false))
    ⟨k, enc.map (·.1), ⟨countWhere (·.2) enc, nf⟩⟩

/-- R66, R71, R72: a value encoded in one of FP32, BF16 and FP16. -/
def encodePlain (f : Fmt) (mode : Rounding) (sat : Bool) (v : Ext) : Nat :=
  match f with
  | .bf16 => encodeIeee layBf16 mode sat v
  | .fp16 => encodeIeee layFp16 mode sat v
  | _ => encodeIeee layFp32 mode sat v

/-- R97: the coin of (seed, T, i, j, g). -/
def coin (seed : BitVec 64) (t i j g : Nat) : Nat :=
  let lo : BitVec 32 := seed.setWidth 32
  let hi : BitVec 32 := (seed >>> 32).setWidth 32
  let b := fun (n : Nat) => BitVec.ofNat 32 n
  let x := lo + b t * 0x8F3A5C27#32 + b i * 0xD1B54A33#32 + b j * 0xA54F6D1B#32 + b g * 0x6C8E9CF5#32
  let x := x ^^^ (x >>> 15)
  let x := x * 0x9E485C2B#32
  let x := x ^^^ (x >>> 16)
  let x := x ^^^ hi
  let x := x ^^^ (x >>> 15)
  let x := x * 0xC13FA9A3#32
  (x >>> 16).toNat

/-- R99: the rounding of a conversion: round to nearest even, or stochastic with the element's coin at
g = 0xFFFF_FFFF. -/
def convMode (sr : Bool) (seed : BitVec 64) (tensor i j : Nat) : Rounding :=
  if sr then .sr (coin seed tensor i j 0xFFFFFFFF) else .rne

/-- R91 and R103: the running sum `s` (a code of layout `l`) after a group of products, rounded once in `mode`. -/
def groupStep (l : Layout) (mode : Rounding) (s : Nat) (ps : List Ext) : Nat :=
  match exactSum (decodeIeee l s :: ps) with
  | .nan => l.nanCode
  | .inf neg => encodeIeee l mode false (.inf neg)
  | .fin x =>
    if ps.all extIsZero then s
    else if x.num = 0 then 0
    else encodeIeee l mode false (extOfFrac x)

/-- R77 and R78: an A22 code widened to A32. -/
def widenA22 (c : Nat) : Nat := c / 2 ^ 21 % 2 * 2 ^ 31 + c / 2 ^ 13 % 256 * 2 ^ 23 + c % 2 ^ 13 * 2 ^ 10

end Sys2Proof.Machine
end

