-- ==== Sys2Proof/Machine/Fp32.lean ====
section
/-!
DEFINITION. FP32 arithmetic of the drain's epilogue and the vector engine (R139, R157, R158, R160): each result is the exact
one, rounded once.
-/
namespace Sys2Proof.Machine

/-- R139: a value rounded to A32 or FP32. -/
def rndFp32 (v : Ext) : F32 := encode32 .rne v

/-- R155: a value rounded to BF16 and held in an FP32 register. -/
def rndBf16 (v : Ext) : F32 := BitVec.ofNat 32 (encodeIeee layBf16 .rne false v * 65536)

/-- The rounding of an instruction by its PREC bit. -/
def rndPrec (bf16 : Bool) (v : Ext) : F32 := if bf16 then rndBf16 v else rndFp32 v

/-- R139: an exact sum of two values; a zero sum is −0 only when both are −0. -/
def extAdd (a b : Ext) : Ext :=
  match exactSum [a, b] with
  | .nan => .nan
  | .inf s => .inf s
  | .fin x => if x.num = 0 then .fin (extIsZero a && extIsZero b && extNegative a && extNegative b) 0 1 else extOfFrac x

/-- R158: the greater value; NaN when either is, and +0 of the two zeros. -/
def extMax (a b : Ext) : Ext :=
  if extIsNan a || extIsNan b then .nan
  else if extLt a b then b
  else if extLt b a then a
  else if extNegative a then b else a

/-- R158: the smaller value; NaN when either is, and −0 of the two zeros. -/
def extMin (a b : Ext) : Ext := extNeg (extMax (extNeg a) (extNeg b))

/-- R139: one addition of the epilogue. -/
def f32Add (a b : F32) : F32 := rndFp32 (extAdd (decode32 a) (decode32 b))

/-- R139: one multiplication of the epilogue. -/
def f32Mul (a b : F32) : F32 := rndFp32 (extMul (decode32 a) (decode32 b))

/-- R139: 1 − a. -/
def f32OneMinus (a : F32) : F32 := rndFp32 (extAdd (.fin false 1 1) (extNeg (decode32 a)))

/-- A code of a non-finite value. -/
def f32NonFinite (w : F32) : Bool := !extIsFin (decode32 w)

end Sys2Proof.Machine
end

