-- ==== Sys2Proof/Machine/Bits.lean ====
section
/-!
DEFINITION. Bit fields of words, byte strings in both byte orders (R7, R8), and CRC-32C.
-/
namespace Sys2Proof.Machine

/-- Bits `[lo + n - 1 : lo]` of a 64-bit word. -/
def getBits (w : Word) (lo n : Nat) : Nat := w.toNat / 2 ^ lo % 2 ^ n

/-- A word with bits `[lo + n - 1 : lo]` replaced by the low `n` bits of `v`. -/
def setBits (w : Word) (lo n v : Nat) : Word :=
  let mask : Word := BitVec.ofNat 64 ((2 ^ n - 1) * 2 ^ lo)
  (w &&& ~~~mask) ||| (BitVec.ofNat 64 (v % 2 ^ n * 2 ^ lo))

/-- Bit `i` of a natural number. -/
def natBit (n i : Nat) : Bool := n / 2 ^ i % 2 == 1

/-- 1 for true. -/
def boolNat (b : Bool) : Nat := if b then 1 else 0

/-- The positions below `n` whose bits are set, in ascending order. -/
def bitsSet (x n : Nat) : List Nat := (List.range n).filter (natBit x)

/-- How many of the low `n` bits are set. -/
def popCount (x n : Nat) : Nat := (bitsSet x n).length

/-- R7: `n` bytes of a number, the lowest first. -/
def leBytes : Nat → Nat → List Byte
  | 0, _ => []
  | n + 1, v => BitVec.ofNat 8 v :: leBytes n (v / 256)

/-- R7: the number whose bytes are given, the lowest first. -/
def leNat : List Byte → Nat
  | [] => 0
  | b :: t => b.toNat + 256 * leNat t

/-- R8: `n` bytes of a number, the highest first. -/
def beBytes (n v : Nat) : List Byte := (leBytes n v).reverse

/-- R8: the number whose bytes are given, the highest first. -/
def beNat (l : List Byte) : Nat := leNat l.reverse

/-- `n` bytes of a string from `at_`. -/
def slice (l : List Byte) (at_ n : Nat) : List Byte := (l.drop at_).take n

/-- A little-endian field of a string: `n` bytes from byte `at_`. -/
def fieldLe (l : List Byte) (at_ n : Nat) : Nat := leNat (slice l at_ n)

/-- A big-endian field of a string. -/
def fieldBe (l : List Byte) (at_ n : Nat) : Nat := beNat (slice l at_ n)

/-- A string with the bytes from `at_` on replaced by `new`. -/
def splice (l : List Byte) (at_ : Nat) (new : List Byte) : List Byte :=
  l.take at_ ++ new ++ l.drop (at_ + new.length)

/-- Every byte of a part of a string is 0. -/
def zeroBytes (l : List Byte) (at_ n : Nat) : Bool := (slice l at_ n).all (fun b => b == 0)

/-- One bit step of CRC-32C, reflected polynomial 0x82F63B78 (log entry 7). -/
def crcBits : Nat → Nat → Nat
  | 0, c => c
  | k + 1, c => crcBits k (if c % 2 = 1 then (c / 2) ^^^ 0x82F63B78 else c / 2)

/-- CRC-32C of a string: initial value and final inversion all ones. -/
def crc32c (l : List Byte) : Nat :=
  (l.foldl (fun c b => crcBits 8 (c ^^^ b.toNat)) 0xFFFFFFFF) ^^^ 0xFFFFFFFF

/-- A string with four bytes from `at_` set to 0, as a CRC field is while its own CRC is computed. -/
def clear4 (l : List Byte) (at_ : Nat) : List Byte := splice l at_ [0, 0, 0, 0]

end Sys2Proof.Machine
end

