-- ==== Sys2Proof/Machine/RegMap.lean ====
section
/-!
DEFINITION. The control-space register map: every register kind of the spec's register tables, where its copies lie,
the reset value of the bits the model keeps in `State.regs`, and the fields a write acts on (R10). Bits that mirror other
state are not kept twice: Registers.lean computes them on a read.
-/
namespace Sys2Proof.Machine

/-- The registers of the spec's register tables. -/
inductive RegKind where
  | modId | modIdCompute | modFloor | modUnitPresent | modFeatEnCompute | modFeatEnBase | modFeatEnCore
  | modDieFeat | modDieFeatCompute | modJoinStatus | modJoinReplay | seqCaps | seqStatus | seqSlice | seqPc
  | seqWaitLimit | seqSliceEnergy | seqSlices | seqSuspends | seqMoveBytes | seqToken | vatCaps | vatStatus
  | vatOps | vatActive | vatStall | vatSkipped | vatTallyOwner | vatTallyBin | vecCaps | vecStatus | vecInsns
  | vecStall | vecNonfinite | rowCaps | rowStatus | rowOps | rowActive | rowStatMismatch | rowNonfinite | memCaps
  | memCfg | memStatus | memUeAddr | memRetireThresh | memRetireReport | memScrub | memInject | memCeCount
  | memUeCount | memTapSectors | memLineBytes | memRetired | celCaps | celStatus | celHits | celMisses
  | celWritebacks | celAtomics | celPoisoned | celPartWays | dirCaps | dirStatus | dirAgentStatus | dirLastTimeout
  | dirEvictions | dirBackinv | dirRefusals | dirReserved | dirTimeouts | dirBadMsg | netCaps | netStatus
  | netPkgId | netEpoch | netPrefix4 | netPrefix6Hi | netPrefix6Lo | netTransport | netPortCtrl | netPortStatus
  | netPortMac | netPortGwMac | netPortNeighbour | netPortFecCe | netPortFecUe | netPortRetrains | netDiscards
  | netNoRoute | netStaleEpoch | netDenied | netRetx | netAxisMap | netWindow | netRoute | netPathKey
  | netPathSettle | clrCaps | clrStatus | clrBcastLimit | clrSteps | clrLate | clrSaturated | clrNonfinite
  | clrDiscards | clrBadJob | clrWireBytes | clrBucket | clrBucketStep | clrJob | expCaps | expStatus
  | expRecvLimit | expUnrouted | expPartTable | expPartShape | expPartDoorbell | expPartIn | expPartCnt
  | expPartOut | expPartRet | expRoute | expRouteValid | expLoad | milCaps | milStatus | milPool | milPoolUsed
  | milWort | milDecFrames | milEncFrames | milCorrupt | milStale | milRejected | milDecSamples | milEncClamps
  | milStream | milStreamDim | milStreamRc | ingCaps | ingStatus | ingCoreRing | ingCoreProd | ingCoreDone
  | ingStreamSide | ingStreamProgress | ingBatch | ingBatchCtrl | evtCaps | evtPend | evtPendSet | evtSrcRoute
  | evtSrcCount | evtHoldoff | audCaps | audNonfinite | audSaturated | audMalformed | audClrNonfinite | audTrips
  | audGate | pwrTileStatus | pwrTileEnergy | cmdCaps | cmdStatus | cmdResults | cmdPackets | cmdBadCrc
  | cmdBadSeq | cmdExpired | cmdCplStalls | cmdQCfg | cmdQRing | cmdQCpl | cmdQCtrl | cmdQDoorbell | cmdQHead
  | cmdQCplHead | cmdQRetain | cmdQpSettle | prtCaps | prtStatus | prtHold | prtKills | prtPreempts
  | prtPassedEnergy | prtPassedClusters | prtPart | prtPartClusters | prtPartQuantum | prtCtx | pwrCaps
  | pwrStatus | pwrCfg | pwrModule | pwrBalance | pwrSupply | pwrCoolant | pwrEnergy | pwrHoldBeats | pwrHolds
  | pwrWarns | pwrPartAllow | pwrPartBalance | beatCaps | beatStatus | beatCount | beatPtpCfg | beatStepLimit
  | beatLastSync | beatGlitches | beatLosses | beatSyncs | beatPtpMisses | evtCtrlCaps | evtCoreCfg | evtCoreClaim
  | evtCoreEoi | evtCoreStack | secCaps | secStatus | secTwoKeyWindow | secFw | secProp | secKeySlot | secConfirms
  | secRefusals | secLapses | secDevcert | capCaps | capStatus | capUeAddr | capRetireThresh | capRetireReport
  | capScrub | capInject | capCeCount | capUeCount | capLineBytes | capHome | capRetired
  deriving DecidableEq, Repr

/-- Which sites of the control space carry a register. -/
inductive Sites where
  | all | tile | core | site4
  deriving DecidableEq, Repr

/-- R10: how a write acts on a field. -/
inductive Access where
  | rw | w1c
  deriving DecidableEq, Repr

/-- A field that a write acts on: its bits and how. -/
structure Field where
  acc : Access
  hi  : Nat
  lo  : Nat
  deriving DecidableEq, Repr

/-- A read-write field. -/
def rw (hi lo : Nat) : Field := ⟨.rw, hi, lo⟩

/-- A field whose bits a 1 clears. -/
def w1c (hi lo : Nat) : Field := ⟨.w1c, hi, lo⟩

/-- Where a register kind's copies lie: its sites, its offset in the control window, how many there are and their spacing
(in two indices), whether the copies of the sites are one register, its reset value and its writable fields. -/
structure RegLayout where
  sites   : Sites
  base    : Nat
  count   : Nat
  stride  : Nat
  count2  : Nat
  stride2 : Nat
  shared  : Bool
  reset   : Nat
  fields  : List Field
  deriving DecidableEq, Repr

/-- The register map. -/
def regLayout : RegKind → RegLayout
  | .modId => ⟨.all, 0x0, 1, 0x0, 1, 0, false, 0, []⟩
  | .modIdCompute => ⟨.all, 0x8, 1, 0x0, 1, 0, false, 0, []⟩
  | .modFloor => ⟨.all, 0x10, 1, 0x0, 1, 0, false, 0, []⟩
  | .modUnitPresent => ⟨.all, 0x18, 1, 0x0, 1, 0, false, 0, []⟩
  | .modFeatEnCompute => ⟨.all, 0x20, 1, 0x0, 1, 0, false, 0, []⟩
  | .modFeatEnBase => ⟨.all, 0x28, 1, 0x0, 1, 0, false, 0, []⟩
  | .modFeatEnCore => ⟨.all, 0x30, 1, 0x0, 1, 0, false, 0, []⟩
  | .modDieFeat => ⟨.all, 0x38, 1, 0x0, 1, 0, false, 0, []⟩
  | .modDieFeatCompute => ⟨.all, 0x40, 1, 0x0, 1, 0, false, 0, []⟩
  | .modJoinStatus => ⟨.all, 0x50, 1, 0x0, 1, 0, true, 0, [w1c 29 16]⟩
  | .modJoinReplay => ⟨.all, 0x80, 14, 0x8, 1, 0, true, 0, [w1c 63 63]⟩
  | .seqCaps => ⟨.tile, 0x1000000, 16, 0x10000, 1, 0, false, 0, []⟩
  | .seqStatus => ⟨.tile, 0x1000008, 16, 0x10000, 1, 0, false, 0, [w1c 7 7]⟩
  | .seqSlice => ⟨.tile, 0x1000010, 16, 0x10000, 1, 0, false, 0, []⟩
  | .seqPc => ⟨.tile, 0x1000018, 16, 0x10000, 1, 0, false, 0, []⟩
  | .seqWaitLimit => ⟨.tile, 0x1000020, 16, 0x10000, 1, 0, false, 1000000, [rw 31 0]⟩
  | .seqSliceEnergy => ⟨.tile, 0x1000028, 16, 0x10000, 1, 0, false, 0, []⟩
  | .seqSlices => ⟨.tile, 0x1000030, 16, 0x10000, 1, 0, false, 0, [w1c 63 63]⟩
  | .seqSuspends => ⟨.tile, 0x1000038, 16, 0x10000, 1, 0, false, 0, [w1c 63 63]⟩
  | .seqMoveBytes => ⟨.tile, 0x1000040, 16, 0x10000, 1, 0, false, 0, [w1c 63 63]⟩
  | .seqToken => ⟨.tile, 0x1000100, 16, 0x10000, 64, 8, false, 0, []⟩
  | .vatCaps => ⟨.tile, 0x2000000, 1, 0x0, 1, 0, false, 0, []⟩
  | .vatStatus => ⟨.tile, 0x2000100, 16, 0x40, 1, 0, false, 0, [w1c 9 8]⟩
  | .vatOps => ⟨.tile, 0x2000108, 16, 0x40, 1, 0, false, 0, [w1c 63 63]⟩
  | .vatActive => ⟨.tile, 0x2000110, 16, 0x40, 1, 0, false, 0, [w1c 63 63]⟩
  | .vatStall => ⟨.tile, 0x2000118, 16, 0x40, 1, 0, false, 0, [w1c 63 63]⟩
  | .vatSkipped => ⟨.tile, 0x2000120, 16, 0x40, 1, 0, false, 0, [w1c 63 63]⟩
  | .vatTallyOwner => ⟨.tile, 0x2001000, 64, 0x8, 1, 0, true, 0, []⟩
  | .vatTallyBin => ⟨.tile, 0x2010000, 64, 0x200, 64, 8, false, 0, []⟩
  | .vecCaps => ⟨.tile, 0x3000000, 1, 0x0, 1, 0, false, 0, []⟩
  | .vecStatus => ⟨.tile, 0x3000100, 16, 0x40, 1, 0, false, 0, [w1c 9 8]⟩
  | .vecInsns => ⟨.tile, 0x3000108, 16, 0x40, 1, 0, false, 0, [w1c 63 63]⟩
  | .vecStall => ⟨.tile, 0x3000110, 16, 0x40, 1, 0, false, 0, [w1c 63 63]⟩
  | .vecNonfinite => ⟨.tile, 0x3000118, 16, 0x40, 1, 0, false, 0, [w1c 63 63]⟩
  | .rowCaps => ⟨.tile, 0x3008000, 1, 0x0, 1, 0, false, 0, []⟩
  | .rowStatus => ⟨.tile, 0x3008100, 16, 0x40, 1, 0, false, 0, [w1c 9 8]⟩
  | .rowOps => ⟨.tile, 0x3008108, 16, 0x40, 1, 0, false, 0, [w1c 63 63]⟩
  | .rowActive => ⟨.tile, 0x3008110, 16, 0x40, 1, 0, false, 0, [w1c 63 63]⟩
  | .rowStatMismatch => ⟨.tile, 0x3008118, 16, 0x40, 1, 0, false, 0, [w1c 63 63]⟩
  | .rowNonfinite => ⟨.tile, 0x3008120, 16, 0x40, 1, 0, false, 0, [w1c 63 63]⟩
  | .memCaps => ⟨.tile, 0x4000000, 1, 0x0, 1, 0, false, 0, []⟩
  | .memCfg => ⟨.tile, 0x4000008, 1, 0x0, 1, 0, false, 1, []⟩
  | .memStatus => ⟨.tile, 0x4000010, 1, 0x0, 1, 0, false, 0, [w1c 9 8]⟩
  | .memUeAddr => ⟨.tile, 0x4000018, 1, 0x0, 1, 0, false, 0, [w1c 63 63]⟩
  | .memRetireThresh => ⟨.tile, 0x4000020, 1, 0x0, 1, 0, false, 86400000000 * 65536 + 3, [rw 55 16, rw 7 0]⟩
  | .memRetireReport => ⟨.tile, 0x4000028, 1, 0x0, 1, 0, false, 0, []⟩
  | .memScrub => ⟨.tile, 0x4000030, 1, 0x0, 1, 0, false, 1099511627776 + 86400000000, [rw 40 40, rw 39 0]⟩
  | .memInject => ⟨.tile, 0x4000038, 1, 0x0, 1, 0, false, 0, []⟩
  | .memCeCount => ⟨.tile, 0x4000100, 4, 0x20, 1, 0, false, 0, [w1c 63 63]⟩
  | .memUeCount => ⟨.tile, 0x4000108, 4, 0x20, 1, 0, false, 0, [w1c 63 63]⟩
  | .memTapSectors => ⟨.tile, 0x4000110, 4, 0x20, 1, 0, false, 0, [w1c 63 63]⟩
  | .memLineBytes => ⟨.tile, 0x4000118, 4, 0x20, 1, 0, false, 0, [w1c 63 63]⟩
  | .memRetired => ⟨.tile, 0x4001000, 256, 0x8, 1, 0, false, 0, []⟩
  | .celCaps => ⟨.tile, 0x5000000, 1, 0x0, 1, 0, false, 0, []⟩
  | .celStatus => ⟨.tile, 0x5000008, 1, 0x0, 1, 0, false, 0, [w1c 9 8]⟩
  | .celHits => ⟨.tile, 0x5000100, 1, 0x0, 1, 0, false, 0, [w1c 63 63]⟩
  | .celMisses => ⟨.tile, 0x5000108, 1, 0x0, 1, 0, false, 0, [w1c 63 63]⟩
  | .celWritebacks => ⟨.tile, 0x5000110, 1, 0x0, 1, 0, false, 0, [w1c 63 63]⟩
  | .celAtomics => ⟨.tile, 0x5000118, 1, 0x0, 1, 0, false, 0, [w1c 63 63]⟩
  | .celPoisoned => ⟨.tile, 0x5000120, 1, 0x0, 1, 0, false, 0, [w1c 63 63]⟩
  | .celPartWays => ⟨.tile, 0x5001000, 16, 0x8, 1, 0, true, 0xFFFF, []⟩
  | .dirCaps => ⟨.tile, 0x5008000, 1, 0x0, 1, 0, false, 0, []⟩
  | .dirStatus => ⟨.tile, 0x5008008, 1, 0x0, 1, 0, false, 0, [w1c 33 32]⟩
  | .dirAgentStatus => ⟨.tile, 0x5008010, 3, 0x8, 1, 0, true, 0, []⟩
  | .dirLastTimeout => ⟨.tile, 0x5008028, 1, 0x0, 1, 0, false, 0, [w1c 63 63]⟩
  | .dirEvictions => ⟨.tile, 0x5008100, 1, 0x0, 1, 0, false, 0, [w1c 63 63]⟩
  | .dirBackinv => ⟨.tile, 0x5008108, 1, 0x0, 1, 0, false, 0, [w1c 63 63]⟩
  | .dirRefusals => ⟨.tile, 0x5008110, 1, 0x0, 1, 0, false, 0, [w1c 63 63]⟩
  | .dirReserved => ⟨.tile, 0x5008118, 1, 0x0, 1, 0, false, 0, [w1c 63 63]⟩
  | .dirTimeouts => ⟨.tile, 0x5008120, 1, 0x0, 1, 0, false, 0, [w1c 63 63]⟩
  | .dirBadMsg => ⟨.tile, 0x5008128, 1, 0x0, 1, 0, false, 0, [w1c 63 63]⟩
  | .netCaps => ⟨.tile, 0x6000000, 1, 0x0, 1, 0, false, 0, []⟩
  | .netStatus => ⟨.tile, 0x6000008, 1, 0x0, 1, 0, false, 4, [rw 2 2]⟩
  | .netPkgId => ⟨.tile, 0x6000010, 1, 0x0, 1, 0, true, 0xFFFF, []⟩
  | .netEpoch => ⟨.tile, 0x6000018, 1, 0x0, 1, 0, true, 0, []⟩
  | .netPrefix4 => ⟨.tile, 0x6000020, 1, 0x0, 1, 0, true, 0, [rw 15 0]⟩
  | .netPrefix6Hi => ⟨.tile, 0x6000028, 1, 0x0, 1, 0, true, 0, [rw 63 0]⟩
  | .netPrefix6Lo => ⟨.tile, 0x6000030, 1, 0x0, 1, 0, true, 0, [rw 63 16]⟩
  | .netTransport => ⟨.tile, 0x6000038, 1, 0x0, 1, 0, true, 63 * 1099511627776 + 16 * 4294967296 + 100, [rw 45 40, rw 39 32, rw 31 0]⟩
  | .netPortCtrl => ⟨.tile, 0x6000100, 4, 0x40, 1, 0, false, 3 * 512 + 26 * 4 + 1, [rw 23 12, rw 11 9, rw 8 8, rw 7 2, rw 1 1]⟩
  | .netPortStatus => ⟨.tile, 0x6000108, 4, 0x40, 1, 0, false, 0xFFFF * 16777216, [w1c 9 9]⟩
  | .netPortMac => ⟨.tile, 0x6000110, 4, 0x40, 1, 0, false, 0, []⟩
  | .netPortGwMac => ⟨.tile, 0x6000118, 4, 0x40, 1, 0, false, 0, [rw 47 0]⟩
  | .netPortNeighbour => ⟨.tile, 0x6000120, 4, 0x40, 1, 0, false, 0, []⟩
  | .netPortFecCe => ⟨.tile, 0x6000128, 4, 0x40, 1, 0, false, 0, [w1c 63 63]⟩
  | .netPortFecUe => ⟨.tile, 0x6000130, 4, 0x40, 1, 0, false, 0, [w1c 63 63]⟩
  | .netPortRetrains => ⟨.tile, 0x6000138, 4, 0x40, 1, 0, false, 0, [w1c 63 63]⟩
  | .netDiscards => ⟨.tile, 0x6000400, 1, 0x0, 1, 0, false, 0, [w1c 63 63]⟩
  | .netNoRoute => ⟨.tile, 0x6000408, 1, 0x0, 1, 0, false, 0, [w1c 63 63]⟩
  | .netStaleEpoch => ⟨.tile, 0x6000410, 1, 0x0, 1, 0, false, 0, [w1c 63 63]⟩
  | .netDenied => ⟨.tile, 0x6000418, 1, 0x0, 1, 0, false, 0, [w1c 63 63]⟩
  | .netRetx => ⟨.tile, 0x6000420, 1, 0x0, 1, 0, false, 0, [w1c 63 63]⟩
  | .netAxisMap => ⟨.tile, 0x6001000, 16, 0x40, 6, 8, true, 0, []⟩
  | .netWindow => ⟨.tile, 0x6002000, 64, 0x20, 3, 8, true, 0, []⟩
  | .netRoute => ⟨.tile, 0x6010000, 65536, 0x8, 1, 0, true, 0, [rw 63 63, rw 31 16, rw 15 0]⟩
  | .netPathKey => ⟨.tile, 0x6100000, 4096, 0x10, 1, 0, false, 0, []⟩
  | .netPathSettle => ⟨.tile, 0x6100008, 4096, 0x10, 1, 0, false, 0, []⟩
  | .clrCaps => ⟨.tile, 0x7000000, 1, 0x0, 1, 0, false, 0, []⟩
  | .clrStatus => ⟨.tile, 0x7000008, 1, 0x0, 1, 0, false, 0, [w1c 15 12]⟩
  | .clrBcastLimit => ⟨.tile, 0x7000010, 1, 0x0, 1, 0, false, 1000000, [rw 31 0]⟩
  | .clrSteps => ⟨.tile, 0x7000100, 1, 0x0, 1, 0, false, 0, [w1c 63 63]⟩
  | .clrLate => ⟨.tile, 0x7000108, 1, 0x0, 1, 0, false, 0, [w1c 63 63]⟩
  | .clrSaturated => ⟨.tile, 0x7000110, 1, 0x0, 1, 0, false, 0, [w1c 63 63]⟩
  | .clrNonfinite => ⟨.tile, 0x7000118, 1, 0x0, 1, 0, false, 0, [w1c 63 63]⟩
  | .clrDiscards => ⟨.tile, 0x7000120, 1, 0x0, 1, 0, false, 0, [w1c 63 63]⟩
  | .clrBadJob => ⟨.tile, 0x7000128, 1, 0x0, 1, 0, false, 0, [w1c 63 63]⟩
  | .clrWireBytes => ⟨.tile, 0x7000130, 1, 0x0, 1, 0, false, 0, [w1c 63 63]⟩
  | .clrBucket => ⟨.tile, 0x7001000, 256, 0x10, 1, 0, false, 0, []⟩
  | .clrBucketStep => ⟨.tile, 0x7001008, 256, 0x10, 1, 0, false, 0, []⟩
  | .clrJob => ⟨.tile, 0x7010000, 4096, 0x8, 1, 0, false, 0, []⟩
  | .expCaps => ⟨.tile, 0x8000000, 1, 0x0, 1, 0, false, 0, []⟩
  | .expStatus => ⟨.tile, 0x8000008, 1, 0x0, 1, 0, false, 0, [w1c 9 8]⟩
  | .expRecvLimit => ⟨.tile, 0x8000010, 1, 0x0, 1, 0, false, 1000000, [rw 31 0]⟩
  | .expUnrouted => ⟨.tile, 0x8000018, 1, 0x0, 1, 0, false, 0, [w1c 63 63]⟩
  | .expPartTable => ⟨.tile, 0x8001000, 16, 0x40, 1, 0, true, 0, []⟩
  | .expPartShape => ⟨.tile, 0x8001008, 16, 0x40, 1, 0, true, 0, []⟩
  | .expPartDoorbell => ⟨.tile, 0x8001010, 16, 0x40, 1, 0, true, 0, []⟩
  | .expPartIn => ⟨.tile, 0x8001018, 16, 0x40, 1, 0, true, 0, []⟩
  | .expPartCnt => ⟨.tile, 0x8001020, 16, 0x40, 1, 0, true, 0, []⟩
  | .expPartOut => ⟨.tile, 0x8001028, 16, 0x40, 1, 0, true, 0, []⟩
  | .expPartRet => ⟨.tile, 0x8001030, 16, 0x40, 1, 0, true, 0, []⟩
  | .expRoute => ⟨.tile, 0x8100000, 65536, 0x8, 1, 0, true, 0, []⟩
  | .expRouteValid => ⟨.tile, 0x8180000, 1024, 0x8, 1, 0, true, 0, []⟩
  | .expLoad => ⟨.tile, 0x8200000, 65536, 0x8, 1, 0, false, 0, [w1c 63 63]⟩
  | .milCaps => ⟨.tile, 0x9000000, 1, 0x0, 1, 0, false, 0, []⟩
  | .milStatus => ⟨.tile, 0x9000008, 1, 0x0, 1, 0, false, 0, [w1c 9 8]⟩
  | .milPool => ⟨.tile, 0x9000010, 1, 0x0, 1, 0, false, 0, []⟩
  | .milPoolUsed => ⟨.tile, 0x9000018, 1, 0x0, 1, 0, false, 0, []⟩
  | .milWort => ⟨.tile, 0x9000020, 1, 0x0, 1, 0, false, 0, []⟩
  | .milDecFrames => ⟨.tile, 0x9000100, 1, 0x0, 1, 0, false, 0, [w1c 63 63]⟩
  | .milEncFrames => ⟨.tile, 0x9000108, 1, 0x0, 1, 0, false, 0, [w1c 63 63]⟩
  | .milCorrupt => ⟨.tile, 0x9000110, 1, 0x0, 1, 0, false, 0, [w1c 63 63]⟩
  | .milStale => ⟨.tile, 0x9000118, 1, 0x0, 1, 0, false, 0, [w1c 63 63]⟩
  | .milRejected => ⟨.tile, 0x9000120, 1, 0x0, 1, 0, false, 0, [w1c 63 63]⟩
  | .milDecSamples => ⟨.tile, 0x9000128, 1, 0x0, 1, 0, false, 0, [w1c 63 63]⟩
  | .milEncClamps => ⟨.tile, 0x9000130, 1, 0x0, 1, 0, false, 0, [w1c 63 63]⟩
  | .milStream => ⟨.tile, 0x9001000, 128, 0x20, 1, 0, false, 0, []⟩
  | .milStreamDim => ⟨.tile, 0x9001008, 128, 0x20, 1, 0, false, 0, []⟩
  | .milStreamRc => ⟨.tile, 0x9001010, 128, 0x20, 1, 0, false, 0, []⟩
  | .ingCaps => ⟨.tile, 0x9008000, 1, 0x0, 1, 0, false, 0, []⟩
  | .ingStatus => ⟨.tile, 0x9008008, 1, 0x0, 1, 0, false, 0, [w1c 9 8]⟩
  | .ingCoreRing => ⟨.tile, 0x9008100, 16, 0x10, 1, 0, false, 0, []⟩
  | .ingCoreProd => ⟨.tile, 0x9008108, 16, 0x10, 1, 0, false, 0, []⟩
  | .ingCoreDone => ⟨.tile, 0x9008200, 1, 0x0, 1, 0, false, 0, []⟩
  | .ingStreamSide => ⟨.tile, 0x9009000, 128, 0x10, 1, 0, false, 0, []⟩
  | .ingStreamProgress => ⟨.tile, 0x9009008, 128, 0x10, 1, 0, false, 0, []⟩
  | .ingBatch => ⟨.tile, 0x900A000, 64, 0x10, 1, 0, false, 0, []⟩
  | .ingBatchCtrl => ⟨.tile, 0x900A008, 64, 0x10, 1, 0, false, 0, []⟩
  | .evtCaps => ⟨.tile, 0xA000000, 1, 0x0, 1, 0, false, 0, []⟩
  | .evtPend => ⟨.tile, 0xA000100, 4, 0x8, 1, 0, false, 0, []⟩
  | .evtPendSet => ⟨.tile, 0xA000120, 4, 0x8, 1, 0, false, 0, []⟩
  | .evtSrcRoute => ⟨.tile, 0xA001000, 256, 0x8, 1, 0, false, 15 * 1048576 + 2 * 4096, []⟩
  | .evtSrcCount => ⟨.tile, 0xA002000, 256, 0x8, 1, 0, false, 0, []⟩
  | .evtHoldoff => ⟨.tile, 0xA003000, 64, 0x8, 1, 0, true, 0, []⟩
  | .audCaps => ⟨.tile, 0xB000000, 1, 0x0, 1, 0, false, 0, []⟩
  | .audNonfinite => ⟨.tile, 0xB001000, 256, 0x40, 1, 0, false, 0, []⟩
  | .audSaturated => ⟨.tile, 0xB001008, 256, 0x40, 1, 0, false, 0, []⟩
  | .audMalformed => ⟨.tile, 0xB001010, 256, 0x40, 1, 0, false, 0, []⟩
  | .audClrNonfinite => ⟨.tile, 0xB001018, 256, 0x40, 1, 0, false, 0, []⟩
  | .audTrips => ⟨.tile, 0xB001020, 256, 0x40, 1, 0, true, 0, []⟩
  | .audGate => ⟨.tile, 0xB001028, 256, 0x40, 1, 0, false, 0, []⟩
  | .pwrTileStatus => ⟨.tile, 0xC000000, 1, 0x0, 1, 0, false, 0, []⟩
  | .pwrTileEnergy => ⟨.tile, 0xC000008, 1, 0x0, 1, 0, false, 0, [w1c 63 63]⟩
  | .cmdCaps => ⟨.core, 0x1000000, 1, 0x0, 1, 0, false, 0, []⟩
  | .cmdStatus => ⟨.core, 0x1000008, 1, 0x0, 1, 0, false, 0, [w1c 9 8]⟩
  | .cmdResults => ⟨.core, 0x1000010, 1, 0x0, 1, 0, false, 0, []⟩
  | .cmdPackets => ⟨.core, 0x1000100, 1, 0x0, 1, 0, false, 0, [w1c 63 63]⟩
  | .cmdBadCrc => ⟨.core, 0x1000108, 1, 0x0, 1, 0, false, 0, [w1c 63 63]⟩
  | .cmdBadSeq => ⟨.core, 0x1000110, 1, 0x0, 1, 0, false, 0, [w1c 63 63]⟩
  | .cmdExpired => ⟨.core, 0x1000118, 1, 0x0, 1, 0, false, 0, [w1c 63 63]⟩
  | .cmdCplStalls => ⟨.core, 0x1000120, 1, 0x0, 1, 0, false, 0, [w1c 63 63]⟩
  | .cmdQCfg => ⟨.core, 0x1001000, 128, 0x40, 1, 0, false, 0, []⟩
  | .cmdQRing => ⟨.core, 0x1001008, 128, 0x40, 1, 0, false, 0, []⟩
  | .cmdQCpl => ⟨.core, 0x1001010, 128, 0x40, 1, 0, false, 0, []⟩
  | .cmdQCtrl => ⟨.core, 0x1001018, 128, 0x40, 1, 0, false, 0, []⟩
  | .cmdQDoorbell => ⟨.core, 0x1001020, 128, 0x40, 1, 0, false, 0, []⟩
  | .cmdQHead => ⟨.core, 0x1001028, 128, 0x40, 1, 0, false, 0, []⟩
  | .cmdQCplHead => ⟨.core, 0x1001030, 128, 0x40, 1, 0, false, 0, []⟩
  | .cmdQRetain => ⟨.core, 0x1001038, 128, 0x40, 1, 0, false, 0, []⟩
  | .cmdQpSettle => ⟨.core, 0x1004000, 1024, 0x8, 1, 0, false, 0, []⟩
  | .prtCaps => ⟨.core, 0x2000000, 1, 0x0, 1, 0, false, 0, []⟩
  | .prtStatus => ⟨.core, 0x2000008, 1, 0x0, 1, 0, true, 0, [w1c 8 8]⟩
  | .prtHold => ⟨.core, 0x2000010, 1, 0x0, 1, 0, true, 1024, [rw 31 0]⟩
  | .prtKills => ⟨.core, 0x2000100, 1, 0x0, 1, 0, true, 0, [w1c 63 63]⟩
  | .prtPreempts => ⟨.core, 0x2000108, 1, 0x0, 1, 0, true, 0, [w1c 63 63]⟩
  | .prtPassedEnergy => ⟨.core, 0x2000110, 1, 0x0, 1, 0, true, 0, [w1c 63 63]⟩
  | .prtPassedClusters => ⟨.core, 0x2000118, 1, 0x0, 1, 0, true, 0, [w1c 63 63]⟩
  | .prtPart => ⟨.core, 0x2001000, 16, 0x20, 1, 0, false, 0, []⟩
  | .prtPartClusters => ⟨.core, 0x2001008, 16, 0x20, 1, 0, false, 0, []⟩
  | .prtPartQuantum => ⟨.core, 0x2001010, 16, 0x20, 1, 0, false, 0, []⟩
  | .prtCtx => ⟨.core, 0x2002000, 256, 0x8, 1, 0, false, 0, []⟩
  | .pwrCaps => ⟨.site4, 0x3000000, 1, 0x0, 1, 0, false, 0, []⟩
  | .pwrStatus => ⟨.site4, 0x3000008, 1, 0x0, 1, 0, false, 0, [w1c 19 16]⟩
  | .pwrCfg => ⟨.site4, 0x3000010, 1, 0x0, 1, 0, false, 4096 * 65536 + 4, [rw 31 16, rw 7 0]⟩
  | .pwrModule => ⟨.site4, 0x3000018, 1, 0x0, 1, 0, false, 0, []⟩
  | .pwrBalance => ⟨.site4, 0x3000020, 1, 0x0, 1, 0, false, 0, []⟩
  | .pwrSupply => ⟨.site4, 0x3000028, 1, 0x0, 1, 0, false, 0, []⟩
  | .pwrCoolant => ⟨.site4, 0x3000030, 1, 0x0, 1, 0, false, 0, []⟩
  | .pwrEnergy => ⟨.site4, 0x3000100, 1, 0x0, 1, 0, false, 0, [w1c 63 63]⟩
  | .pwrHoldBeats => ⟨.site4, 0x3000108, 1, 0x0, 1, 0, false, 0, [w1c 63 63]⟩
  | .pwrHolds => ⟨.site4, 0x3000110, 1, 0x0, 1, 0, false, 0, [w1c 63 63]⟩
  | .pwrWarns => ⟨.site4, 0x3000118, 1, 0x0, 1, 0, false, 0, [w1c 63 63]⟩
  | .pwrPartAllow => ⟨.site4, 0x3001000, 16, 0x10, 1, 0, false, 0, []⟩
  | .pwrPartBalance => ⟨.site4, 0x3001008, 16, 0x10, 1, 0, false, 0, []⟩
  | .beatCaps => ⟨.site4, 0x4000000, 1, 0x0, 1, 0, false, 0, []⟩
  | .beatStatus => ⟨.site4, 0x4000008, 1, 0x0, 1, 0, false, 0, [w1c 10 8]⟩
  | .beatCount => ⟨.site4, 0x4000010, 1, 0x0, 1, 0, false, 0, []⟩
  | .beatPtpCfg => ⟨.site4, 0x4000018, 1, 0x0, 1, 0, false, 0, [rw 8 8, rw 6 0]⟩
  | .beatStepLimit => ⟨.site4, 0x4000020, 1, 0x0, 1, 0, false, 1000, [rw 31 0]⟩
  | .beatLastSync => ⟨.site4, 0x4000028, 1, 0x0, 1, 0, false, 0, []⟩
  | .beatGlitches => ⟨.site4, 0x4000100, 1, 0x0, 1, 0, false, 0, [w1c 63 63]⟩
  | .beatLosses => ⟨.site4, 0x4000108, 1, 0x0, 1, 0, false, 0, [w1c 63 63]⟩
  | .beatSyncs => ⟨.site4, 0x4000110, 1, 0x0, 1, 0, false, 0, [w1c 63 63]⟩
  | .beatPtpMisses => ⟨.site4, 0x4000118, 1, 0x0, 1, 0, false, 0, [w1c 63 63]⟩
  | .evtCtrlCaps => ⟨.core, 0x5000000, 1, 0x0, 1, 0, false, 0, []⟩
  | .evtCoreCfg => ⟨.core, 0x5001000, 64, 0x20, 1, 0, false, 256, [rw 15 12, rw 9 8, rw 4 0]⟩
  | .evtCoreClaim => ⟨.core, 0x5001008, 64, 0x20, 1, 0, false, 0, []⟩
  | .evtCoreEoi => ⟨.core, 0x5001010, 64, 0x20, 1, 0, false, 0, []⟩
  | .evtCoreStack => ⟨.core, 0x5001018, 64, 0x20, 1, 0, false, 0, []⟩
  | .secCaps => ⟨.site4, 0x6000000, 1, 0x0, 1, 0, false, 0, []⟩
  | .secStatus => ⟨.site4, 0x6000008, 1, 0x0, 1, 0, false, 0, []⟩
  | .secTwoKeyWindow => ⟨.site4, 0x6000010, 1, 0x0, 1, 0, false, 300000000, [rw 31 0]⟩
  | .secFw => ⟨.site4, 0x6000018, 1, 0x0, 1, 0, false, 0, []⟩
  | .secProp => ⟨.site4, 0x6000100, 16, 0x8, 1, 0, false, 0, []⟩
  | .secKeySlot => ⟨.site4, 0x6000200, 8, 0x8, 1, 0, false, 0, []⟩
  | .secConfirms => ⟨.site4, 0x6000300, 1, 0x0, 1, 0, false, 0, [w1c 63 63]⟩
  | .secRefusals => ⟨.site4, 0x6000308, 1, 0x0, 1, 0, false, 0, [w1c 63 63]⟩
  | .secLapses => ⟨.site4, 0x6000310, 1, 0x0, 1, 0, false, 0, [w1c 63 63]⟩
  | .secDevcert => ⟨.site4, 0x6010000, 8192, 0x8, 1, 0, false, 0, []⟩
  | .capCaps => ⟨.core, 0x7000000, 1, 0x0, 1, 0, false, 0, []⟩
  | .capStatus => ⟨.core, 0x7000008, 1, 0x0, 1, 0, false, 0, [w1c 8 8]⟩
  | .capUeAddr => ⟨.core, 0x7000010, 1, 0x0, 1, 0, false, 0, [w1c 63 63]⟩
  | .capRetireThresh => ⟨.core, 0x7000018, 1, 0x0, 1, 0, false, 86400000000 * 65536 + 3, [rw 55 16, rw 7 0]⟩
  | .capRetireReport => ⟨.core, 0x7000020, 1, 0x0, 1, 0, false, 0, []⟩
  | .capScrub => ⟨.core, 0x7000028, 1, 0x0, 1, 0, false, 1099511627776 + 86400000000, [rw 40 40, rw 39 0]⟩
  | .capInject => ⟨.core, 0x7000030, 1, 0x0, 1, 0, false, 0, []⟩
  | .capCeCount => ⟨.core, 0x7000100, 8, 0x20, 1, 0, false, 0, [w1c 63 63]⟩
  | .capUeCount => ⟨.core, 0x7000108, 8, 0x20, 1, 0, false, 0, [w1c 63 63]⟩
  | .capLineBytes => ⟨.core, 0x7000110, 8, 0x20, 1, 0, false, 0, [w1c 63 63]⟩
  | .capHome => ⟨.core, 0x7001000, 1024, 0x8, 1, 0, true, 0, []⟩
  | .capRetired => ⟨.core, 0x7003000, 256, 0x8, 1, 0, true, 0, []⟩

/-- The register kinds, part 1. -/
def regKinds1 : List RegKind :=
  [.modId, .modIdCompute, .modFloor, .modUnitPresent, .modFeatEnCompute, .modFeatEnBase, .modFeatEnCore,
   .modDieFeat, .modDieFeatCompute, .modJoinStatus, .modJoinReplay, .seqCaps, .seqStatus, .seqSlice, .seqPc,
   .seqWaitLimit, .seqSliceEnergy, .seqSlices, .seqSuspends, .seqMoveBytes, .seqToken, .vatCaps, .vatStatus,
   .vatOps, .vatActive, .vatStall, .vatSkipped, .vatTallyOwner, .vatTallyBin, .vecCaps, .vecStatus, .vecInsns,
   .vecStall, .vecNonfinite, .rowCaps, .rowStatus, .rowOps, .rowActive, .rowStatMismatch, .rowNonfinite]

/-- The register kinds, part 2. -/
def regKinds2 : List RegKind :=
  [.memCaps, .memCfg, .memStatus, .memUeAddr, .memRetireThresh, .memRetireReport, .memScrub, .memInject,
   .memCeCount, .memUeCount, .memTapSectors, .memLineBytes, .memRetired, .celCaps, .celStatus, .celHits,
   .celMisses, .celWritebacks, .celAtomics, .celPoisoned, .celPartWays, .dirCaps, .dirStatus, .dirAgentStatus,
   .dirLastTimeout, .dirEvictions, .dirBackinv, .dirRefusals, .dirReserved, .dirTimeouts, .dirBadMsg, .netCaps,
   .netStatus, .netPkgId, .netEpoch, .netPrefix4, .netPrefix6Hi, .netPrefix6Lo, .netTransport, .netPortCtrl]

/-- The register kinds, part 3. -/
def regKinds3 : List RegKind :=
  [.netPortStatus, .netPortMac, .netPortGwMac, .netPortNeighbour, .netPortFecCe, .netPortFecUe, .netPortRetrains,
   .netDiscards, .netNoRoute, .netStaleEpoch, .netDenied, .netRetx, .netAxisMap, .netWindow, .netRoute,
   .netPathKey, .netPathSettle, .clrCaps, .clrStatus, .clrBcastLimit, .clrSteps, .clrLate, .clrSaturated,
   .clrNonfinite, .clrDiscards, .clrBadJob, .clrWireBytes, .clrBucket, .clrBucketStep, .clrJob, .expCaps,
   .expStatus, .expRecvLimit, .expUnrouted, .expPartTable, .expPartShape, .expPartDoorbell, .expPartIn,
   .expPartCnt, .expPartOut]

/-- The register kinds, part 4. -/
def regKinds4 : List RegKind :=
  [.expPartRet, .expRoute, .expRouteValid, .expLoad, .milCaps, .milStatus, .milPool, .milPoolUsed, .milWort,
   .milDecFrames, .milEncFrames, .milCorrupt, .milStale, .milRejected, .milDecSamples, .milEncClamps, .milStream,
   .milStreamDim, .milStreamRc, .ingCaps, .ingStatus, .ingCoreRing, .ingCoreProd, .ingCoreDone, .ingStreamSide,
   .ingStreamProgress, .ingBatch, .ingBatchCtrl, .evtCaps, .evtPend, .evtPendSet, .evtSrcRoute, .evtSrcCount,
   .evtHoldoff, .audCaps, .audNonfinite, .audSaturated, .audMalformed, .audClrNonfinite, .audTrips]

/-- The register kinds, part 5. -/
def regKinds5 : List RegKind :=
  [.audGate, .pwrTileStatus, .pwrTileEnergy, .cmdCaps, .cmdStatus, .cmdResults, .cmdPackets, .cmdBadCrc,
   .cmdBadSeq, .cmdExpired, .cmdCplStalls, .cmdQCfg, .cmdQRing, .cmdQCpl, .cmdQCtrl, .cmdQDoorbell, .cmdQHead,
   .cmdQCplHead, .cmdQRetain, .cmdQpSettle, .prtCaps, .prtStatus, .prtHold, .prtKills, .prtPreempts,
   .prtPassedEnergy, .prtPassedClusters, .prtPart, .prtPartClusters, .prtPartQuantum, .prtCtx, .pwrCaps,
   .pwrStatus, .pwrCfg, .pwrModule, .pwrBalance, .pwrSupply, .pwrCoolant, .pwrEnergy, .pwrHoldBeats]

/-- The register kinds, part 6. -/
def regKinds6 : List RegKind :=
  [.pwrHolds, .pwrWarns, .pwrPartAllow, .pwrPartBalance, .beatCaps, .beatStatus, .beatCount, .beatPtpCfg,
   .beatStepLimit, .beatLastSync, .beatGlitches, .beatLosses, .beatSyncs, .beatPtpMisses, .evtCtrlCaps,
   .evtCoreCfg, .evtCoreClaim, .evtCoreEoi, .evtCoreStack, .secCaps, .secStatus, .secTwoKeyWindow, .secFw,
   .secProp, .secKeySlot, .secConfirms, .secRefusals, .secLapses, .secDevcert, .capCaps, .capStatus, .capUeAddr,
   .capRetireThresh, .capRetireReport, .capScrub, .capInject, .capCeCount, .capUeCount, .capLineBytes, .capHome]

/-- The register kinds, part 7. -/
def regKinds7 : List RegKind :=
  [.capRetired]

/-- Every register kind. -/
def regKinds : List RegKind := regKinds1 ++ regKinds2 ++ regKinds3 ++ regKinds4 ++ regKinds5 ++ regKinds6 ++ regKinds7

/-- The control window of a site (R258). -/
def windowBase (site : Nat) : Nat := 0xF0000000000 + site * 0x1000000000

/-- The site whose copy stands for a shared register, and the site itself otherwise. -/
def homeSite (l : RegLayout) (site : Nat) : Nat :=
  if l.shared then
    match l.sites with
    | .tile => 0
    | .core => 4
    | .site4 => 4
    | .all => 4
  else site

/-- The address under which the model keeps register (`i`, `j`) of a kind at a site. -/
def regAddr (k : RegKind) (site i : Nat) (j : Nat := 0) : Nat :=
  let l := regLayout k
  windowBase (homeSite l site) + l.base + i * l.stride + j * l.stride2

/-- A site carries registers of the given class; the composition fixes sites 0 to 3 as tiles, 4 and 5 as core dies. -/
def siteHas (s : Sites) (site : Nat) : Bool :=
  match s with
  | .all => decide (site < 6)
  | .tile => decide (site < 4)
  | .core => decide (site = 4 ∨ site = 5)
  | .site4 => decide (site = 4)

/-- One index of a register array from an offset, the rest left over. -/
def regIndex (off stride count : Nat) : Option (Nat × Nat) :=
  if stride = 0 then some (0, off)
  else if off / stride < count then some (off / stride, off % stride) else none

/-- The indices of a kind that lie at an offset of a window. -/
def regMatch (k : RegKind) (off : Nat) : Option (Nat × Nat) :=
  let l := regLayout k
  if off < l.base then none
  else
    match regIndex (off - l.base) l.stride l.count with
    | none => none
    | some (i, rest) =>
      match regIndex rest l.stride2 l.count2 with
      | none => none
      | some (j, rest) => if rest = 0 then some (i, j) else none

/-- The first kind of a list that has a register at an offset of a site's window. -/
def regFind (site off : Nat) : List RegKind → Option (RegKind × Nat × Nat)
  | [] => none
  | k :: ks =>
    if siteHas (regLayout k).sites site then
      match regMatch k off with
      | some (i, j) => some (k, i, j)
      | none => regFind site off ks
    else regFind site off ks

/-- The register at an offset of a site's control window; none where the offset is reserved (R259). -/
def regAt (site off : Nat) : Option (RegKind × Nat × Nat) := regFind site off regKinds

/-- The reset value of the register kept at an address. -/
def regReset (a : Nat) : Word :=
  if a < 0xF0000000000 then 0
  else
    let o := a - 0xF0000000000
    match regAt (o / 0x1000000000) (o % 0x1000000000) with
    | some (k, _, _) => BitVec.ofNat 64 (regLayout k).reset
    | none => 0

end Sys2Proof.Machine
end

