-- ==== Sys2Proof/Machine/Map.lean ====
section
/-!
DEFINITION. Sparse tables: the one canonical form in which the model keeps memory, registers and every indexed
unit. A table is a list of (key, value) pairs with strictly rising keys; a key that is not listed reads as the
table's default for it, and no listed value equals that default, so equal tables are equal lists.
-/
namespace Sys2Proof.Machine

/-- A sparse table from keys to values. -/
abbrev SMap (α : Type) := List (Nat × α)

/-- The value of key `k`, `d k` where the table lists none. -/
def mapGet {α : Type} (d : Nat → α) (m : SMap α) (k : Nat) : α :=
  match m with
  | [] => d k
  | (j, v) :: t => if j = k then v else mapGet d t k

/-- The table without key `k`. -/
def mapErase {α : Type} (m : SMap α) (k : Nat) : SMap α :=
  match m with
  | [] => []
  | (j, v) :: t => if j = k then mapErase t k else (j, v) :: mapErase t k

/-- The table with `v` inserted at key `k`, before the first larger key. -/
def mapInsert {α : Type} (m : SMap α) (k : Nat) (v : α) : SMap α :=
  match m with
  | [] => [(k, v)]
  | (j, w) :: t =>
    if k < j then (k, v) :: (j, w) :: t
    else if k = j then (k, v) :: t
    else (j, w) :: mapInsert t k v

/-- The table with key `k` set to `v`; the default value is not listed. -/
def mapSet {α : Type} [DecidableEq α] (d : Nat → α) (m : SMap α) (k : Nat) (v : α) : SMap α :=
  if v = d k then mapErase m k else mapInsert m k v

/-- The listed keys rise strictly and lie above `lo`, and no listed value is its key's default. -/
def mapWfFrom {α : Type} [DecidableEq α] (d : Nat → α) (lo : Option Nat) (m : SMap α) : Bool :=
  match m with
  | [] => true
  | (k, v) :: t =>
    (match lo with
      | none => true
      | some l => decide (l < k)) && decide (v ≠ d k) && mapWfFrom d (some k) t

/-- The canonical form of a table. -/
def mapWf {α : Type} [DecidableEq α] (d : Nat → α) (m : SMap α) : Bool := mapWfFrom d none m

/-- The keys of a table whose values satisfy `p`, in rising order. -/
def mapKeys {α : Type} (p : α → Bool) (m : SMap α) : List Nat :=
  match m with
  | [] => []
  | (k, v) :: t => if p v then k :: mapKeys p t else mapKeys p t

end Sys2Proof.Machine
end

