-- ==== Sys2Proof/Machine/State.lean ====
section
/-!
DEFINITION. The state of the module as plain data, and its value at reset. Every register that software reads whole and
that is not computed from other state is held in `regs` under its control-space address (RegMap.lean gives each one's
reset value and its canonical copy); everything else has a field of its own. Indexed units are sparse tables (Map.lean)
whose unlisted entries read as the entry's value at reset.
-/
namespace Sys2Proof.Machine

/-- Why a step can stop the machine. No meaning of this model raises one: every command has an effect, so the type has
the one constructor its use in `exec` needs. -/
inductive Fault where
  /-- Never raised. Safe: a machine that stopped would satisfy no statement about a next state. -/
  | unreachable
  deriving DecidableEq, Repr

/-- Why a step can refuse a command. -/
inductive Refusal where
  /-- Raised only by an arm of `exec` whose command has no meaning yet. Safe: the run stops there. -/
  | notModelled (mnemonic : String)
  deriving DecidableEq, Repr

/-! ### The module as a whole -/

/-- R37, R473, R491, R583: what the module is doing as a whole. -/
inductive Phase where
  /-- No 42 V, or lockout (R472). -/
  | off
  /-- MOD_RESET_N asserted: every die in reset. -/
  | held
  /-- Held in reset by the composition check, the management controller in its ROM state (R33, R37). -/
  | rom
  /-- Held in reset by a thermal trip, the management controller in its ROM state (R491). -/
  | tripped
  /-- MOD_RESET_N asserted after a thermal trip: its release needs every junction below 60 °C (R491). -/
  | heldTripped
  /-- The die at site 4 cannot run its management controller (R36). -/
  | silent
  /-- Out of reset, the boot of R558 complete. -/
  | running
  deriving DecidableEq, Repr

/-- What one die answers on the sideband chain (R27, R30, R38). -/
structure Die where
  responds : Bool
  strap    : BitVec 16
  stepping : BitVec 8
  deriving DecidableEq, Repr

/-! ### Commands (13_commands.md) -/

/-- R408: the status codes. -/
inductive Status where
  | ok | pending | notReady | badOpcode | badParam | badCrc | badSequence | noResource | limitReached | peerLost
  | poisoned | contextKilled | deadlineMissed | denied | awaitingSecondKey | streamCorrupt | declaredSizeRejected
  | staleDropped | strapFault | beatLost
  deriving DecidableEq, Repr

/-- R405: a status reply or completion record, without its CRC. -/
structure Record where
  ticket      : Nat
  status      : Status
  detail      : Nat
  stamp       : Nat
  path        : Nat
  pathKind    : Nat
  defaultSeed : Bool
  withheld    : Bool
  kept        : Bool
  queue       : Nat
  value       : Nat
  deriving DecidableEq, Repr

/-- One command queue: what ATTACH gives it and its ring and completion counters. `barred` holds from a reset of its
controller to an ATTACH with a new epoch (R430); `heldRecords` are the records of R407, oldest first. -/
structure Queue where
  valid     : Bool
  attached  : Bool
  ctrlKind  : Nat
  partition : Nat
  system    : Bool
  ringLog2  : Nat
  ringBase  : Nat
  cplAddr   : Nat
  epoch     : Nat
  pkg       : Nat
  path      : Nat
  rkey      : Nat
  retain    : Nat
  head      : Nat
  tail      : Nat
  posted    : Nat
  cplHead   : Nat
  barred    : Bool
  heldRecords : List Record
  deriving DecidableEq, Repr

/-- A queue that does not exist. -/
def Queue.free : Queue :=
  ⟨false, false, 0, 0, false, 0, 0, 0, 0, 0, 0, 0, 0, 0, 0, 0, 0, false, []⟩

/-- R417: a result kept under (queue, ticket), and the wait clock when its command completed. -/
structure Kept where
  queue  : Nat
  ticket : Nat
  record : Record
  since  : Nat
  deriving DecidableEq, Repr

/-- What a started command waits for before it completes. -/
inductive Wait where
  /-- Not started yet (R404). -/
  | notStarted
  /-- R426: SETTLE waits for a path's settle count. -/
  | settle (kind srcPkg path stamp limit since : Nat)
  /-- R431: DETACH with FREE waits for its queue's commands. -/
  | queueIdle (queue : Nat)
  /-- R442: CONTEXT_CLOSE waits for the context's clusters to stop. -/
  | contextStop (ctx : Nat)
  /-- R225: RUN and RUN_STEP wait for their run's slices. -/
  | run (run : Nat)
  /-- R226: CASK_FLUSH waits for the cask slices that were unstarted or running at its issue, as (run, slice). -/
  | caskFlush (slices : List (Nat × Nat))
  /-- R240: ROUTE_TABLE_WRITE waits for the partition's runs. -/
  | routeWrite
  /-- R545: AUDIT_ARM waits for the context's gated steps. -/
  | auditArm
  /-- R362: JOB_CLOSE waits for the job's steps. -/
  | jobClose (job : Nat)
  /-- R379: PAR_SET waits until no step of the bucket is in flight. -/
  | parSet
  /-- R388: RESERVE_FLUSH waits until no step of the named buckets is in flight. -/
  | reserveFlush
  /-- R367: BUCKET_CONTRIBUTE waits for its step's roll. -/
  | contribute (job bucket step : Nat)
  /-- R423: a remote write waits for the acknowledgement of its last packet on a path (kind 1) or queue pair (kind 2); `poison` is
  the detail of R280 when its source held a poisoned sector. -/
  | remoteWrite (kind path : Nat) (poison : Option Nat)
  /-- R339: a remote read waits for its data. -/
  | remoteRead
  /-- R502: STREAM_FEED waits for its feed. -/
  | feed (stream feed : Nat)
  /-- R529: STREAM_CLOSE waits for the stream's feeds. -/
  | streamClose (stream : Nat)
  /-- R510: BATCH_DEFINE waits for its fill's record. -/
  | batchFill (batch fill : Nat)
  /-- R486: BUDGET_SET waits for the next ledger close. -/
  | ledgerClose
  /-- R571: TWO_KEY_CONFIRM of a PART_DESTROY waits until the partition is free. -/
  | partFree (partition : Nat)
  deriving DecidableEq, Repr

/-- A command accepted and not yet completed: its number since reset, the packet's command, what it waits for, and the seed
then in force of the context it names (R233, R369). `posts` falls when R429 or R430 withdraws its record. -/
structure Cmd where
  id      : Nat
  instr   : Instr
  queue   : Nat
  ticket  : Nat
  ordered : Bool
  posts   : Bool
  wait    : Wait
  seed    : Option (BitVec 64)
  deriving DecidableEq, Repr

/-! ### Partitions and contexts (14_partitions_scheduling.md) -/

/-- R433: a partition descriptor's values. -/
structure PartDesc where
  extents    : List (Nat × Nat)   -- (FIRST_GIB, COUNT_GIB) of the used extents, in order
  clusters   : Nat                -- 64-bit mask
  tallySlots : Nat                -- 64-bit mask
  progBase   : Nat
  progLen    : Nat
  expBase    : Nat
  expLen     : Nat
  celWays    : Nat
  maxContexts : Nat               -- the field, minus 1 form
  axes       : List (Nat × Nat × Nat)   -- (LEN, STRIDE, COORD) of axes 0 to 4
  pkgBase    : Nat
  deriving DecidableEq, Repr

/-- The STATE field of `PRT_PART`. -/
inductive PartState where
  | free | createProposed | active | destroyProposed | destroying
  deriving DecidableEq, Repr

/-- A partition; `raw` is the descriptor as PART_CREATE read it (R573). -/
structure Partition where
  state   : PartState
  desc    : PartDesc
  quantum : Nat
  raw     : List Byte
  deriving DecidableEq, Repr

/-- The descriptor of a partition that does not exist. -/
def PartDesc.none : PartDesc := ⟨[], 0, 0, 0, 0, 0, 0, 0, 0, [], 0⟩

/-- A free partition number. -/
def Partition.none : Partition := ⟨.free, PartDesc.none, 0, []⟩

/-- R545: the commit gate of a context. -/
structure Gate where
  armed    : Bool
  warmup   : Nat
  spike    : BitVec 32
  lossAddr : Nat
  mean     : Option (BitVec 32)
  seen     : Nat
  lastLoss : BitVec 32
  lastWithheld : Bool
  lastStep : Nat
  deriving DecidableEq, Repr

/-- R545: the gate of a context that has just opened. -/
def Gate.opened : Gate := ⟨true, 100, 0#32, 0, none, 0, 0#32, false, 0⟩

/-- The store and stat memory that a cluster held for a rank of a context when another context took it (R449; log entry 46). -/
structure Stash where
  cluster : Nat
  rank    : Nat
  store   : List Byte
  stat    : SMap (List Byte)
  deriving DecidableEq, Repr

/-- A context: what CONTEXT_OPEN gives it, its seed when set (R101) with the number of the SET_SEED that set it (R233), the ranks whose
cluster state its save area holds (R215) with the cluster that saved each last, what its clusters held when they were taken (log entry
46), and its gate. -/
structure Context where
  valid     : Bool
  ending    : Bool
  partition : Nat
  priority  : Nat
  saveBase  : Nat
  saveRanks : Nat
  seed      : Option (BitVec 64)
  seedCmd   : Nat
  savedRanks : List (Nat × Nat)
  stash     : List Stash
  gate      : Gate
  deriving DecidableEq, Repr

/-- A context number that is not open. -/
def Context.closed : Context := ⟨false, false, 0, 0, 0, 0, none, 0, [], [], Gate.opened⟩

/-! ### Memory and coherence (09_memory.md, 10_cellar_coherence.md) -/

/-- R291, R293: a cellar line: its way, its 128 bytes, whether it is modified, and its four poison bits. -/
structure CelLine where
  way    : Nat
  data   : List Byte
  dirty  : Bool
  poison : BitVec 4
  deriving DecidableEq, Repr

/-- R298, R299: a directory entry: state E when `excl`, the holders, none of a line whose transaction holds its entry in state I
(R303), and when it was allocated. -/
structure DirEntry where
  excl    : Bool
  holders : List Nat
  order   : Nat
  deriving DecidableEq, Repr

/-- The request types of R301. -/
inductive ReqType where
  | rdShared | rdOwn | upgrade | rdNc | wrNc | atomic | reduce | writeBack | evict
  deriving DecidableEq, Repr

/-- A request at its home: who asked, its tag, its line and what it carries (R300). -/
structure CohReq where
  typ      : ReqType
  src      : Nat
  tag      : Nat
  line     : Nat
  rsv      : Bool
  offset   : Nat
  aop      : Nat
  size8    : Bool
  emask    : Nat
  payload  : List Byte
  deriving DecidableEq, Repr

/-- An open transaction (R303): its request, the (agent, line) snoops still unanswered, those of the victim's line first awaited
alone when it needs an entry of a full set (R308), and the wait clock when they were sent. -/
structure Txn where
  home    : Nat
  req     : CohReq
  awaiting : List (Nat × Nat)
  since   : Nat
  deriving DecidableEq, Repr

/-- A requester's outstanding request (R302), and for a data mover the run and the slice that its cluster served when it was sent. -/
structure Outstanding where
  req      : CohReq
  refusals : Nat
  since    : Nat
  serves   : Option (Nat × Nat)
  deriving DecidableEq, Repr

/-- A caching agent's copy of a line. -/
structure Copy where
  agent : Nat
  line  : Nat
  excl  : Bool
  data  : List Byte
  deriving DecidableEq, Repr

/-- A message the home or an agent has sent and its receiver has not yet taken: to `dest`, of message type `typ` (R301), with DIRTY
as it stands and the detail that a POISONED carries. -/
structure CohOut where
  typ     : Nat
  dest    : Nat
  home    : Nat
  src     : Nat
  tag     : Nat
  line    : Nat
  payload : List Byte
  detail  : Nat
  dirty   : Bool := false
  deriving DecidableEq, Repr

/-- A correction-table entry (R281). -/
structure CorrEntry where
  sector : Nat
  count  : Nat
  since  : Nat
  deriving DecidableEq, Repr

/-- A retirement report (R283). -/
structure RetireReport where
  count : Nat
  unit  : Nat
  addr  : Nat
  deriving DecidableEq, Repr

/-- The report queue of a tile or core die: oldest first, and whether one was discarded since the last read. -/
structure ReportQueue where
  reports  : List RetireReport
  overflow : Bool
  deriving DecidableEq, Repr

/-- An answer to a register access, the last one given: whether it was DENIED, and the data read. -/
structure Reply where
  agent  : Agent
  denied : Bool
  data   : BitVec 64
  deriving DecidableEq, Repr

/-! ### Programs, runs and slices (06_cluster_sequencer.md, 07_backward_pass.md) -/

/-- R188: a slice table entry. -/
structure SliceDesc where
  entries  : List Nat      -- ENTRY_VAT, ENTRY_VEC, ENTRY_ROW, ENTRY_MOVE
  energy   : Nat
  clusters : Nat           -- the count, CLUSTERS + 1
  cls      : Nat
  sections : List (Nat × List Byte)   -- (STORE_ADDR, bytes) of the preload sections, in order
  preds    : List Nat      -- PRED0 to PRED3
  duration : Nat
  deriving DecidableEq, Repr

/-- A loaded program (R190, R414): its partition, its handle, where its image lies in the program area, its code words
and its slices. -/
structure Program where
  partition : Nat
  handle    : Nat
  base      : Nat
  len       : Nat
  code      : List Word
  slices    : List SliceDesc
  deriving DecidableEq, Repr

/-- Where a slice of a run stands. -/
inductive SliceStatus where
  | waiting | eligible | running | suspended | completed
  deriving DecidableEq, Repr

/-- A slice of a run: its status, since when it has been eligible, whether it is promoted (R223), the clusters that
hold its ranks, whether it has been passed over for energy and for clusters since it last became eligible (R446), since
when for clusters without a break (R447), when it last started or resumed (R451), the energy measured so far in
microjoules (R194), and the rank it held when it was last suspended (R228). -/
structure SliceRun where
  status    : SliceStatus
  since     : Nat
  promoted  : Bool
  clusters  : List Nat
  passedEnergy   : Bool
  passedClusters : Bool
  passedSince    : Option Nat
  started   : Nat
  everStarted : Bool
  energy    : Nat
  heldRank  : Nat
  deriving DecidableEq, Repr

/-- An area of memory that a slice's MOVE has read or written (R219). -/
structure RunArea where
  slice : Nat
  addr  : Nat
  len   : Nat
  write : Bool
  deriving DecidableEq, Repr

/-- A run: the command that issued it, its program, its seed (R233), its scalar block, its slices, and for RUN_STEP its
step and gate. `nonFinite` is the step count of R547; `fault` the earliest fault of R214, from then until the run has ended. -/
structure Run where
  id        : Nat
  cmd       : Nat
  ctx       : Nat
  partition : Nat
  program   : Nat
  seed      : BitVec 64
  defaultSeed : Bool
  scalars   : List Word
  slices    : List SliceRun
  step      : Nat
  gated     : Bool
  nonFinite : Nat
  fault     : Option (Status × Nat) := none
  /-- The areas of memory that the run's MOVEs have read and written (R219). -/
  areas     : List RunArea := []
  deriving DecidableEq, Repr

/-- The STATE field of `SEQ_STATUS`. -/
inductive SeqState where
  | idle | loading | running | finishing | suspending | restoring | stopped
  deriving DecidableEq, Repr

/-- An active loop (R198): the first and last word of its body and the passes left, this one included. -/
structure LoopFrame where
  first : Nat
  last  : Nat
  left  : Nat
  deriving DecidableEq, Repr

/-- One instruction stream (R185, R197): its next word, its scalars, its loops innermost first, whether it has executed
END, and since when it waits in TWAIT. -/
structure Stream where
  pc      : Nat
  scalars : List Word
  loops   : List LoopFrame
  ended   : Bool
  waiting : Option Nat
  deriving DecidableEq, Repr

/-- A stream before any program has run. -/
def Stream.reset : Stream := ⟨0, List.replicate 16 0, [], false, none⟩

/-- A vat operation (R109, R132): its descriptor and where that lay, the seed of its run (R97), the accumulator bank it has (R110), the next
position to be read (R95), whether its initial values have been read, and whether the fill counts of the slice that holds
the next position are already taken (R608). -/
structure VatOp where
  desc    : List Byte
  addr    : Nat
  seed    : BitVec 64
  bank    : Bool
  nextPos : Nat
  loaded  : Bool
  took    : Bool
  /-- The accesses of the cluster's store that the operation comes after, its own among them (R184). -/
  knows   : List Nat := []
  deriving DecidableEq, Repr

/-- A drain whose rows have been read: the bytes it writes, as (store offset, bytes), and the token it then counts; `knows` lists
the accesses of the cluster's store that it comes after (R184). -/
structure VatDrain where
  writes : List (Nat × List Byte)
  token  : Nat
  knows  : List Nat := []
  deriving DecidableEq, Repr

/-- A row operation that has been issued and not completed: its DONE_TOKEN, and the accesses of the cluster's store that it comes
after, its own among them (R184). -/
structure RowOut where
  token : Nat
  knows : List Nat
  deriving DecidableEq, Repr

/-- A vat (R109, R130, R202): its two accumulator banks of 128 × 128 A32 sums with their A22 chunk accumulators, the bank of
the next operation, its accumulating and queued operations, the operations that are summed and not drained, the drains
that have not written, since when it waits for fill counts, and the (run, slice) whose suspended operation it held. -/
structure Vat where
  bank0     : SMap F32
  bank1     : SMap F32
  chunk0    : SMap (BitVec 22)
  chunk1    : SMap (BitVec 22)
  bank      : Bool
  acc       : Option VatOp
  queued    : Option VatOp
  finished  : List VatOp
  draining  : List VatDrain
  waiting   : Option Nat
  suspended : Option (Nat × Nat)
  deriving DecidableEq, Repr

/-- A vat at reset. -/
def Vat.reset : Vat := ⟨[], [], [], [], false, none, none, [], [], none, none⟩

/-- R150: the vector engine's registers: T as 32 × 32 × 32 words, U and V as 8 × 32, M as 4 × 32 × 32 bits, and VLEN. -/
structure VecRegs where
  t : SMap F32
  u : SMap F32
  v : SMap F32
  m : SMap Bool
  rows : Nat
  cols : Nat
  deriving DecidableEq, Repr

/-- The vector engine's registers at program start (R151). -/
def VecRegs.start : VecRegs := ⟨[], [], [], [], 32, 32⟩

/-- A MOVE that has been issued and whose completion is outstanding (R203, R209), with the run and the slice that issued it. -/
structure MoveOut where
  seq       : Nat
  run       : Nat
  slice     : Nat
  doneToken : Nat
  remToken  : Option (Nat × Nat)   -- (cluster, token)
  poison    : Option Nat           -- R280: the detail to report when it read poison
  /-- The accesses of cluster stores that it comes after, its own among them (R184). -/
  knows     : List Nat := []
  deriving DecidableEq, Repr

/-- An access of a cluster store by an engine: its number, its engine (`streamKey`, `rowKey` and `vatKey` number them), the area and
whether it writes (R184). -/
structure Touch where
  op     : Nat
  engine : Nat
  addr   : Nat
  len    : Nat
  write  : Bool
  deriving DecidableEq, Repr

/-- The order of the engines' accesses of cluster stores, which the model keeps to tell what R184 leaves undefined: the number of the next
access, what the slices that run have touched, and the accesses that each stream, engine and token knows to be done. -/
structure StoreOrder where
  next    : Nat
  touches : List Touch
  known   : SMap (List Nat)
  deriving DecidableEq, Repr

/-- A compute cluster. `fault` is the last fault's (pc, stream, code). `holds` is the (context, rank) whose store and stat
memory it holds (R449); `loaded` the program its program store holds. -/
structure Cluster where
  state    : SeqState
  run      : Nat
  slice    : Nat
  count    : Nat
  rank     : Nat
  partition : Nat
  ctx      : Nat
  streams  : List Stream
  tokens   : SMap Nat
  faultPc  : Nat
  faultStream : Nat
  faultCode : Nat
  vats     : List Vat
  vec      : VecRegs
  stat     : SMap (List Byte)      -- R180: entries of 16 bytes; one that is not listed holds 0, or free bytes from `statFree` on
  statFree : Option Nat
  moves    : List MoveOut
  moveSeq  : Nat
  rowOps   : List RowOut           -- row operations issued and not complete, oldest first
  holds    : Option (Nat × Nat)
  loaded   : Option (Nat × Nat)    -- (partition, handle)
  store    : SMap Word             -- program store
  measured : Nat
  spoiled  : Bool                  -- R455: a fault has left the store and stat memory undefined
  deriving DecidableEq, Repr

/-- A cluster at reset. -/
def Cluster.reset : Cluster :=
  ⟨.idle, 0, 0, 0, 0, 0, 0, List.replicate 4 Stream.reset, [], 0, 0, 0, List.replicate 4 Vat.reset, VecRegs.start, [], none,
    [], 0, [], none, none, [], 0, false⟩

/-! ### The network (11_network_fabric.md) -/

/-- An inbound path (R333, R336): its key, the next expected sequence number, its settle count, and the packets
consumed since the last ACK with the wait clock of the first of them (R334). -/
structure InPath where
  srcPkg : Nat
  path   : Nat
  expect : Nat
  settle : Nat
  owed   : Nat
  owedSince : Nat
  ece    : Bool
  deriving DecidableEq, Repr

/-- What an outbound packet carries for a request: the command it belongs to and whether it is that command's last
packet, whether it is a READ_REQ whose answer is awaited. -/
structure OutPkt where
  seq     : Nat
  pkt     : Packet
  cmd     : Option Nat
  last    : Bool
  deriving DecidableEq, Repr

/-- An outbound path (R332, R335, R337): its next SEQ, its unacknowledged packets oldest first, whether the next packet
carries OPEN, the resends in succession without progress, the wait clock of the last progress, its send rate in millionths of
the port's rate (R328), and when that last changed. -/
structure OutPath where
  nextSeq  : Nat
  unacked  : List OutPkt
  open_    : Bool
  resends  : Nat
  since    : Nat
  rate     : Nat
  rateSince : Nat
  deriving DecidableEq, Repr

/-- An outbound path that has sent nothing: the first packet opens it. -/
def OutPath.fresh : OutPath := ⟨0, [], true, 0, 0, 1000000, 0⟩

/-- R325 to R328: the frame that carries a packet out of a port: its MAC addresses, its 802.1Q tag as (VLAN, PCP) if it has one, and
its IP header's DSCP, ECN, Don't Fragment, version and addresses, and its UDP ports; the UDP checksum is 0. -/
structure FrameOut where
  srcMac  : Nat
  dstMac  : Nat
  vlan    : Option (Nat × Nat)
  dscp    : Nat
  ecn     : Nat
  df      : Bool
  ipv6    : Bool
  srcIp   : Nat
  dstIp   : Nat
  srcPort : Nat
  dstPort : Nat
  deriving DecidableEq, Repr

/-- A packet on its way out of the module, the port it leaves on and the frame around it. -/
structure NetOut where
  port  : Nat
  frame : FrameOut
  pkt   : Packet
  deriving DecidableEq, Repr

/-- The kinds of message the module sends over a RoCE queue pair. -/
inductive RoceKind where
  | write | writeImm | readReq | send | ack | rnrNak | invalidNak | accessNak | operationalNak | cnp | readResp
  deriving DecidableEq, Repr

/-- A RoCE message sent by the module: to which queue pair, what, its host address and remote key, its data and the
command it serves. -/
structure RoceMsg where
  qp    : Nat
  kind  : RoceKind
  addr  : Nat
  rkey  : Nat
  len   : Nat
  data  : List Byte
  cmd   : Option Nat
  last  : Bool
  deriving DecidableEq, Repr

/-- One packet of a RoCE message on its way out (R325, R327, R328, R355): its port and frame, its partition key, whether its invariant
CRC is the standard's, its place in the message, and the piece of the message that it carries. -/
structure RoceOut where
  port  : Nat
  frame : FrameOut
  pkey  : Nat
  icrc  : Bool
  first : Bool
  final : Bool
  piece : RoceMsg
  deriving DecidableEq, Repr

/-- A RoCE queue pair (R355, R356): the command queue bound to it, its epoch, its rate in millionths, its outstanding
messages oldest first, its retries, and whether an RNR NAK holds it back. -/
structure QueuePair where
  queue   : Option Nat
  everBound : Bool
  epoch   : Nat
  settle  : Nat
  rate    : Nat
  out     : List RoceMsg
  retries : Nat
  rnrHeld : Bool
  deriving DecidableEq, Repr

/-- A queue pair at reset. -/
def QueuePair.reset : QueuePair := ⟨none, false, 0, 0, 1000000, [], 0, false⟩

/-- A remote read: its command, for whom it reads, where its data goes, how much has come, and its message number (R339). A read that
ended POISONED stays, its command gone, for the data already on its way. -/
structure ReadOut where
  cmd    : Nat
  who    : Option Nat
  pkg    : Nat
  path   : Nat
  msg    : Nat
  base   : Nat
  len    : Nat
  got    : Nat
  deriving DecidableEq, Repr

/-! ### Beat, power and supply (15_beat_power.md) -/

/-- The beat unit: the counter (R460), BEAT_LOST (R468), PTP lock, whether the next accepted edge resynchronises (R465),
the edges a negative correction still holds, the missing pulses since the last accepted edge, the qualifying edges of
R470, whether an edge has been accepted since reset, and the counted beats of R462, on which every wait is timed. -/
structure Beat where
  count     : Nat
  lost      : Bool
  synced    : Bool
  ptpLock   : Bool
  resyncDue : Bool
  holdLeft  : Nat
  missing   : Nat
  qualifying : Nat
  anyEdge   : Bool
  waits     : Nat
  deriving DecidableEq, Repr

/-- The beat unit at reset. -/
def Beat.reset : Beat := ⟨0, false, false, false, false, 0, 0, 0, false, 0⟩

/-- A partition's allowance and balance in the ledger (R481 to R483); `rate` is computed from its running slices. -/
structure PartPower where
  set     : Option Nat
  eff     : Nat
  balance : Int
  deriving DecidableEq, Repr

/-- A partition in the ledger at reset. -/
def PartPower.reset : PartPower := ⟨none, 0, 0⟩

/-- The power ledger: B in microjoules (R478), M_eff (R477), the programmed allowance and those awaiting the next close (R486), the
ledger closes since reset, the counted beats of the running window and whether a close has fallen due (R475), the PWR_WARN_N
pin, its warning and cut with the whole windows since its release (R488, R489), power hold (R479), the thermal cap and whether
the 100 °C latch of R490 holds, the measured energy that does not yet make a credit, in microjoules, the partitions, and the
corrections of slices that wait for a close that is due (R476). -/
structure Power where
  balance    : Int
  meff       : Nat
  programmed : Option Nat
  nextProgrammed : Option Nat
  nextSets   : List (Nat × Option Nat)
  closes     : Nat
  windowBeats : Nat
  closeDue   : Bool
  pin        : Bool
  warn       : Bool
  cut        : Bool
  wholeWindows : Nat
  pinInWindow : Bool
  hold       : Bool
  thermalCap : Nat
  hot        : Bool
  energy     : Nat
  tileEnergy : List Nat
  parts      : SMap PartPower
  corrections : List (Nat × Int)
  deriving DecidableEq, Repr

/-- The ledger at reset. -/
def Power.reset : Power :=
  ⟨0, 1536, none, none, [], 0, 0, false, false, false, false, 0, false, false, 4352, false, 0, [0, 0, 0, 0], [], []⟩

/-- The readings of the supply monitor and the sensors (R474, R609): input voltage in 10 mV, current in 10 mA, power in W,
coolant inlet in 0.1 °C and flow in 0.01 L/min, the hottest junction, and the 26 junctions in 0.1 °C in the order of R609. -/
structure Readings where
  voltage : Nat
  current : Nat
  power   : Nat
  inlet   : Nat
  flow    : Nat
  hottest : Nat
  junctions : List Nat
  deriving DecidableEq, Repr

/-! ### Security (18_security_boot.md) -/

/-- A firmware bank (R556, R557): whether its fields, its key digest and its signature pass, and what it carries. -/
structure Bank where
  fieldsOk : Bool
  keyOk    : Bool
  sigOk    : Bool
  floor    : Nat
  version  : Nat
  digest   : List Byte
  deriving DecidableEq, Repr

/-- A boot record copy (R555). -/
structure BootRecord where
  crcOk      : Bool
  generation : Nat
  active     : Nat
  trial      : Bool
  previous   : Nat
  deriving DecidableEq, Repr

/-- A key-slot copy (R555): eight slots, each empty or a CONFIRM public key. -/
structure KeySlots where
  crcOk      : Bool
  generation : Nat
  slots      : List (Option (List Byte))
  deriving DecidableEq, Repr

/-- R554: the boot configuration; the management port's settings are address, prefix length and gateway (R590). -/
structure BootConfig where
  attach  : AttachParams
  pkgId   : Nat
  ptpCfg  : Nat
  pwrCfg  : Nat
  milPool : List (Nat × Nat)    -- (FirstGiB, CountGiB) of mills 0 to 3
  mgmtIp  : Nat × Nat × Nat     -- ManagementIPv4: Address, PrefixLength, Gateway
  deriving DecidableEq, Repr

/-- An open proposal (R564): its number, kind, change record, refusals, the wait clock when its command completed, and
the queue of that command. -/
structure Proposal where
  number  : Nat
  kind    : Nat
  record  : List Byte
  refused : Nat
  since   : Nat
  deriving DecidableEq, Repr

/-- What the flash and the fuses hold, and what the last boot recorded (R554, R558). `staged` is the bank whose image was staged
and found valid since reset; `nonce`, `runDigest` and `runVersion` are BOOT_NONCE and the running image's digest and version. -/
structure Security where
  bootRecs  : List BootRecord
  keyCopies : List KeySlots
  banks     : List Bank
  config    : BootConfig
  fusedFloor : Nat
  bank      : Nat
  fallback  : Bool
  staged    : Option Nat
  pendingCommit : Bool
  nonce     : Nat
  runDigest : List Byte
  runVersion : Nat
  attached  : Bool
  proposals : List (Option Proposal)
  nextProposal : Nat
  keysDigest : List Byte
  configDigest : List Byte
  deriving DecidableEq, Repr

/-! ### Management (19_electrical_mechanical.md) -/

/-- A value of a Redfish property. -/
inductive JVal where
  | str (s : String)
  | num (n : Int)
  | bool (b : Bool)
  | link (uri : String)
  /-- The decimal fraction `n / scale`. -/
  | dec (n scale : Nat)
  /-- A date and time: PTP time in microseconds. -/
  | time (us : Nat)
  deriving DecidableEq, Repr

/-- R592: a message of the management service: its id, whether its severity is Critical, and its arguments. -/
structure MgmtMsg where
  id       : String
  critical : Bool
  args     : List String
  stamp    : Option Nat
  deriving DecidableEq, Repr

/-- A message on its way to one subscription, and the retries made (R591). -/
structure Delivery where
  sub     : Nat
  msg     : MgmtMsg
  retries : Nat
  deriving DecidableEq, Repr

/-- An event subscription (R591). -/
structure Subscription where
  destination : String
  context     : String
  deriving DecidableEq, Repr

/-- The answer to a request on the management port: the HTTP status, its message id if any, and its properties. -/
structure HttpReply where
  code  : Nat
  error : String
  body  : List (String × JVal)
  deriving DecidableEq, Repr

/-- What an SMBus read returned (R585): the bytes in order, or none for a NACK. -/
structure SmbusReply where
  data : Option (List Byte)
  deriving DecidableEq, Repr

/-- The management service's state; `ipv4` is the address, prefix length and gateway that the last boot applied (R587, R590). -/
structure Mgmt where
  subs      : List (Option Subscription)
  faultLog  : List MgmtMsg
  queue     : List Delivery
  fatalSeen : Bool
  http      : Option HttpReply
  smbus     : Option SmbusReply
  ipv4      : Nat × Nat × Nat
  deriving DecidableEq, Repr

/-- The management service at power-up. -/
def Mgmt.reset : Mgmt := ⟨[none, none, none, none], [], [], false, none, none, (0, 0, 0)⟩

/-- A network port (R324, R325, R344, R345, R349): whether it carries frames, is retraining and since when, its locked lanes, the
wait clocks at which its retrains started, when it last sent a PROBE, whether priority flow control pauses it and the packets
that it then holds, and whether it is declared failed. -/
structure Port where
  up         : Bool
  retraining : Option Nat
  lanes      : List Bool
  retrains   : List Nat
  probeSince : Nat
  paused     : Bool
  held       : List Packet
  failed     : Bool
  heldRoce   : List RoceOut
  deriving DecidableEq, Repr

/-- A port at reset: not yet trained. -/
def Port.reset : Port := ⟨false, none, [false, false, false, false], [], 0, false, [], false, []⟩

/-! ### Exchanges (08_experts_sequence.md) -/

/-- An exchange request: the cluster whose MOVE wrote the doorbell line, with the run, the slice and the rank it served, its
partition and its run's seed; that MOVE's number where the model knows it, and the 128 B written (R242). -/
structure ExchReq where
  cluster : Nat
  move    : Option Nat
  desc    : List Byte
  run     : Nat
  slice   : Nat
  rank    : Nat
  partition : Nat
  seed    : BitVec 64
  deriving DecidableEq, Repr

/-- An exchange that has started and whose completion is outstanding (R246): whether it is a RECEIVE still waiting for
`expect` records, and since when (R247, R251), and whether it has sent anything to another module. -/
structure ExchRun where
  req     : ExchReq
  partition : Nat
  exchId  : Nat
  kind    : Nat
  srcIdx  : Nat
  expect  : Nat
  receive : Bool
  since   : Nat
  remote  : Bool
  deriving DecidableEq, Repr

/-- Records that have arrived at a tile before their RECEIVE (R251), matched by partition, EXCH_ID, kind and, for return
records, the source index. -/
structure ExchHeld where
  partition : Nat
  exchId  : Nat
  kind    : Nat
  srcIdx  : Nat
  count   : Nat
  deriving DecidableEq, Repr

/-- A tile's exchange engine: its queue, the doorbell writes held while that is full (R245), the running exchanges and the
held records. -/
structure ExchEngine where
  queue   : List ExchReq
  held    : List ExchReq
  running : List ExchRun
  records : List ExchHeld
  deriving DecidableEq, Repr

/-- An exchange engine at reset. -/
def ExchEngine.reset : ExchEngine := ⟨[], [], [], []⟩

/-- A record or row that an exchange has sent to another module (R249, R252, R256): the target module and tile, and what
arrives there. -/
structure ExchSend where
  pkg  : Nat
  tile : Nat
  rec_ : ExchRecord
  deriving DecidableEq, Repr

/-! ### Gradient clearing (12_clearing.md) -/

/-- The values of a wire block: a leaf's sent entries as (element, E4M3 code) under a scale code, or a partial's 256 A32
values, none when every one is zero (R373). -/
inductive ClrValues where
  | leaf (scale : Nat) (entries : List (Nat × Nat))
  | node (values : List F32)
  deriving DecidableEq, Repr

/-- A wire block of a contribution (R373). -/
structure ClrBlock where
  index     : Nat
  amax      : F32
  nonFinite : Bool
  values    : ClrValues
  deriving DecidableEq, Repr

/-- What a CLOSE_UP carries (R372). -/
structure ClrClose where
  due     : Nat
  weight  : Nat
  present : Nat
  bitmap  : Nat
  deriving DecidableEq, Repr

/-- What one child has sent for a step: its member rank, its probe maxima by block, its staged blocks and its close. -/
structure ClrChild where
  rank   : Nat
  maxima : List (Nat × F32)
  blocks : List ClrBlock
  close  : Option ClrClose
  deriving DecidableEq, Repr

/-- A step slot of a node (R372), and the DUE its close beat counts from (R380). -/
structure ClrNode where
  step     : Nat
  due      : Option Nat
  children : List ClrChild
  deriving DecidableEq, Repr

/-- A result block that has arrived before its roll (R376): its index, its par code and its values' bytes. -/
structure ClrDown where
  index : Nat
  par   : Nat
  data  : List Byte
  deriving DecidableEq, Repr

/-- A roll that has arrived for a step to which this member has not contributed (R367): what a contribution to that step then
answers. -/
structure ClrRoll where
  step    : Nat
  present : Nat
  divisor : Nat
  deriving DecidableEq, Repr

/-- R367: the states of a member's part in a bucket. -/
inductive ClrState where
  | idle | probe | wait | excluded | failed
  deriving DecidableEq, Repr

/-- A member's own BUCKET_CONTRIBUTE in progress: the command, its DUE and the wait clock when the beat counter reached it
(R367), its WEIGHT, the seed in force at its acceptance (R369), whether its step is a probe step, the maxima of R385 and
whether they have been passed up, its encoded blocks once it has encoded (none of them when R389 holds its data back), the
detail of R389, and in replay the record's members, KIND and DUE (R387). -/
structure ClrOwn where
  cmd    : Nat
  due    : Nat
  dueAt  : Option Nat
  weight : Nat
  seed   : BitVec 64
  probe  : Bool
  maxima : List F32
  probed : Bool
  blocks : Option (List ClrBlock)
  poison : Option Nat
  replay : Option (Nat × Nat × Nat)
  deriving DecidableEq, Repr

/-- A bucket of a job (R364, R366, R367): its slot in the register block, its areas, its state, its next step, whether its
last step has ended (R605), the lowest step its node has not closed, the result blocks that wait for their roll, and the
rolls that wait for a contribution. -/
structure ClrBucket where
  slot     : Nat
  src      : Nat
  bf16     : Bool
  elements : Nat
  result   : Nat
  reserve  : Nat
  par      : Nat
  stage    : Nat
  state    : ClrState
  parSet   : Bool
  nextStep : Nat
  spent    : Bool
  gather   : Nat
  own      : Option ClrOwn
  nodes    : List ClrNode
  down     : List ClrDown
  rolls    : List ClrRoll
  deriving DecidableEq, Repr

/-- An open clearing job (R358); `table` is the address of its bucket table. -/
structure ClrJob where
  id        : Nat
  table     : Nat
  ctx       : Nat
  partition : Nat
  axes      : Nat
  fanin     : Nat
  rotate    : Bool
  density   : Nat
  wireSr    : Bool
  divMode   : Nat
  bf16      : Bool
  mode      : Nat
  hop       : Nat
  firstStep : Nat
  rollRing  : Nat
  rollEntries : Nat
  rollSrc   : Nat
  rollSrcEntries : Nat
  sig       : Nat
  buckets   : List ClrBucket
  deriving DecidableEq, Repr

/-! ### Ingest (16_ingest_video.md) -/

/-- Where a feed stands: without a slot (R513), waiting to be decoded, started on the mill with its decode skipped or not
(R506), or posted at an entry of the partition's core ring (R520). -/
inductive FeedStage where
  | waiting
  | started (skipped : Bool)
  | posted (entry : Nat)
  deriving DecidableEq, Repr

/-- An accepted feed (R502 to R505, R513): its number since reset, its command, its place among its stream's feeds, its data,
its capture stamp, the fill and slot it has taken, whether the core side decodes it, and where it stands. -/
structure Feed where
  number  : Nat
  cmd     : Nat
  index   : Nat
  ticket  : Nat
  src     : Nat
  len     : Nat
  capture : Nat
  slot    : Option (Nat × Nat)
  core    : Bool
  stage   : FeedStage
  deriving DecidableEq, Repr

/-- A stream (R499, R523). `corrupt` lists the stream's pictures that R509 counts as corrupt, `access` whether a random
access point has been reached. `side` is the side last asked for, which holds from fill `activeFill` on; `active` is the side
before that (R519). `fed` holds the data of the feeds decoded so far (R495), `coded` the pictures encoded so far with the qps of
their block rows (R526). -/
structure MilStream where
  encode   : Bool
  codec    : Nat
  live     : Bool
  subframe : Bool
  priority : Nat
  partition : Nat
  ctx      : Nat
  closing  : Bool
  batch    : Nat
  pages    : Nat
  stale    : Nat
  maxW     : Nat
  maxH     : Nat
  initQp   : Nat
  rate     : Nat
  outRing  : Nat
  qp       : Nat
  frames   : Nat
  pictures : Nat
  lastCapture : Option Nat
  feeds    : List Feed
  nextIndex : Nat
  access   : Bool
  corrupt  : List Nat
  side     : Bool
  active   : Bool
  activeFill : Nat
  rows     : Nat
  fed      : List (List Byte)
  coded    : List (List Nat × List Nat)
  deriving DecidableEq, Repr

/-- One slot's entry of a batch record (R516). -/
structure SlotEntry where
  reason  : Nat
  side    : Bool
  stream  : Nat
  ticket  : Nat
  capture : Nat
  width   : Nat
  height  : Nat
  order   : Nat
  detail  : Nat
  deriving DecidableEq, Repr

/-- An armed fill (R510, R512, R515): its number, shape and areas, its command, how many slots are taken, the resolved slots,
and whether a CLOSE has ended it (R517). -/
structure Fill where
  number : Nat
  slots  : Nat
  bytes  : Nat
  dest   : Nat
  record : Nat
  cmd    : Nat
  taken  : Nat
  done   : SMap (Option SlotEntry)
  closed : Bool
  deriving DecidableEq, Repr

/-- A batch (R511). -/
structure Batch where
  partition : Nat
  fills     : List Fill
  nextFill  : Nat
  deriving DecidableEq, Repr

/-- An encoded unit that waits to be written (R528). -/
structure EncUnit where
  stream  : Nat
  feed    : Nat
  unit    : Nat
  last    : Bool
  key     : Bool
  picture : Nat
  capture : Nat
  bytes   : List Byte
  deriving DecidableEq, Repr

/-- A frame that a mill's decode engines hold: its stream and feed, the bytes it has in the wort buffer, its cropped size, the Y block
rows of its sample that have been written (R522), and the outcome of its parse once the checks of R507 have passed it and its rows are
to be written one at a time. -/
structure Decoding where
  stream  : Nat
  feed    : Nat
  wort    : Nat
  width   : Nat
  height  : Nat
  written : Nat
  judged  : Option FrameResult := none
  deriving DecidableEq, Repr

/-- A mill: the frames its decode engines hold, oldest first; the units its encode pipeline holds; and the wort buffer's occupancy and
peak. -/
structure Mill where
  decoding : List Decoding
  units    : List EncUnit
  wort     : Nat
  peak     : Nat
  deriving DecidableEq, Repr

/-- A mill at reset. -/
def Mill.reset : Mill := ⟨[], [], 0, 0⟩

/-! ### The state -/

/-- A range of memory whose contents are undefined: the byte at offset `i` is the free byte numbered `seed + i` (log entry 5). -/
structure Undef where
  lo   : Nat
  len  : Nat
  seed : Nat
  deriving DecidableEq, Repr

/-- The module's state, and the queue of the commands that are waiting. -/
structure State where
  /-- The commands that are waiting, first in, first out. -/
  pending   : List Instr
  /-- The model's own count of free values taken (log entry 5). -/
  free      : Nat
  /-- The answer to the last register access, and the read data: the model's own output. -/
  reply     : Option Reply
  phase     : Phase
  dies      : List Die
  /-- R585: the value of the pins GA2:GA0, an open one reading 1. -/
  ga        : Fin 8
  /-- R585: the slave address that the SMBus master sends in the transfer that an SMBus row stands for: an input that no row changes. -/
  smbusDest : BitVec 7
  /-- R25: the consecutive replays of the flit each join is sending. -/
  joinRuns  : SMap Nat
  /-- R26: the first join declared failed since reset. -/
  failedJoin : Option Nat
  regs      : SMap Word
  -- memory and coherence
  mem       : SMap Byte
  /-- The ranges that the spec has left undefined and nothing has written since: disjoint, and no byte of `mem` lies in one. -/
  undef     : List Undef
  poison    : SMap Bool
  bitErrs   : SMap Nat
  inject    : SMap (Nat × Nat)
  unitDown  : SMap Bool
  corr      : SMap (List CorrEntry)
  reports   : SMap ReportQueue
  retired   : SMap (List Nat)
  cellar    : SMap (Option CelLine)
  dir       : SMap (Option DirEntry)
  dirOrder  : Nat
  txns      : List Txn
  homeQueue : SMap (List CohReq)
  reserved  : SMap (List CohReq)
  reservations : SMap (Option Nat)
  copies    : List Copy
  outstanding : List Outstanding
  cohOut    : List CohOut
  /-- R313, the model's own: of a line that the module's engines access, the detail with which the last such access was answered
  POISONED because a failed agent owned it; 0 when it was served. -/
  lost      : SMap Nat
  -- commands
  queues    : SMap Queue
  cmds      : List Cmd
  nextCmd   : Nat
  results   : List Kept
  -- partitions, contexts, runs
  parts     : SMap Partition
  ctxs      : SMap Context
  programs  : List Program
  runs      : List Run
  nextRun   : Nat
  wideHold  : SMap (Option (Nat × Nat))
  clusters  : SMap Cluster
  order     : StoreOrder
  -- events
  holdPending : List Nat
  -- exchanges
  exch      : SMap ExchEngine
  exchOut   : List ExchSend
  /-- The records for other modules that wait until the transport sends (R341, R351). -/
  exchWait  : List ExchSend
  -- clearing and ingest
  clr       : List ClrJob
  streams   : SMap (Option MilStream)
  batches   : SMap (Option Batch)
  nextFeed  : Nat
  mills     : SMap Mill
  -- network
  inPaths   : SMap (Option InPath)
  outPaths  : SMap OutPath
  /-- R342: the epoch that a tile has recorded of a source package, by 65,536 × tile + package. -/
  epochs    : SMap (Option Nat)
  rkeyTags  : SMap Nat
  ports     : SMap Port
  qps       : SMap QueuePair
  reads     : List ReadOut
  nextMsg   : Nat
  netOut    : List NetOut
  /-- R346: the packets for the module's own package ID, oldest first, that have not been consumed yet. -/
  loopback  : List Packet
  roceOut   : List RoceOut
  -- beat, power, security, management
  beat      : Beat
  power     : Power
  readings  : Readings
  sec       : Security
  mgmt      : Mgmt
  deriving DecidableEq, Repr

/-- The straps of a PT-900-A on substrate revision 0 at the baseline steppings (R27, R29, R39; log entry 2). -/
def Die.reset (pos : Nat) : Die :=
  let site := if pos < 8 then pos % 4 else pos - 4
  let kind := if pos < 4 then 0 else if pos < 8 then 1 else 2
  ⟨true, BitVec.ofNat 16 (site + 8 * kind + 0x20 * 0x11), if pos < 8 then 1#8 else 0#8⟩

/-- The boot configuration of the flash at first: queue 0 local with a ring of 1,024 slots at address 0 and its
completion ring after it (log entry 3). -/
def BootConfig.factory : BootConfig :=
  { attach := ⟨0, false, 0, 0, 10, 1#32, 0#44, 0x10000#64, 0#16, 0#12, 0#32, 0#40⟩
    pkgId := 0xFFFF, ptpCfg := 0, pwrCfg := 4096 * 65536 + 4
    milPool := [(0, 0), (0, 0), (0, 0), (0, 0)], mgmtIp := (0, 0, 0) }

/-- The flash and fuses at first: bank 0 holds a valid image of version 1 and floor 0, bank 1 none, no key slot is in use
(log entry 3). -/
def Security.factory : Security :=
  { bootRecs := [⟨true, 1, 0, false, 0⟩, ⟨true, 1, 0, false, 0⟩]
    keyCopies := [⟨true, 1, List.replicate 8 none⟩, ⟨true, 1, List.replicate 8 none⟩]
    banks := [⟨true, true, true, 0, 1, List.replicate 64 0⟩, ⟨false, false, false, 0, 0, List.replicate 64 0⟩]
    config := BootConfig.factory
    fusedFloor := 0, bank := 0, fallback := false, staged := none, pendingCommit := false, nonce := 0, runDigest := [], runVersion := 0
    attached := false
    proposals := List.replicate 16 none, nextProposal := 1, keysDigest := [], configDigest := [] }

/-- The module right after its supply has come up: 42 V present, MOD_RESET_N asserted, every register at its reset
value, memory with nothing listed, no command waiting. -/
def State.reset : State :=
  { pending := [], free := 0, reply := none, phase := .held, dies := (List.range 10).map Die.reset, ga := 7, smbusDest := 0x5F
    joinRuns := [], failedJoin := none, regs := []
    mem := [], undef := [], poison := [], bitErrs := [], inject := [], unitDown := [], corr := [], reports := [], retired := []
    cellar := [], dir := [], dirOrder := 0, txns := [], homeQueue := [], reserved := [], reservations := []
    copies := [], outstanding := [], cohOut := [], lost := []
    queues := [], cmds := [], nextCmd := 1, results := []
    parts := [], ctxs := [], programs := [], runs := [], nextRun := 1, wideHold := [], clusters := [], order := ⟨0, [], []⟩
    holdPending := [], exch := [], exchOut := [], exchWait := []
    clr := [], streams := [], batches := [], nextFeed := 1, mills := []
    inPaths := [], outPaths := [], epochs := [], rkeyTags := [], ports := [], qps := [], reads := [], nextMsg := 0
    netOut := [], loopback := [], roceOut := []
    beat := Beat.reset, power := Power.reset
    readings := ⟨0, 0, 0, 0, 0, 0, List.replicate 26 0⟩
    sec := Security.factory, mgmt := Mgmt.reset }

end Sys2Proof.Machine
end

