-- ==== Sys2Proof/Machine/Flags.lean ====
section
/-!
DEFINITION. The register file and the flags and counters in it: reading and writing a kept register, setting a
write-1-to-clear flag, and the saturating counters with their OVERFLOWED flags.
-/
namespace Sys2Proof.Machine

/-- The kept bits of a register. `State.regs` holds them as the difference from the reset value, so that a register at
its reset value is not listed. -/
def getReg (s : State) (k : RegKind) (site i : Nat) (j : Nat := 0) : Word :=
  mapGet (fun _ => 0) s.regs (regAddr k site i j) ^^^ BitVec.ofNat 64 (regLayout k).reset

/-- A register's kept bits replaced. -/
def setReg (s : State) (k : RegKind) (site i : Nat) (w : Word) (j : Nat := 0) : State :=
  { s with regs := mapSet (fun _ => 0) s.regs (regAddr k site i j) (w ^^^ BitVec.ofNat 64 (regLayout k).reset) }

/-- One flag of a register set to 1. -/
def setFlag (s : State) (k : RegKind) (site i bit : Nat) : State :=
  setReg s k site i (setBits (getReg s k site i) bit 1 1)

/-- A field of a register replaced. -/
def setField (s : State) (k : RegKind) (site i lo n v : Nat) : State :=
  setReg s k site i (setBits (getReg s k site i) lo n v)

/-- A counter word after `n` more: the low `w` bits count and stick at their top, where bit 63 is set (chapter 20,
saturating counters). -/
def countWord (w : Nat) (c : Word) (n : Nat) : Word :=
  let v := getBits c 0 w + n
  if 2 ^ w - 1 ≤ v then setBits (setBits c 0 w (2 ^ w - 1)) 63 1 1 else setBits c 0 w v

/-- A 63-bit counter after `n` more events. -/
def count (s : State) (k : RegKind) (site i : Nat) (n : Nat := 1) (j : Nat := 0) : State :=
  setReg s k site i (countWord 63 (getReg s k site i j) n) j

/-- R10: the value of a register after a write of `v` acts on the fields listed. -/
def writeFields (old v : Word) : List Field → Word
  | [] => old
  | f :: fs =>
    let n := f.hi + 1 - f.lo
    match f.acc with
    | .rw => writeFields (setBits old f.lo n (getBits v f.lo n)) v fs
    | .w1c =>
      let keep := getBits old f.lo n &&& ((2 ^ n - 1) ^^^ getBits v f.lo n)
      writeFields (setBits old f.lo n keep) v fs

/-- R12: the fields that lie wholly within the half of a register that a 32-bit write covers. -/
def halfFields (high : Bool) (fs : List Field) : List Field :=
  fs.filter (fun f => if high then decide (32 ≤ f.lo) else decide (f.hi < 32))

end Sys2Proof.Machine
end

