-- ==== Sys2Proof/Machine/Events.lean ====
section
/-!
DEFINITION. Raising events (17_events_audit.md) and sending messages of the management service (R591, R592).
-/
namespace Sys2Proof.Machine

/-- R531: local source `n` of tile `t`. -/
def tileSrc (t n : Nat) : Nat := 256 * t + n

/-- R531: forwarded source at offset `o` of the core die at a site. -/
def coreSrc (site o : Nat) : Nat := 256 * (2 * (site - 4)) + 192 + o

/-- R591, R592: one message sent to every subscription. -/
def postMgmt (s : State) (msg : MgmtMsg) : State :=
  let subs := (List.range 4).filter (fun i => (s.mgmt.subs.getD i none).isSome)
  { s with mgmt := { s.mgmt with queue := s.mgmt.queue ++ subs.map (fun i => ⟨i, msg, 0⟩) } }

/-- R592: a message as it stands now. -/
def mgmtMsg (s : State) (id : String) (critical : Bool) (args : List String) : MgmtMsg :=
  ⟨id, critical, args, if s.beat.synced then some s.beat.count else none⟩

/-- R588, R591, R592: one message sent to every subscription, and entered in the fault log when its severity is Critical. -/
def sendMgmt (s : State) (id : String) (critical : Bool) (args : List String) : State :=
  let msg := mgmtMsg s id critical args
  let s := postMgmt s msg
  if critical then { s with mgmt := { s.mgmt with faultLog := (msg :: s.mgmt.faultLog).take 64 } } else s

/-- R592: the counter argument of an EventSource message. -/
def counterArg (c : Nat) (cut : Bool) : String := toString c ++ (if cut then "+" else "")

/-- R532: the join sources of tile 0 are fatal. -/
def isFatal (src : Nat) : Bool := decide (36 ≤ src ∧ src ≤ 49)

/-- PENDING of a source (R533). -/
def isPending (s : State) (src : Nat) : Bool :=
  natBit (getReg s .evtPend (src / 256) (src % 256 / 64)).toNat (src % 64)

/-- A source's PENDING bit set or cleared. -/
def setPending (s : State) (src : Nat) (b : Bool) : State :=
  setField s .evtPend (src / 256) (src % 256 / 64) (src % 64) 1 (boolNat b)

/-- R533: a source's counter one higher, saturating at 255 with OVERFLOWED. -/
def bumpSource (s : State) (src : Nat) : State :=
  let w := getReg s .evtSrcCount (src / 256) (src % 256)
  let c := getBits w 0 8
  setReg s .evtSrcCount (src / 256) (src % 256)
    (if 254 ≤ c then setBits (setBits w 0 8 255) 8 1 1 else setBits w 0 8 (c + 1))

/-- R533, R532: one raise of an event source. -/
def raiseEvent (s : State) (src : Nat) : State :=
  let s := setPending (bumpSource s src) src true
  if isFatal src then
    let w := getReg s .evtSrcCount (src / 256) (src % 256)
    let s := sendMgmt s "Freldo.1.0.EventSource" true
      [toString src, counterArg (getBits w 0 8) (natBit w.toNat 8), toString s.beat.count]
    { s with mgmt := { s.mgmt with fatalSeen := true } }
  else s

/-- Several raises, in order. -/
def raiseEvents (s : State) (srcs : List Nat) : State := srcs.foldl raiseEvent s

/-- R533: "saturates at 255 and then sets OVERFLOWED"; a read or a delivery returns the word and clears it. -/
def takeCount (s : State) (src : Nat) : Word × State :=
  (getReg s .evtSrcCount (src / 256) (src % 256), setReg s .evtSrcCount (src / 256) (src % 256) 0)

end Sys2Proof.Machine
end

