-- ==== Sys2Proof/Machine/Memory.lean ====
section
/-!
DEFINITION. Memory: the address map (R258), the stacks and channels with their error correction and poison (R261 to R290),
the cellar (R291 to R293), the directory's entries (R298), and who may reach what (R211, R259, R432).
-/
namespace Sys2Proof.Machine

/-! ### The address map -/

/-- An address of HBM (R258). -/
def inHbm (a : Nat) : Bool := decide (a < 0x14000000000)

/-- An address of the capacity tier's range. -/
def inCap (a : Nat) : Bool := decide (0x40000000000 ≤ a ∧ a < 0x50000000000)

/-- An address of a cluster store window. -/
def inStore (a : Nat) : Bool := decide (0x80000000000 ≤ a ∧ a < 0x80040000000)

/-- An address of the control space. -/
def inControl (a : Nat) : Bool := decide (0xF0000000000 ≤ a ∧ a < 0xF6000000000)

/-- The tile whose HBM range holds the address. -/
def hbmTile (a : Nat) : Nat := a / 0x5000000000

/-- The SKU of the strap word at position 8 (R27). -/
def skuOf (s : State) : Nat := ((s.dies.getD 8 ⟨false, 0, 0⟩).strap.toNat / 32) % 64

/-- R46: the capacity tier is present on PT-900-A and PT-900-B. -/
def capPresent (s : State) : Bool := skuOf s == 0x11 || skuOf s == 0x12

/-- R46: the mills are present on PT-900-A. -/
def millPresent (s : State) : Bool := skuOf s == 0x11

/-- HBM, or a capacity tier that is present: the memory that PLACE, firmware and two-key records may name. -/
def isMemory (s : State) (a : Nat) : Bool := inHbm a || (inCap a && capPresent s)

/-- A range lies wholly in one of HBM and the capacity tier. -/
def rangeIsMemory (s : State) (a n : Nat) : Bool :=
  n == 0 || (isMemory s a && isMemory s (a + n - 1) && (inHbm a == inHbm (a + n - 1)))

/-- R271: the home tile of an address of HBM or of the capacity tier. -/
def homeOf (s : State) (a : Nat) : Nat :=
  if inHbm a then hbmTile a
  else
    let o := a - 0x40000000000
    let h := (getReg s .capHome 4 (o / 2 ^ 30)).toNat
    if natBit h 2 then h % 4 else o / 4096 % 4

/-- R261: the stack of a tile that holds an address of its HBM range. -/
def stackOf (s : State) (a : Nat) : Nat :=
  let t := hbmTile a
  let o := a - t * 0x5000000000
  let s0 := o / 0x1400000000
  let w := o % 0x1400000000
  if natBit (getReg s .memCfg t 0).toNat 0 then (s0 + w / 2 ^ 12 % 4 + w / 2 ^ 20 % 4 + w / 2 ^ 28 % 4) % 4 else s0

/-- The memory unit that holds an address: stack s of tile t is 4t + s, capacity-tier channel c is 16 + c (R270). -/
def unitOf (s : State) (a : Nat) : Nat :=
  if inHbm a then 4 * hbmTile a + stackOf s a else 16 + (a - 0x40000000000) / 256 % 16

/-- R261: the byte offset of an HBM address within its stack. -/
def stackOffset (s : State) (a : Nat) : Nat :=
  let t := hbmTile a
  let o := a - t * 0x5000000000
  let w := o % 0x1400000000
  if natBit (getReg s .memCfg t 0).toNat 0 then o / 0x1400000000 * 0x500000000 + w / 2 ^ 14 * 0x1000 + w % 2 ^ 12 else w

/-- R261: the channel of its stack that holds an HBM address. -/
def hbmChannel (s : State) (a : Nat) : Nat :=
  let off := stackOffset s a
  off / 256 % 16 + 16 * ((off / 2 ^ 12 + off / 2 ^ 20) % 2)

/-- R261: the pseudo-channel of its channel that holds an HBM address. -/
def hbmPseudo (s : State) (a : Nat) : Nat := stackOffset s a / 128 % 2

/-- R270: the byte offset of a capacity-tier address within its channel. -/
def channelOffset (a : Nat) : Nat :=
  let o := a - 0x40000000000
  o / 4096 * 0x100 + o % 256

/-- The number of a memory unit. -/
def unitIndex : MemUnit → Nat
  | .stack t st => 4 * t.val + st.val
  | .channel c => 16 + c.val

/-- R280: the detail code of a memory unit's poison. -/
def unitPoison (s : State) (a : Nat) : Nat := 0x2600 + unitOf s a

/-- R280, R313: the detail code that reports poison at an address: its unit's, or the home's where the last access was answered
for a failed owner. -/
def poisonDetail (s : State) (a : Nat) : Nat :=
  match mapGet (fun _ => 0) s.lost (a / 128) with
  | 0 => unitPoison s a
  | d => d

/-- The site whose registers report a unit. -/
def unitSite (u : Nat) : Nat := if u < 16 then u / 4 else 4 + (u - 16) / 8

/-- A unit's index at its site. -/
def unitLocal (u : Nat) : Nat := if u < 16 then u % 4 else (u - 16) % 8

/-- R531: the event source of a unit. -/
def unitSrc (u : Nat) : Nat :=
  if u < 16 then tileSrc (u / 4) (16 + u % 4) else coreSrc (unitSite u) (2 + unitLocal u)

/-! ### Bytes -/

/-- What an address reads as that memory does not list: a free byte where the contents are undefined, else 0 (log entries 4 and
5). -/
def unlisted : List Undef → Nat → Byte
  | [], _ => 0
  | r :: t, a => if r.lo ≤ a ∧ a < r.lo + r.len then Config.freeByte (r.seed + (a - r.lo)) else unlisted t a

/-- Undefined ranges without the `n` addresses from `lo` on. -/
def cutUndef (lo n : Nat) : List Undef → List Undef
  | [] => []
  | r :: t =>
    let cut := max r.lo (lo + n)
    (if r.lo < lo then [⟨r.lo, min r.len (lo - r.lo), r.seed⟩] else [])
      ++ (if cut < r.lo + r.len then [⟨cut, r.lo + r.len - cut, r.seed + (cut - r.lo)⟩] else []) ++ cutUndef lo n t

/-- The byte the memory holds at an address. -/
def memByte (s : State) (a : Nat) : Byte := mapGet (unlisted s.undef) s.mem a

/-- One byte of memory set. -/
def setByte (s : State) (a : Nat) (b : Byte) : State :=
  { s with mem := mapSet (fun _ => 0) s.mem a b, undef := cutUndef a 1 s.undef }

/-- `n` bytes of memory from an address. -/
def memBytes (s : State) (a : Nat) : Nat → List Byte
  | 0 => []
  | n + 1 => memByte s a :: memBytes s (a + 1) n

/-- A string of bytes stored from an address on. -/
def setBytes (s : State) (a : Nat) : List Byte → State
  | [] => s
  | b :: t => setBytes (setByte s a b) (a + 1) t

/-- The memory's canonical form. -/
def Memory.wf (m : SMap Byte) : Bool := mapWf (fun _ => 0) m

/-- The next free byte: a value the spec leaves undefined (log entry 5). -/
def takeFree (s : State) : Byte × State := (Config.freeByte s.free, { s with free := s.free + 1 })

/-- Memory outside a range. -/
def outside (lo n : Nat) (m : SMap Byte) : SMap Byte := m.filter (fun e => decide (e.1 < lo ∨ lo + n ≤ e.1))

/-- The contents of a range become undefined. -/
def undefineRange (s : State) (lo n : Nat) : State :=
  { s with mem := outside lo n s.mem, undef := cutUndef lo n s.undef ++ [⟨lo, n, s.free⟩], free := s.free + n }

/-- The contents of a range become 0. -/
def clearRange (s : State) (lo n : Nat) : State := { s with mem := outside lo n s.mem, undef := cutUndef lo n s.undef }

/-! ### Sectors: error correction, poison, injection -/

/-- A sector's poison mark in memory. -/
def sectorPoison (s : State) (sec : Nat) : Bool := mapGet (fun _ => false) s.poison sec

/-- A sector's poison mark set or cleared. -/
def setSectorPoison (s : State) (sec : Nat) (b : Bool) : State :=
  { s with poison := mapSet (fun _ => false) s.poison sec b }

/-- The bit errors latent in a sector's first codeword. -/
def sectorErrors (s : State) (sec : Nat) : Nat := mapGet (fun _ => 0) s.bitErrs sec

/-- A sector's latent bit errors replaced. -/
def setSectorErrors (s : State) (sec n : Nat) : State := { s with bitErrs := mapSet (fun _ => 0) s.bitErrs sec n }

/-- R264: a unit that does not answer. -/
def isDown (s : State) (u : Nat) : Bool := mapGet (fun _ => false) s.unitDown u

/-- R276: an uncorrectable codeword is found in a sector. -/
def uncorrectable (s : State) (sec : Nat) : State :=
  let u := unitOf s (32 * sec)
  let site := unitSite u
  let s := setSectorPoison (setSectorErrors s sec 0) sec true
  let s := if u < 16 then setFlag (count s .memUeCount site (unitLocal u)) .memStatus site 0 8
    else setFlag (count s .capUeCount site (unitLocal u)) .capStatus site 0 8
  let k : RegKind := if u < 16 then .memUeAddr else .capUeAddr
  let s := if natBit (getReg s k site 0).toNat 63 then s
    else setReg s k site 0 (BitVec.ofNat 64 (2 ^ 63 + unitLocal u * 2 ^ 44 + 32 * sec))
  raiseEvent s (unitSrc u)

/-- R283: a retirement report posted at a site; a full queue of 64 discards it. -/
def postReport (s : State) (site : Nat) (r : RetireReport) : State :=
  let q := mapGet (fun _ => ⟨[], false⟩) s.reports site
  let q' : ReportQueue := if q.reports.length < 64 then ⟨q.reports ++ [r], q.overflow⟩ else ⟨q.reports, true⟩
  { s with reports := mapSet (fun _ => ⟨[], false⟩) s.reports site q' }

/-- R281: the entry a full correction table gives up: the lowest count, and among those the oldest. -/
def corrVictim : List CorrEntry → Option CorrEntry
  | [] => none
  | e :: t =>
    match corrVictim t with
    | none => some e
    | some v => if v.count < e.count ∨ (v.count = e.count ∧ v.since < e.since) then some v else some e

/-- R281, R282: a correction at a sector enters its controller's table, and the count that reaches the threshold posts a
report, frees the entry and raises an event. -/
def correction (s : State) (sec : Nat) : State :=
  let u := unitOf s (32 * sec)
  let site := unitSite u
  let tab := mapGet (fun _ => []) s.corr u
  let old := tab.find? (fun e => e.sector == sec)
  let e : CorrEntry := match old with
    | some e => { e with count := e.count + 1 }
    | none => ⟨sec, 1, s.beat.waits⟩
  let rest := tab.filter (fun x => x.sector != sec)
  let rest := if old.isNone && decide (64 ≤ rest.length) then
      match corrVictim rest with
      | some v => rest.filter (fun x => x.sector != v.sector)
      | none => rest
    else rest
  let thresh := getBits (getReg s (if u < 16 then .memRetireThresh else .capRetireThresh) site 0) 0 8
  let put := fun (s : State) (t : List CorrEntry) => { s with corr := mapSet (fun _ => []) s.corr u t }
  if thresh ≤ e.count then
    raiseEvent (postReport (put s rest) site ⟨e.count, unitLocal u, 32 * sec⟩) (unitSrc u)
  else put s (rest ++ [e])

/-- R274: a correctable error is found in a sector and written back corrected. -/
def corrected (s : State) (sec : Nat) : State :=
  let u := unitOf s (32 * sec)
  let s := setSectorErrors s sec 0
  let s := if u < 16 then count s .memCeCount (unitSite u) (unitLocal u)
    else count s .capCeCount (unitSite u) (unitLocal u)
  correction s sec

/-- What a controller's read of a sector does before it delivers data: R264 (every read on a unit that is down is
uncorrectable), R273, R274, R276. A sector that is already poisoned stays so (R277). -/
def senseSector (s : State) (sec : Nat) : State :=
  if isDown s (unitOf s (32 * sec)) then uncorrectable s sec
  else if sectorPoison s sec then s
  else
    match sectorErrors s sec with
    | 0 => s
    | 1 => corrected s sec
    | 2 => corrected s sec
    | _ + 3 => uncorrectable s sec

/-- R264, R277, R290: a whole sector stored: dropped with an event when its unit is down; otherwise its poison is cleared,
and an armed injection for it leaves bit errors. -/
def storeSector (s : State) (sec : Nat) (bytes : List Byte) : State :=
  let u := unitOf s (32 * sec)
  if isDown s u then raiseEvent s (unitSrc u)
  else
    let arm := mapGet (fun _ => (0, 0)) s.inject (unitSite u)
    let hit := decide (arm.1 ≠ 0 ∧ arm.2 = sec)
    let s := if hit then { s with inject := mapSet (fun _ => (0, 0)) s.inject (unitSite u) (0, arm.2) } else s
    setBytes (setSectorErrors (setSectorPoison s sec false) sec (if hit then arm.1 else 0)) (32 * sec) bytes

/-- R279: a sector stored poisoned. -/
def storePoisoned (s : State) (sec : Nat) : State :=
  let u := unitOf s (32 * sec)
  if isDown s u then raiseEvent s (unitSrc u) else setSectorPoison s sec true

/-! ### The cellar -/

/-- The cellar line of a line address (address / 128), when its home's cellar holds it. -/
def cellarLine (s : State) (line : Nat) : Option CelLine := mapGet (fun _ => none) s.cellar line

/-- A cellar line put or removed. -/
def setCellarLine (s : State) (line : Nat) (c : Option CelLine) : State :=
  { s with cellar := mapSet (fun _ => none) s.cellar line c }

/-- R291: the cellar set of a line. -/
def cellarSet (line : Nat) : Nat := (line % 2 ^ 17) ^^^ (line / 2 ^ 17 % 2 ^ 17)

/-- Bytes moved by a line access of a unit. -/
def countLine (s : State) (u : Nat) : State :=
  if u < 16 then count s .memLineBytes (unitSite u) (unitLocal u) 128
  else count s .capLineBytes (unitSite u) (unitLocal u) 128

/-- R279: the sectors of a line written back, sector `k` first of those left. -/
def writebackSectors (s : State) (line : Nat) (c : CelLine) : Nat → State
  | 0 => s
  | n + 1 =>
    let k := 3 - n
    let s := if natBit c.poison.toNat k then storePoisoned s (4 * line + k)
      else storeSector s (4 * line + k) (slice c.data (32 * k) 32)
    writebackSectors s line c n

/-- R291: a line leaves the cellar, written back when it is modified. -/
def evictLine (s : State) (line : Nat) : State :=
  match cellarLine s line with
  | none => s
  | some c =>
    let s := setCellarLine s line none
    if c.dirty then
      writebackSectors (countLine (count s .celWritebacks (homeOf s (128 * line)) 0) (unitOf s (128 * line))) line c 4
    else s

/-- The lines of one set of one home's cellar. -/
def setLines (s : State) (home set : Nat) : List (Nat × Nat) :=
  s.cellar.filterMap (fun e => match e.2 with
    | some c => if homeOf s (128 * e.1) = home ∧ cellarSet e.1 = set then some (e.1, c.way) else none
    | none => none)

/-- R292: the way a new line takes among those a request may allocate in: the lowest free one, else one the spec leaves
open (log entry 8), whose line is evicted. -/
def allocWay (s : State) (line ways : Nat) : Nat × State :=
  let used := setLines s (homeOf s (128 * line)) (cellarSet line)
  let allowed := bitsSet ways 16
  match allowed.filter (fun w => !(used.any (fun e => e.2 == w))) with
  | w :: _ => (w, s)
  | [] =>
    let f := takeFree s
    let w := allowed.getD (f.1.toNat % allowed.length) 0
    match used.find? (fun e => e.2 == w) with
    | some e => (w, evictLine f.2 e.1)
    | none => (w, f.2)

/-- A line read from memory, its four sectors sensed: the poison bits of R293 and the data. -/
def fillLine (s : State) (line : Nat) : List Byte × BitVec 4 × State :=
  let s := countLine (senseSector (senseSector (senseSector (senseSector s (4 * line)) (4 * line + 1))
    (4 * line + 2)) (4 * line + 3)) (unitOf s (128 * line))
  let p := fun k => boolNat (sectorPoison s (4 * line + k)) * 2 ^ k
  (memBytes s (128 * line) 128, BitVec.ofNat 4 (p 0 + p 1 + p 2 + p 3), s)

/-- R292, R293: a line access: the line is in the cellar afterwards. -/
def fetchLine (s : State) (line ways : Nat) : State :=
  let h := homeOf s (128 * line)
  match cellarLine s line with
  | some _ => count s .celHits h 0
  | none =>
    let w := allocWay (count s .celMisses h 0) line ways
    let f := fillLine w.2 line
    setCellarLine f.2.2 line (some ⟨w.1, f.1, false, f.2.1⟩)

/-- All ways (R292: server cores, tellers and the management controller). -/
def allWays : Nat := 0xFFFF

/-- The ways that a partition's requests may allocate in; the module's own in any. -/
def waysOf (s : State) (part : Option Nat) : Nat :=
  match part with
  | none => allWays
  | some p => (getReg s .celPartWays 0 p).toNat % 65536

/-! ### The directory -/

/-- A line's directory entry. -/
def dirEntry (s : State) (line : Nat) : Option DirEntry := mapGet (fun _ => none) s.dir line

/-- A line's directory entry put or removed. -/
def setDirEntry (s : State) (line : Nat) (e : Option DirEntry) : State :=
  { s with dir := mapSet (fun _ => none) s.dir line e }

/-- R313: an agent is marked failed. -/
def agentFailed (s : State) (a : Nat) : Bool := natBit (getReg s .dirAgentStatus 0 (a / 64)).toNat (a % 64)

/-- What the last access of a line by an engine was answered with (R313). -/
def setLost (s : State) (line d : Nat) : State := { s with lost := mapSet (fun _ => 0) s.lost line d }

/-- Every copy of a line dropped. -/
def dropCopies (s : State) (line : Nat) : State :=
  { s with copies := s.copies.filter (fun c => c.line != line) }

/-- R318: a write, atomic or reduction by another requester clears the reservations on a line; `keep` is that requester
when it is a caching agent. -/
def clearReservations (s : State) (line : Nat) (keep : Option Nat) : State :=
  { s with reservations := s.reservations.filter (fun e =>
      e.2 != some line || (match keep with
        | some a => e.1 % 256 == a
        | none => false)) }

/-- R312, R313: every sector of a line poisoned in the cellar. -/
def poisonLine (s : State) (line : Nat) : State :=
  match cellarLine s line with
  | none => s
  | some c => setCellarLine s line (some { c with poison := 15#4, dirty := true })

/-- R312: a lost line recorded with its agent while no earlier one stands. -/
def noteTimeout (s : State) (home agent line : Nat) : State :=
  if natBit (getReg s .dirLastTimeout home 0).toNat 63 then s
  else setReg s .dirLastTimeout home 0 (BitVec.ofNat 64 (2 ^ 63 + agent * 2 ^ 48 + 128 * line))

/-! ### What refuses an access, and what its reader may be given -/

/-- R285, R286: the 4 KiB unit that holds an address is retired. -/
def isRetired (s : State) (a : Nat) : Bool :=
  (mapGet (fun _ => []) s.retired (if inHbm a then hbmTile a else 4)).contains (a / 4096)

/-- R286, R607: the source that reports an access to a retired unit. -/
def retiredSrc (s : State) (a : Nat) : Nat :=
  if inHbm a then tileSrc (hbmTile a) 20
  else
    let c := unitOf s a - 16
    coreSrc (4 + c / 8) (2 + c % 8)

/-- `n` free bytes: values the spec leaves undefined (log entry 5). -/
def freeBytes (s : State) (n : Nat) : List Byte × State :=
  ((List.range n).map (fun i => Config.freeByte (s.free + i)), { s with free := s.free + n })

/-- R315: a request met a poisoned sector at a home. -/
def poisonSeen (s : State) (home : Nat) : State := setFlag s .celStatus home 0 8

/-- A range cut at multiples of `unit`: (address, length) pieces in ascending order. -/
def cutRange (unit : Nat) : Nat → Nat → Nat → List (Nat × Nat)
  | 0, _, _ => []
  | fuel + 1, a, n =>
    if n = 0 then []
    else
      let k := min n (unit - a % unit)
      (a, k) :: cutRange unit fuel (a + k) (n - k)

/-- R242, R243: a line is the doorbell line of a partition. -/
def isDoorbell (s : State) (line : Nat) : Bool :=
  (List.range 16).any (fun p =>
    let w := getReg s .expPartDoorbell 0 p
    natBit w.toNat 63 && getBits w 0 44 / 128 == line)

/-- R243: a write that is no exchange request has reached a line. -/
def doorbellMisuse (s : State) (line : Nat) : State :=
  if isDoorbell s line then
    let h := homeOf s (128 * line)
    raiseEvent (setFlag s .expStatus h 0 8) (tileSrc h 27)
  else s

/-! ### Rights -/

/-- A compute cluster. -/
def cluster (s : State) (c : Nat) : Cluster := mapGet (fun _ => Cluster.reset) s.clusters c

/-- A cluster runs a slice. -/
def clusterActive (v : Cluster) : Bool := v.state == .running || v.state == .finishing

/-- A cluster runs a slice, or drains one that is being suspended, so that a fault in it ends the slice. -/
def clusterServes (v : Cluster) : Bool := clusterActive v || v.state == .suspending

/-- R212: a byte of a cluster store that an engine of a running slice writes, as far as it has come. -/
def beingWritten (s : State) (x : Nat) : Bool :=
  s.order.touches.any (fun t => t.write && decide (t.addr ≤ x ∧ x < t.addr + t.len) && clusterServes (cluster s (t.engine / 16)))

/-- R212: a read through a cluster store's window: the bytes that an engine of a running slice writes are free. -/
def windowBytes (s : State) (a n : Nat) : List Byte × State :=
  let b := memBytes s a n
  if (List.range n).any (fun i => beingWritten s (a + i)) then
    let f := freeBytes s n
    (b.mapIdx (fun i x => if beingWritten s (a + i) then f.1.getD i x else x), f.2)
  else (b, s)

/-- R432: an address lies in an extent of a descriptor. -/
def inExtents (d : PartDesc) (a : Nat) : Bool :=
  d.extents.any (fun e => decide (e.1 * 2 ^ 30 ≤ a ∧ a < (e.1 + e.2) * 2 ^ 30))

/-- A partition. -/
def part (s : State) (p : Nat) : Partition := mapGet (fun _ => Partition.none) s.parts p

/-- A partition is active or being destroyed, so that its resources are in force. -/
def partActive (s : State) (p : Nat) : Bool :=
  (part s p).state == .active || (part s p).state == .destroyProposed

/-- Every GiB unit that a range touches satisfies a test. -/
def eachGib (ok : Nat → Bool) (a n : Nat) : Bool :=
  n == 0 || (List.range ((a + n - 1) / 2 ^ 30 + 1 - a / 2 ^ 30)).all (fun i => ok ((a / 2 ^ 30 + i) * 2 ^ 30))

/-- A range lies in a partition's memory. -/
def inPartition (s : State) (p a n : Nat) : Bool := eachGib (inExtents (part s p).desc) a n

/-- R211: a range lies in cluster store windows that an agent acting for `who` (none for the module) may reach. -/
def storeRight (s : State) (who : Option Nat) (a n : Nat) : Bool :=
  inStore a && inStore (a + n - 1) &&
    (List.range ((a + n - 1) / 2 ^ 24 + 1 - a / 2 ^ 24)).all (fun i =>
      let c := (a / 2 ^ 24 + i) % 64
      match who with
      | some p => natBit (part s p).desc.clusters c && partActive s p
      | none => !((List.range 16).any (fun p => partActive s p && natBit (part s p).desc.clusters c)))

/-- The first address of a range whose unit is retired. -/
def retiredIn (s : State) (a n : Nat) : Option Nat :=
  ((cutRange 4096 (n / 4096 + 2) a n).find? (fun p => isMemory s p.1 && isRetired s p.1)).map (·.1)

/-- R607: the event an access that a memory target refuses raises, for a requester of a site. -/
def controlSrc (site : Nat) : Nat := if site < 4 then tileSrc site 30 else coreSrc site 0

/-- R607: the source of an access of a range that is no memory: the window's site for control space, else the requester's. -/
def absentSrc (site a : Nat) : Nat := controlSrc (if inControl a then a / 2 ^ 36 % 16 else site)

/-- Whether an access of a range by a requester acting for `who`, from a site, may be carried out, and the event raised when
it may not: a partition reaches its own memory and stores, the module all memory that exists; a retired unit and a
reserved range refuse every access (R4, R210, R211, R259, R286, R607), as control space does any that is not of a register's size (R9,
R607). What the unit that checks a partition's bounds refuses raises no
event of the memory's. -/
def accessError (s : State) (who : Option Nat) (site a n : Nat) : Option (Option Nat) :=
  if n = 0 then none
  else if inStore a then
    (if storeRight s who a n then none else some (some (tileSrc (a / 2 ^ 24 % 64 / 16) 30)))
  else
    match who with
    | some p =>
      if !rangeIsMemory s a n then some (some (absentSrc site a))
      else if inPartition s p a n then (retiredIn s a n).map (fun x => some (retiredSrc s x))
      else some none
    | none =>
      if rangeIsMemory s a n then (retiredIn s a n).map (fun x => some (retiredSrc s x)) else some (some (absentSrc site a))

/-- The event of a refused access raised, when it raises one. -/
def accessEvent (s : State) (e : Option Nat) : State :=
  match e with
  | some src => raiseEvent s src
  | none => s

end Sys2Proof.Machine
end

