-- ==== Sys2Proof/Machine/Coherence.lean ====
section
/-!
DEFINITION. The homes' coherence protocol (10_cellar_coherence.md): messages (R300 to R302), transactions and the directory
(R303 to R311), timeouts (R312, R313), poison (R315), and atomics and reductions (R316 to R321).
-/
namespace Sys2Proof.Machine

/-! ### Messages -/

/-- The fields of a coherence header (R300). -/
structure CohHdr where
  typ      : Nat
  src      : Nat
  tag      : Nat
  line     : Nat
  refusals : Nat
  rsv      : Bool
  offset   : Nat
  aop      : Nat
  size8    : Bool
  dirty    : Bool
  emask    : Nat
  deriving DecidableEq, Repr

/-- R300: the fields of a message's header. -/
def cohHdr (m : CohMsg) : CohHdr :=
  let h := m.hdr
  let b9 := fieldLe h 9 1
  let b11 := fieldLe h 11 1
  ⟨fieldLe h 0 1, fieldLe h 1 1, fieldLe h 2 2, fieldLe h 4 5 % 2 ^ 37, b9 % 16, natBit b9 4, fieldLe h 10 1 % 128,
    b11 % 16, natBit b11 4, natBit b11 5, fieldLe h 12 1⟩

/-- R301: the payload length of a message type; none of a reserved type. -/
def cohPayload : Nat → Option Nat
  | 0x01 => some 0
  | 0x02 => some 0
  | 0x03 => some 0
  | 0x04 => some 128
  | 0x05 => some 0
  | 0x06 => some 0
  | 0x07 => some 144
  | 0x08 => some 16
  | 0x09 => some 32
  | 0x10 => some 128
  | 0x11 => some 128
  | 0x12 => some 0
  | 0x13 => some 0
  | 0x14 => some 8
  | 0x15 => some 0
  | 0x16 => some 2
  | 0x17 => some 0
  | 0x20 => some 0
  | 0x21 => some 0
  | 0x22 => some 0
  | 0x28 => some 0
  | 0x29 => some 128
  | _ => none

/-- R317, R319, R321: the fields of an ATOMIC or REDUCE name an operation on an aligned element. -/
def atomicFieldsOk (h : CohHdr) : Bool :=
  let size := if h.size8 then 8 else 4
  let fp := decide (10 ≤ h.aop ∧ h.aop ≤ 12)
  if h.typ = 0x08 then decide (h.aop < 14 ∧ h.offset % size = 0) && !(fp && h.size8)
  else if h.typ = 0x09 then
    decide (2 ≤ h.aop ∧ h.aop ≤ 12 ∧ h.offset % 32 = 0) && !(fp && h.size8) && !(h.size8 && decide (16 ≤ h.emask))
  else true

/-- R302, R321: a message that its receiver discards: a failed CRC, a reserved type or field, a payload of another length
than its type has, a reserved requester (log entry 11), or an atomic whose fields R321 rejects. -/
def cohBad (m : CohMsg) : Bool :=
  let h := m.hdr
  let f := cohHdr m
  (match cohPayload f.typ with
    | none => true
    | some n => m.payload.length != n)
  || fieldLe h 16 4 != crc32c (h.take 16 ++ m.payload)
  || decide (2 ^ 37 ≤ fieldLe h 4 5 ∨ 8 < f.refusals ∨ 32 ≤ fieldLe h 9 1 ∨ 128 ≤ fieldLe h 10 1 ∨ 64 ≤ fieldLe h 11 1)
  || (f.rsv && f.typ != 0x06) || !zeroBytes h 13 3 || decide (216 ≤ f.src) || !atomicFieldsOk f

/-- R302: a message discarded at a tile. -/
def cohDiscard (s : State) (home : Nat) : State :=
  raiseEvent (setFlag (count s .dirBadMsg home 0) .dirStatus home 0 33) (tileSrc home 21)

/-- A message of type `typ` acts on its receiver; one of another type is not this command, and a malformed one is
discarded. -/
def cohAct (s : State) (home typ : Nat) (m : CohMsg) (act : CohHdr → State) : State :=
  if cohBad m then cohDiscard s home
  else if (cohHdr m).typ = typ then act (cohHdr m)
  else s

/-! ### The home's replies and snoops -/

/-- R300: the payload of a message that the model holds by its fields. -/
def cohPayloadBytes (m : CohOut) : List Byte := if m.typ = 0x16 then leBytes 2 m.detail else m.payload

/-- R300: a message as it travels: the 20 B header with its CRC-32C, and the payload. SRC is the requester, or the agent that
answers a snoop. -/
def cohWire (m : CohOut) : CohMsg :=
  let p := cohPayloadBytes m
  let h := leBytes 1 m.typ ++ leBytes 1 m.src ++ leBytes 2 m.tag ++ leBytes 5 m.line ++ [0, 0] ++ leBytes 1 (32 * boolNat m.dirty)
    ++ [0, 0, 0, 0]
  ⟨h ++ leBytes 4 (crc32c (h ++ p)), p⟩

/-- A reply to a request. -/
def cohReply (s : State) (home typ : Nat) (r : CohReq) (payload : List Byte) (detail : Nat) : State :=
  { s with cohOut := s.cohOut ++ [⟨typ, r.src, home, r.src, r.tag, r.line, payload, detail, false⟩] }

/-- A snoop sent to a holder (types 0x20 to 0x22). -/
def cohSnoop (s : State) (home typ : Nat) (r : CohReq) (agent line : Nat) : State :=
  { s with cohOut := s.cohOut ++ [⟨typ, agent, home, r.src, r.tag, line, [], 0, false⟩] }

/-- Snoops sent to several holders. -/
def cohSnoops (s : State) (home typ : Nat) (r : CohReq) (line : Nat) (agents : List Nat) : State :=
  agents.foldl (fun s a => cohSnoop s home typ r a line) s

/-- R607: the site of a requester; that of ID 215 is its teller's tile, which the message does not name (log entry 77). -/
def requesterSite (id : Nat) : Nat :=
  if id < 64 then 4 else if id < 128 then 5 else if id < 132 then id - 128
  else if id < 196 then (id - 132) / 16 else if id < 200 then id - 196 else if id < 204 then id - 200
  else if id < 208 then id - 204 else if id < 212 then id - 208 else if id = 214 then 5 else 4

/-- R298: the directory set of a line. -/
def dirSet (line : Nat) : Nat := (line % 2 ^ 15) ^^^ (line / 2 ^ 15 % 2 ^ 15)

/-- The transaction that is open on a line. -/
def openTxn (s : State) (line : Nat) : Option Txn := s.txns.find? (fun t => t.req.line == line)

/-- A line is pinned: a transaction is open on it, or awaits snoops of it (R303, R308). -/
def pinned (s : State) (line : Nat) : Bool :=
  s.txns.any (fun t => t.req.line == line || t.awaiting.any (fun p => p.2 == line))

/-- The transactions open in a set of a home. -/
def openInSet (s : State) (home set : Nat) : Nat :=
  (s.txns.filter (fun t => t.home == home && dirSet t.req.line == set)).length

/-- A home's waiting requests. -/
def homeQueueOf (s : State) (home : Nat) : List CohReq := mapGet (fun _ => []) s.homeQueue home

/-- A home's waiting requests replaced. -/
def setHomeQueue (s : State) (home : Nat) (l : List CohReq) : State :=
  { s with homeQueue := mapSet (fun _ => []) s.homeQueue home l }

/-- A home's occupied reserved slots, in arrival order. -/
def reservedOf (s : State) (home : Nat) : List CohReq := mapGet (fun _ => []) s.reserved home

/-- A home's occupied reserved slots replaced. -/
def setReserved (s : State) (home : Nat) (l : List CohReq) : State :=
  { s with reserved := mapSet (fun _ => []) s.reserved home l }

/-- The requests of a set that wait at a home, those in reserved slots first (R311). -/
def waitingIn (s : State) (home set : Nat) : List CohReq :=
  (reservedOf s home ++ homeQueueOf s home).filter (fun r => dirSet r.line == set)

/-- The lines of a set whose waiting requests the home may admit: those without an open transaction (R311). -/
def dueLines (s : State) (home set : Nat) : List Nat :=
  (((waitingIn s home set).map (·.line)).filter (fun l => !pinned s l)).eraseDups

/-- R304, R311: a request that arrives can be admitted at once: its line has no open transaction and no request of its waits, and its
set has a place that no waiting request is to have. -/
def canAdmit (s : State) (home line : Nat) : Bool :=
  !pinned s line && !((waitingIn s home (dirSet line)).any (fun r => r.line == line))
    && decide (openInSet s home (dirSet line) + (dueLines s home (dirSet line)).length < 8)

/-- The directory entries of a set of a home. -/
def dirEntriesOf (s : State) (home set : Nat) : List (Nat × DirEntry) :=
  s.dir.filterMap (fun e => match e.2 with
    | some d => if homeOf s (128 * e.1) = home ∧ dirSet e.1 = set then some (e.1, d) else none
    | none => none)

/-- R308: the entry allocated longest ago. -/
def oldestEntry : List (Nat × DirEntry) → Option (Nat × DirEntry)
  | [] => none
  | e :: t =>
    match oldestEntry t with
    | none => some e
    | some v => if v.2.order < e.2.order then some v else some e

/-- R313: a line's holders without the failed agents. -/
def liveHolders (s : State) (line : Nat) : List Nat :=
  match dirEntry s line with
  | some e => e.holders.filter (fun a => !agentFailed s a)
  | none => []

/-- A line's owner. -/
def ownerOf (s : State) (line : Nat) : Option Nat :=
  match dirEntry s line with
  | some e => if e.excl then e.holders.head? else none
  | none => none

/-- R303: an entry allocated for a line that has none, in state I. -/
def allocEntry (s : State) (line : Nat) : State :=
  match dirEntry s line with
  | some _ => s
  | none => setDirEntry { s with dirOrder := s.dirOrder + 1 } line (some ⟨false, [], s.dirOrder⟩)

/-- R305: an entry in state I whose line has no open transaction is freed. -/
def tidyEntry (s : State) (line : Nat) : State :=
  match dirEntry s line with
  | some e => if e.holders.isEmpty && !pinned s line then setDirEntry s line none else s
  | none => s

/-- A directory entry written; it keeps its age (R308), and is freed when no agent holds the line and no transaction pins it. -/
def putHolders (s : State) (line : Nat) (excl : Bool) (holders : List Nat) : State :=
  let s := allocEntry s line
  let order := match dirEntry s line with
    | some e => e.order
    | none => 0
  tidyEntry (setDirEntry s line (some ⟨excl && !holders.isEmpty, holders, order⟩)) line

/-- The partition for whose context a unit asks: a data mover's slice, what an exchange engine or a mill has had in progress longest, a
clearing unit's contribution in progress. The message of an arriving packet's access names none (log entry 77). -/
def requesterPart (s : State) (src : Nat) : Option Nat :=
  let t := src % 4
  if 132 ≤ src ∧ src < 196 then
    let v := cluster s (src - 132)
    if clusterServes v then some v.partition else none
  else if 196 ≤ src ∧ src < 200 then (mapGet (fun _ => ExchEngine.reset) s.exch t).running.head?.map (·.partition)
  else if 200 ≤ src ∧ src < 204 then
    (s.clr.find? (fun j => j.id % 4 == t && j.buckets.any (fun k => k.own.isSome))).map (·.partition)
  else if 204 ≤ src ∧ src < 208 then
    let m := mapGet (fun _ => Mill.reset) s.mills t
    ((m.decoding.map (·.stream) ++ m.units.map (·.stream)).head?.bind (mapGet (fun _ => none) s.streams)).map (·.partition)
  else none

/-- The ways that a message's request may allocate in (R292): those of the partition for whose context it is made, any for the others. -/
def requesterWays (s : State) (src : Nat) : Nat := waysOf s (requesterPart s src)

/-! ### The cellar in a transaction -/

/-- The poison bits of a line at its home once it is in the cellar, and its data. -/
def homeLine (s : State) (src line : Nat) : List Byte × BitVec 4 × State :=
  let s := fetchLine s line (requesterWays s src)
  match cellarLine s line with
  | some c => (c.data, c.poison, s)
  | none => ([], 0#4, s)

/-- Data from a holder written to the cellar, modified when its message says so (R305). Modified data is a write by that agent,
which clears the others' reservations on the line (R318). It allocates in the ways of the request that it answers (R292). -/
def takeData (s : State) (ways agent line : Nat) (dirty : Bool) (data : List Byte) : State :=
  let s := fetchLine (if dirty then clearReservations s line (some agent) else s) line ways
  match cellarLine s line with
  | some c =>
    let s := setCellarLine s line (some { c with data := data, dirty := c.dirty || dirty, poison := 0#4 })
    if dirty then doorbellMisuse s line else s
  | none => s

/-- R315: a request is answered POISONED. -/
def answerPoison (s : State) (home : Nat) (r : CohReq) : State :=
  cohReply (poisonSeen s home) home 0x16 r [] (0x2810 + home)

/-- The bytes of a WR_NC that its mask selects, merged over old bytes. -/
def maskMerge (old new : List Byte) (mask : Nat) (base : Nat) : List Byte :=
  old.mapIdx (fun i b => if natBit mask (base + i) then new.getD i 0 else b)

/-- R315: one sector of a WR_NC applied to a cellar line. -/
def maskSector (s : State) (home : Nat) (c : CelLine) (payload : List Byte) (mask k : Nat) : CelLine × State :=
  let bits := mask / 2 ^ (32 * k) % 2 ^ 32
  if bits = 0 then (c, s)
  else if natBit c.poison.toNat k then
    if bits = 2 ^ 32 - 1 then
      ({ c with data := splice c.data (32 * k) (slice payload (32 * k) 32), dirty := true
                poison := c.poison &&& ~~~(1#4 <<< k) }, poisonSeen s home)
    else (c, raiseEvent (poisonSeen (setFlag s .celStatus home 0 9) home) (tileSrc home 21))
  else
    ({ c with data := splice c.data (32 * k) (maskMerge (slice c.data (32 * k) 32) (slice payload (32 * k) 32) mask (32 * k))
              dirty := true }, s)

/-- The sectors of a WR_NC, sector 4 − n first. -/
def maskSectors (s : State) (home : Nat) (c : CelLine) (payload : List Byte) (mask : Nat) : Nat → CelLine × State
  | 0 => (c, s)
  | n + 1 =>
    let r := maskSector s home c payload mask (3 - n)
    maskSectors r.2 home r.1 payload mask n

/-- R305, R315: a WR_NC applied in the cellar. -/
def applyMasked (s : State) (home : Nat) (r : CohReq) : State :=
  let s := fetchLine (clearReservations s r.line (some r.src)) r.line (requesterWays s r.src)
  match cellarLine s r.line with
  | some c =>
    let m := maskSectors s home c r.payload (fieldLe r.payload 128 16) 4
    doorbellMisuse (setCellarLine m.2 r.line (some m.1)) r.line
  | none => s

/-- A two's complement value of a size in bytes. -/
def signedOf (size v : Nat) : Int := if v < 2 ^ (8 * size - 1) then (v : Int) else (v : Int) - (2 ^ (8 * size) : Nat)

/-- R317: the new value of an element under AOP 0 to 12; `cmp` is the compare value of CAS. -/
def aopValue (aop size old opd cmp : Nat) : Nat :=
  let w := 2 ^ (8 * size)
  let f := fun (g : F32 → F32 → F32) => (g (BitVec.ofNat 32 old) (BitVec.ofNat 32 opd)).toNat
  match aop with
  | 0 => opd
  | 1 => if old = cmp then opd else old
  | 2 => (old + opd) % w
  | 3 => old &&& opd
  | 4 => old ||| opd
  | 5 => old ^^^ opd
  | 6 => if signedOf size opd < signedOf size old then opd else old
  | 7 => if signedOf size old < signedOf size opd then opd else old
  | 8 => min old opd
  | 9 => max old opd
  | 10 => f f32Add
  | 11 => f (fun a b => rndFp32 (extMin (decode32 a) (decode32 b)))
  | 12 => f (fun a b => rndFp32 (extMax (decode32 a) (decode32 b)))
  | _ => old

/-- R318: a requester's reservation at a home names a line. -/
def holdsReservation (s : State) (home src line : Nat) : Bool :=
  mapGet (fun _ => none) s.reservations (256 * home + src) == some line

/-- A cellar line with bytes replaced at an offset. -/
def pokeLine (s : State) (line off : Nat) (bytes : List Byte) : State :=
  match cellarLine s line with
  | some c => doorbellMisuse (setCellarLine s line (some { c with data := splice c.data off bytes, dirty := true })) line
  | none => s

/-- R317, R318: an ATOMIC applied in the cellar, answered with the old value, or for SC with its outcome. -/
def applyAtomic (s : State) (home : Nat) (r : CohReq) (data : List Byte) : State :=
  let size := if r.size8 then 8 else 4
  let old := fieldLe data r.offset size
  let opd := fieldLe r.payload 0 size
  let cmp := fieldLe r.payload 8 size
  let s := count s .celAtomics home 0
  if r.aop = 13 then
    let ok := holdsReservation s home r.src r.line
    let s := if ok then pokeLine s r.line r.offset (leBytes size opd) else s
    let s := clearReservations { s with reservations := s.reservations.filter (fun e => e.1 % 256 != r.src) } r.line
      (some r.src)
    cohReply s home 0x14 r (leBytes 8 (boolNat (!ok))) 0
  else
    let s := pokeLine (clearReservations s r.line (some r.src)) r.line r.offset
      (leBytes size (aopValue r.aop size old opd cmp))
    cohReply s home 0x14 r (leBytes 8 old) 0

/-- R319: the bytes of a sector after a REDUCE. -/
def reduceSector (aop size emask : Nat) (old opd : List Byte) : List Byte :=
  (List.range (32 / size)).flatMap (fun e =>
    let o := fieldLe old (e * size) size
    leBytes size (if natBit emask e then aopValue aop size o (fieldLe opd (e * size) size) 0 else o))

/-- R319: a REDUCE applied in the cellar. -/
def applyReduce (s : State) (home : Nat) (r : CohReq) (data : List Byte) : State :=
  let size := if r.size8 then 8 else 4
  let s := clearReservations (count s .celAtomics home 0) r.line (some r.src)
  let s := pokeLine s r.line r.offset (reduceSector r.aop size r.emask (slice data r.offset 32) r.payload)
  cohReply s home 0x13 r [] 0

/-- R318: an RD_NC with RSV sets its caching agent's one reservation. -/
def setReservation (s : State) (home : Nat) (r : CohReq) : State :=
  if r.rsv && decide (r.src < 132) then
    let kept := s.reservations.filter (fun e => e.1 % 256 != r.src)
    { s with reservations := mapSet (fun _ => none) kept (256 * home + r.src) (some r.line) }
  else s

/-! ### Transactions -/

/-- R305: the snoops that a request needs, as their type and the agents. -/
def snoopsFor (s : State) (r : CohReq) : Nat × List Nat :=
  let hs := liveHolders s r.line
  match ownerOf s r.line with
  | some o =>
    match r.typ with
    | .rdShared => if o = r.src then (0, []) else (0x21, [o])
    | .rdOwn => if o = r.src then (0, []) else (0x22, [o])
    | .upgrade => if o = r.src then (0, []) else (0x22, [o])
    | .rdNc => (0x21, [o])
    | .wrNc => (0x22, [o])
    | .atomic => (0x22, [o])
    | .reduce => (0x22, [o])
    | .writeBack => (0, [])
    | .evict => (0, [])
  | none =>
    match r.typ with
    | .rdShared => (0, [])
    | .rdNc => (0, [])
    | .rdOwn => (0x20, hs.filter (fun h => h != r.src))
    | .upgrade => (0x20, hs.filter (fun h => h != r.src))
    | .wrNc => (0x20, hs)
    | .atomic => (0x20, hs)
    | .reduce => (0x20, hs)
    | .writeBack => (0, [])
    | .evict => (0, [])

/-- R305: an RD_SHARED of a line that other agents hold. -/
def answerShared (s : State) (home : Nat) (r : CohReq) : State :=
  let l := homeLine s r.src r.line
  if l.2.1 ≠ 0#4 then answerPoison l.2.2 home r
  else cohReply (putHolders l.2.2 r.line false ((liveHolders s r.line).filter (fun h => h != r.src) ++ [r.src])) home 0x10 r
    l.1 0

/-- R305: the final action of a request, every snoop answered, before an entry in state I is freed. -/
def carryOut (s : State) (home : Nat) (r : CohReq) : State :=
  let hs := liveHolders s r.line
  let own := ownerOf s r.line == some r.src
  match r.typ with
  | .upgrade =>
    if own then cohReply s home 0x12 r [] 0
    else if hs.contains r.src then cohReply (putHolders s r.line true [r.src]) home 0x12 r [] 0
    else
      let l := homeLine s r.src r.line
      if l.2.1 ≠ 0#4 then answerPoison l.2.2 home r
      else cohReply (putHolders l.2.2 r.line true [r.src]) home 0x11 r l.1 0
  | .rdOwn =>
    if own then cohReply s home 0x12 r [] 0
    else
      let l := homeLine s r.src r.line
      if l.2.1 ≠ 0#4 then answerPoison l.2.2 home r
      else cohReply (putHolders l.2.2 r.line true [r.src]) home 0x11 r l.1 0
  | .rdShared =>
    if own then cohReply s home 0x12 r [] 0
    else if hs.isEmpty then
      let l := homeLine s r.src r.line
      if l.2.1 ≠ 0#4 then answerPoison l.2.2 home r
      else cohReply (putHolders l.2.2 r.line true [r.src]) home 0x11 r l.1 0
    else answerShared s home r
  | .rdNc =>
    let l := homeLine s r.src r.line
    if l.2.1 ≠ 0#4 then answerPoison l.2.2 home r
    else cohReply (setReservation l.2.2 home r) home 0x10 r l.1 0
  | .wrNc => cohReply (applyMasked (putHolders s r.line false []) home r) home 0x13 r [] 0
  | .atomic =>
    let l := homeLine s r.src r.line
    if natBit l.2.1.toNat (r.offset / 32) then answerPoison l.2.2 home r
    else applyAtomic (putHolders l.2.2 r.line false []) home r l.1
  | .reduce =>
    let l := homeLine s r.src r.line
    if natBit l.2.1.toNat (r.offset / 32) then answerPoison l.2.2 home r
    else applyReduce (putHolders l.2.2 r.line false []) home r l.1
  | .writeBack => s
  | .evict => s

/-- R305: the final action of a request whose snoops are all answered; an entry that it leaves in state I is freed. -/
def finishRequest (s : State) (home : Nat) (r : CohReq) : State := tidyEntry (carryOut s home r) r.line

/-- R305: an owner that has answered SNP_DATA is a clean sharer, and one that has answered an invalidation holds nothing; the
entry after a snoop of a type is answered by an agent. -/
def afterSnoop (s : State) (typ agent line : Nat) : State :=
  match dirEntry s line with
  | none => s
  | some e =>
    if typ = 0x21 then putHolders s line false e.holders
    else putHolders s line e.excl (e.holders.filter (fun h => h != agent))

/-- R305: what a snoop's answer brings to the home: data of the line, modified or not, or none, which to SNP_DATA says that the
agent holds the line no longer. -/
def takeAnswer (s : State) (ways typ agent line : Nat) (ans : Option (Bool × List Byte)) : State :=
  match ans with
  | some (dirty, d) => if dirty then takeData s ways agent line true d else s
  | none => if typ = 0x21 then putHolders s line false ((liveHolders s line).filter (fun a => a != agent)) else s

/-- The type of snoop that a transaction has sent for a line: that of its request, or the back-invalidation of a victim. -/
def snoopType (t : Txn) (line : Nat) : Nat :=
  if line ≠ t.req.line then 0x22
  else
    match t.req.typ with
    | .rdShared => 0x21
    | .rdNc => 0x21
    | _ => 0x22

/-- A transaction closes with the last answer, for `line`: its final action, and the entry is no longer pinned. A request that took a
victim's place gets its entry now (R308). An RD_SHARED that has snooped the line's owner is answered as a sharer's, whatever the
owner has kept. -/
def closeTxn (s : State) (t : Txn) (line : Nat) : State :=
  let s := { s with txns := s.txns.filter (fun x => x.req.line != t.req.line) }
  if line ≠ t.req.line then finishRequest (allocEntry (tidyEntry s line) t.req.line) t.home t.req
  else if t.req.typ = .rdShared then tidyEntry (answerShared s t.home t.req) line
  else finishRequest s t.home t.req

/-- An answer to a snoop: the agent is awaited no longer, and the last answer closes the transaction. -/
def answered (s : State) (t : Txn) (agent line : Nat) : State :=
  let s := afterSnoop s (snoopType t line) agent line
  let t' : Txn := { t with awaiting := t.awaiting.filter (fun p => p != (agent, line)) }
  if t'.awaiting.isEmpty then closeTxn s t' line
  else { s with txns := s.txns.map (fun x => if x.req.line = t.req.line then t' else x) }

/-- R313: the owner of a line has failed. -/
def lostOwner (s : State) (line : Nat) : Bool :=
  match ownerOf s line with
  | some o => agentFailed s o
  | none => false

/-- R312: a line lost with its agent: poisoned in the cellar, free of holders, recorded and counted. -/
def loseLine (s : State) (ways home agent line : Nat) : State :=
  let s := poisonLine (fetchLine s line ways) line
  let s := count (count (setDirEntry (dropCopies s line) line none) .celPoisoned home 0) .dirTimeouts home 0
  raiseEvent (noteTimeout s home agent line) (tileSrc home 21)

/-- R312: an agent marked failed at all four homes. -/
def failAgent (s : State) (home agent : Nat) : State :=
  setFlag (setFlag s .dirAgentStatus 0 (agent / 64) (agent % 64)) .dirStatus home 0 32

/-- R312: a transaction whose snoops of a line stay unanswered ends: the silent agents are marked failed, the line is lost, and the
requester is answered POISONED. -/
def timeoutTxn (s : State) (t : Txn) (line : Nat) : State :=
  let silent := (t.awaiting.filter (fun p => p.2 == line)).map (·.1)
  let s := { s with txns := s.txns.filter (fun x => x.req.line != t.req.line) }
  let s := silent.foldl (fun s a => failAgent s t.home a) s
  cohReply (tidyEntry (loseLine s (requesterWays s t.req.src) t.home (silent.headD 0) line) t.req.line) t.home 0x16 t.req [] (0x2800 + t.home)

/-- R308: a full set gives up the entry allocated longest ago: its holders are to be snooped as part of the transaction of a request
for `line`. The victim with its holders, none when an entry is free, and the state. A victim that a failed agent owns is lost
(R313), and one whose holders have all failed is freed. -/
def makeRoom (s : State) (ways home line : Nat) : Option (Nat × Nat × List Nat) × State :=
  let es := dirEntriesOf s home (dirSet line)
  if (dirEntry s line).isSome || decide (es.length < 16) then (none, s)
  else
    match oldestEntry (es.filter (fun e => !pinned s e.1)) with
    | none => (none, s)
    | some v =>
      let s := count s .dirEvictions home 0
      if lostOwner s v.1 then (none, loseLine s ways home ((ownerOf s v.1).getD 0) v.1)
      else
        let hs := liveHolders s v.1
        let s := count s .dirBackinv home 0 hs.length
        if hs.isEmpty then (none, setDirEntry s v.1 none) else (some (v.1, if v.2.excl then 0x22 else 0x20, hs), s)

/-- A sector of a line is poisoned, or will be once it is read into the cellar. -/
def poisonAhead (s : State) (line k : Nat) : Bool :=
  match cellarLine s line with
  | some c => natBit c.poison.toNat k
  | none => sectorPoison s (4 * line + k) || isDown s (unitOf s (128 * line)) || decide (3 ≤ sectorErrors s (4 * line + k))

/-- R315: a request for a line with sharers meets poison, so that it changes no state and snoops nobody. -/
def meetsPoison (s : State) (r : CohReq) : Bool :=
  (dirEntry s r.line).isSome && (ownerOf s r.line).isNone &&
    (match r.typ with
      | .rdOwn => (List.range 4).any (poisonAhead s r.line)
      | .upgrade => !(liveHolders s r.line).contains r.src && (List.range 4).any (poisonAhead s r.line)
      | .atomic => poisonAhead s r.line (r.offset / 32)
      | .reduce => poisonAhead s r.line (r.offset / 32)
      | _ => false)

/-- R303, R305, R308: a request is admitted: it holds its line's entry, its snoops or those of a victim go out, or it is carried out at
once. -/
def admitRequest (s : State) (home : Nat) (r : CohReq) : State :=
  if lostOwner s r.line then
    cohReply (loseLine s (requesterWays s r.src) home ((ownerOf s r.line).getD 0) r.line) home 0x16 r [] (0x2820 + home)
  else if meetsPoison s r then finishRequest s home r
  else
    let v := makeRoom s (requesterWays s r.src) home r.line
    match v.1 with
    | some (line, typ, hs) =>
      let s := cohSnoops v.2 home typ r line hs
      { s with txns := s.txns ++ [⟨home, r, hs.map (fun a => (a, line)), s.beat.waits⟩] }
    | none =>
      let s := allocEntry v.2 r.line
      let sn := snoopsFor s r
      if sn.2.isEmpty then finishRequest s home r
      else
        let s := cohSnoops s home sn.1 r r.line sn.2
        { s with txns := s.txns ++ [⟨home, r, sn.2.map (fun a => (a, r.line)), s.beat.waits⟩] }

/-- R309: a refused request. -/
def refuseRequest (s : State) (home : Nat) (r : CohReq) : State := cohReply (count s .dirRefusals home 0) home 0x15 r [] 0

/-- The run and the slice that a data mover's cluster serves. -/
def moverServes (s : State) (src : Nat) : Option (Nat × Nat) :=
  let v := cluster s (src - 132)
  if 132 ≤ src ∧ src < 196 ∧ clusterServes v then some (v.run, v.slice) else none

/-- R302: a request that is outstanding at its requester, since now. -/
def noteAgain (s : State) (o : Outstanding) : State :=
  { s with outstanding := s.outstanding.filter (fun x => !(x.req.src == o.req.src && x.req.tag == o.req.tag))
      ++ [{ o with since := s.beat.waits }] }

/-- R302: the requester's own record of a request it has sent. -/
def noteRequest (s : State) (r : CohReq) (refusals : Nat) : State :=
  noteAgain s ⟨r, refusals, 0, moverServes s r.src⟩

/-- R410, R432: a requester may reach a line of a cluster store: the module's own agents as R211 lets the module, a server core for a
partition it acts for (log entry 24), a data mover for its slice's partition (log entry 77). -/
def requesterStore (s : State) (src a : Nat) : Bool :=
  if src < 128 then (List.range 16).any (fun p => Config.coreActsFor src p && storeRight s (some p) a 128)
  else if 132 ≤ src ∧ src < 196 then
    clusterServes (cluster s (src - 132)) && storeRight s (some (cluster s (src - 132)).partition) a 128
  else storeRight s none a 128

/-- R211, R259, R286, R321, R607: why an address is refused to a requester: the event's source, and the state with the free value
that stands for the tile of ID 215. An ATOMIC, a REDUCE or a request for a copy reaches memory only. -/
def cohAddressError (s : State) (r : CohReq) : Option Nat × State :=
  let a := 128 * r.line
  if isMemory s a then (if isRetired s a then some (retiredSrc s a) else none, s)
  else if inStore a && (r.typ == .rdNc || r.typ == .wrNc) then
    (if requesterStore s r.src a then none else some (tileSrc (a / 2 ^ 24 % 64 / 16) 30), s)
  else if inControl a then (some (controlSrc (a / 2 ^ 36 % 16)), s)
  else if r.src = 215 then
    let f := takeFree s
    (some (controlSrc (f.1.toNat % 4)), f.2)
  else (some (controlSrc (requesterSite r.src)), s)

/-- R296, R211, R212: an access of a cluster store by a coherence message: served uncached, with no state of the directory or the cellar.
What a running slice's engines write reads as free bytes. -/
def serveStore (s : State) (home : Nat) (r : CohReq) : State :=
  let a := 128 * r.line
  if r.typ == .wrNc then
    cohReply (setBytes s a (maskMerge (memBytes s a 128) r.payload (fieldLe r.payload 128 16) 0)) home 0x13 r [] 0
  else
    let b := windowBytes s a 128
    cohReply b.2 home 0x10 r b.1 0

/-- R286, R313: a request that has waited is answered DENIED when its agent has failed or its line's unit is retired meanwhile;
otherwise it is admitted. -/
def admitWaiting (s : State) (home : Nat) (r : CohReq) : State :=
  if decide (r.src < 132) && agentFailed s r.src then cohReply s home 0x17 r [] 0
  else if isRetired s (128 * r.line) then cohReply (raiseEvent s (retiredSrc s (128 * r.line))) home 0x17 r [] 0
  else admitRequest s home r

/-- R309, R310: a request that cannot be admitted at once waits in the home queue, or is refused when that is full. One with REFUSALS 8
takes its requester's reserved slot, from which it is admitted at once where it can be, and is refused while the slot is
occupied. -/
def placeRequest (s : State) (home : Nat) (r : CohReq) (refusals : Nat) : State :=
  if refusals = 8 then
    if (reservedOf s home).any (fun x => x.src == r.src) then refuseRequest s home r
    else if canAdmit s home r.line then admitRequest (count s .dirReserved home 0) home r
    else setReserved s home (reservedOf s home ++ [r])
  else if canAdmit s home r.line then admitRequest s home r
  else if (homeQueueOf s home).length < 1024 then setHomeQueue s home (homeQueueOf s home ++ [r])
  else refuseRequest s home r

/-- The die that serves a line: its home, or for a cluster store the cluster's tile. -/
def lineTile (s : State) (line : Nat) : Nat :=
  if inStore (128 * line) then 128 * line / 2 ^ 24 % 64 / 16 else homeOf s (128 * line)

/-- The request of a header and its message's payload. -/
def headerRequest (h : CohHdr) (typ : ReqType) (m : CohMsg) : CohReq :=
  ⟨typ, h.src, h.tag, h.line, h.rsv, h.offset, h.aop, h.size8, h.emask, m.payload⟩

/-- R302: a message that its home discards is one that its requester has sent and that stays without a reply: its header names it, as
far as it is to be trusted (log entry 77). -/
def discardRequest (s : State) (home : Nat) (typ : ReqType) (m : CohMsg) : State :=
  let h := cohHdr m
  let s := cohDiscard s home
  if h.src < 216 then noteRequest s (headerRequest h typ m) h.refusals else s

/-- R303 to R313: a request arrives at a home. A requester that may hold no copy does not ask for one (log entry 11). -/
def cohRequest (s : State) (home : Nat) (h : CohHdr) (typ : ReqType) (m : CohMsg) : State :=
  let r := headerRequest h typ m
  let holds := typ == .rdShared || typ == .rdOwn || typ == .upgrade
  if (isMemory s (128 * h.line) || inStore (128 * h.line)) && lineTile s h.line != home then s
  else if holds && decide (132 ≤ h.src) then discardRequest s home typ m
  else
    let s := noteRequest s r h.refusals
    if decide (h.src < 132) && agentFailed s h.src then cohReply s home 0x17 r [] 0
    else
      let e := cohAddressError s r
      match e.1 with
      | some src => cohReply (raiseEvent e.2 src) home 0x17 r [] 0
      | none => if inStore (128 * h.line) then serveStore s home r else placeRequest s home r h.refusals

/-- R302, R303: a message of a request's row: discarded, of another type, or a request. -/
def cohRequestAct (s : State) (home typ : Nat) (t : ReqType) (m : CohMsg) (act : CohHdr → State) : State :=
  if cohBad m then discardRequest s home t m
  else if (cohHdr m).typ = typ then act (cohHdr m)
  else s

/-- R303: a request row. -/
def cohRequestRow (s : State) (home typ : Nat) (t : ReqType) (m : CohMsg) : State :=
  cohRequestAct s home typ t m (fun h => cohRequest s home h t m)

/-- R317: an atomic's row: only a message with its AOP is this command. -/
def atomicRow (s : State) (home aop : Nat) (m : CohMsg) : State :=
  cohRequestAct s home 0x08 .atomic m (fun h => if h.aop = aop then cohRequest s home h .atomic m else s)

/-- A copy that an agent holds, put or replaced. -/
def putCopy (s : State) (agent line : Nat) (excl : Bool) (data : List Byte) : State :=
  { s with copies := s.copies.filter (fun c => !(c.agent == agent && c.line == line)) ++ [⟨agent, line, excl, data⟩] }

/-- A copy that an agent gives up. -/
def dropCopy (s : State) (agent line : Nat) : State :=
  { s with copies := s.copies.filter (fun c => !(c.agent == agent && c.line == line)) }

/-- The transaction of a home that awaits a snoop's answer. -/
def awaitingTxn (s : State) (home agent line : Nat) : Option Txn :=
  s.txns.find? (fun t => t.home == home && t.awaiting.contains (agent, line))

/-- R305, R306: an owner's write-back (`data`), or a holder's eviction, on arrival. A WB's data answers the transaction that awaits its
sender; one that nothing awaits is an access of its own, DENIED in a retired unit (R286). A line outside memory, of which no agent can
hold a copy (R296), is refused as R4 and R259 say of any access, where R306 refuses none (DESIGN CHOICE, log entry 77). -/
def giveBack (s : State) (home : Nat) (h : CohHdr) (typ : ReqType) (data : Option (List Byte)) : State :=
  let r : CohReq := ⟨typ, h.src, h.tag, h.line, false, 0, 0, false, 0, data.getD []⟩
  let s := noteRequest s r 0
  if agentFailed s h.src then cohReply s home 0x17 r [] 0
  else if !isMemory s (128 * h.line) then
    let e := cohAddressError s r
    cohReply (raiseEvent e.2 (e.1.getD 0)) home 0x17 r [] 0
  else
    let s := dropCopy s h.src h.line
    let waiting := awaitingTxn s home h.src h.line
    if waiting.isNone && data.isSome && isRetired s (128 * h.line) then
      cohReply (raiseEvent (putHolders s h.line false ((liveHolders s h.line).filter (fun a => a != h.src)))
        (retiredSrc s (128 * h.line))) home 0x17 r [] 0
    else
      let s := cohReply s home 0x13 r [] 0
      let holder := (liveHolders s h.line).contains h.src
      let owner := ownerOf s h.line == some h.src
      let s := match data with
        | some d =>
          let ways := match waiting with
            | some t => requesterWays s t.req.src
            | none => allWays
          if owner then takeData s ways h.src h.line h.dirty d else s
        | none => s
      let gone := fun (s : State) => putHolders s h.line false ((liveHolders s h.line).filter (fun a => a != h.src))
      match waiting with
      | some t => if data.isSome then answered (gone s) t h.src h.line else gone s
      | none => if holder && (owner || data.isNone) then gone s else s

/-- A message of the home's that its receiver takes: the first that matches leaves the list of those in flight. -/
def takeOut (typ dest tag line : Nat) : List CohOut → List CohOut
  | [] => []
  | m :: t => if m.typ = typ ∧ m.dest = dest ∧ m.tag = tag ∧ m.line = line then t else m :: takeOut typ dest tag line t

/-- The requester's outstanding request that a reply answers. -/
def findOutstanding (s : State) (h : CohHdr) : Option Outstanding :=
  s.outstanding.find? (fun o => o.req.src == h.src && o.req.tag == h.tag && o.req.line == h.line)

/-- R302: a reply reaches its requester, whose access is complete. -/
def replied (s : State) (h : CohHdr) : State :=
  { s with cohOut := takeOut h.typ h.src h.tag h.line s.cohOut
           outstanding := s.outstanding.filter (fun o => !(o.req.src == h.src && o.req.tag == h.tag)) }

/-- A reply row: a reply that answers no outstanding request is taken and changes nothing else. -/
def cohReplyRow (s : State) (home typ : Nat) (m : CohMsg) (act : CohHdr → Outstanding → State) : State :=
  cohAct s home typ m (fun h =>
    match findOutstanding s h with
    | some o => act h o
    | none => { s with cohOut := takeOut typ h.src h.tag h.line s.cohOut })

/-- R307: a snoop of a type at an agent that has `held` of the line: its answer's data with DIRTY, none for SNP_ACK, and the state
with what the agent keeps. A copy that is not the agent's own is never modified. -/
def agentSnooped (s : State) (typ agent line : Nat) (held : AgentLine) : Option (Bool × List Byte) × State :=
  match s.copies.find? (fun c => c.agent == agent && c.line == line) with
  | none => (none, s)
  | some c =>
    let after := fun (d : List Byte) => if typ = 0x21 then putCopy s agent line false d else dropCopy s agent line
    if typ = 0x20 then (none, dropCopy s agent line)
    else
      match held with
      | .gone => (none, dropCopy s agent line)
      | .clean => (some (false, c.data), after c.data)
      | .modified d => if c.excl then (some (true, d), after d) else (some (false, c.data), after c.data)

/-- R307: an agent answers a snoop at once. The answer goes to the home (message types 0x28 and 0x29, shown with destination
256 + home). -/
def snoopRow (s : State) (home agent typ : Nat) (held : AgentLine) (m : CohMsg) : State :=
  cohAct s home typ m (fun h =>
    let a := agentSnooped { s with cohOut := takeOut typ agent h.tag h.line s.cohOut } typ agent h.line held
    let ans : CohOut := match a.1 with
      | none => ⟨0x28, 256 + home, home, agent, h.tag, h.line, [], 0, false⟩
      | some (dirty, d) => ⟨0x29, 256 + home, home, agent, h.tag, h.line, d, 0, dirty⟩
    { a.2 with cohOut := a.2.cohOut ++ [ans] })

/-- R305, R306: a snoop answer reaches the home; one that answers no open transaction, by its tag, agent and line, changes
nothing. -/
def snoopAnswer (s : State) (home : Nat) (h : CohHdr) (ans : Option (Bool × List Byte)) : State :=
  let s := { s with cohOut := takeOut h.typ (256 + home) h.tag h.line s.cohOut }
  match awaitingTxn s home h.src h.line with
  | none => s
  | some t =>
    if t.req.tag = h.tag then answered (takeAnswer s (requesterWays s t.req.src) (snoopType t h.line) h.src h.line ans) t h.src h.line else s

/-- R311: the first waiting request of a set whose line has no open transaction. -/
def nextWaiting (s : State) (set : Nat) (l : List CohReq) : Option CohReq :=
  l.find? (fun r => dirSet r.line == set && !pinned s r.line)

/-- R311: the home admits the next waiting request of a set that has a free place: a reserved slot's first. -/
def admitNext (s : State) (home set : Nat) : State :=
  if openInSet s home set < 8 then
    match nextWaiting s set (reservedOf s home) with
    | some r => admitWaiting (count (setReserved s home ((reservedOf s home).erase r)) .dirReserved home 0) home r
    | none =>
      match nextWaiting s set (homeQueueOf s home) with
      | some r => admitWaiting (setHomeQueue s home ((homeQueueOf s home).erase r)) home r
      | none => s
  else s

/-! ### The commands -/

/-- RD_SHARED (R305). -/
def execRdShared (home : Fin 4) (m : CohMsg) (s : State) : Host.Outcome State Fault Refusal :=
  .next (cohRequestRow s home.val 0x01 .rdShared m)

/-- RD_OWN (R305). -/
def execRdOwn (home : Fin 4) (m : CohMsg) (s : State) : Host.Outcome State Fault Refusal :=
  .next (cohRequestRow s home.val 0x02 .rdOwn m)

/-- UPGRADE (R305). -/
def execUpgrade (home : Fin 4) (m : CohMsg) (s : State) : Host.Outcome State Fault Refusal :=
  .next (cohRequestRow s home.val 0x03 .upgrade m)

/-- WB (R305, R306). -/
def execWb (home : Fin 4) (m : CohMsg) (s : State) : Host.Outcome State Fault Refusal :=
  .next (cohRequestAct s home.val 0x04 .writeBack m (fun h => giveBack s home.val h .writeBack (some m.payload)))

/-- EVICT (R305, R306). -/
def execEvict (home : Fin 4) (m : CohMsg) (s : State) : Host.Outcome State Fault Refusal :=
  .next (cohRequestAct s home.val 0x05 .evict m (fun h => giveBack s home.val h .evict none))

/-- RD_NC (R305, R318). -/
def execRdNc (home : Fin 4) (m : CohMsg) (s : State) : Host.Outcome State Fault Refusal :=
  .next (cohRequestRow s home.val 0x06 .rdNc m)

/-- WR_NC (R305, R315). -/
def execWrNc (home : Fin 4) (m : CohMsg) (s : State) : Host.Outcome State Fault Refusal :=
  .next (cohRequestRow s home.val 0x07 .wrNc m)

/-- ATOMIC with AOP SWAP (R317). -/
def execAtomicSwap (home : Fin 4) (m : CohMsg) (s : State) : Host.Outcome State Fault Refusal :=
  .next (atomicRow s home.val 0 m)

/-- ATOMIC with AOP CAS (R317). -/
def execAtomicCas (home : Fin 4) (m : CohMsg) (s : State) : Host.Outcome State Fault Refusal :=
  .next (atomicRow s home.val 1 m)

/-- ATOMIC with AOP ADD (R317). -/
def execAtomicAdd (home : Fin 4) (m : CohMsg) (s : State) : Host.Outcome State Fault Refusal :=
  .next (atomicRow s home.val 2 m)

/-- ATOMIC with AOP AND (R317). -/
def execAtomicAnd (home : Fin 4) (m : CohMsg) (s : State) : Host.Outcome State Fault Refusal :=
  .next (atomicRow s home.val 3 m)

/-- ATOMIC with AOP OR (R317). -/
def execAtomicOr (home : Fin 4) (m : CohMsg) (s : State) : Host.Outcome State Fault Refusal :=
  .next (atomicRow s home.val 4 m)

/-- ATOMIC with AOP XOR (R317). -/
def execAtomicXor (home : Fin 4) (m : CohMsg) (s : State) : Host.Outcome State Fault Refusal :=
  .next (atomicRow s home.val 5 m)

/-- ATOMIC with AOP SMIN (R317). -/
def execAtomicSmin (home : Fin 4) (m : CohMsg) (s : State) : Host.Outcome State Fault Refusal :=
  .next (atomicRow s home.val 6 m)

/-- ATOMIC with AOP SMAX (R317). -/
def execAtomicSmax (home : Fin 4) (m : CohMsg) (s : State) : Host.Outcome State Fault Refusal :=
  .next (atomicRow s home.val 7 m)

/-- ATOMIC with AOP UMIN (R317). -/
def execAtomicUmin (home : Fin 4) (m : CohMsg) (s : State) : Host.Outcome State Fault Refusal :=
  .next (atomicRow s home.val 8 m)

/-- ATOMIC with AOP UMAX (R317). -/
def execAtomicUmax (home : Fin 4) (m : CohMsg) (s : State) : Host.Outcome State Fault Refusal :=
  .next (atomicRow s home.val 9 m)

/-- ATOMIC with AOP FADD (R317, R139). -/
def execAtomicFadd (home : Fin 4) (m : CohMsg) (s : State) : Host.Outcome State Fault Refusal :=
  .next (atomicRow s home.val 10 m)

/-- ATOMIC with AOP FMIN (R317, R158). -/
def execAtomicFmin (home : Fin 4) (m : CohMsg) (s : State) : Host.Outcome State Fault Refusal :=
  .next (atomicRow s home.val 11 m)

/-- ATOMIC with AOP FMAX (R317, R158). -/
def execAtomicFmax (home : Fin 4) (m : CohMsg) (s : State) : Host.Outcome State Fault Refusal :=
  .next (atomicRow s home.val 12 m)

/-- ATOMIC with AOP SC (R317, R318). -/
def execAtomicSc (home : Fin 4) (m : CohMsg) (s : State) : Host.Outcome State Fault Refusal :=
  .next (atomicRow s home.val 13 m)

/-- REDUCE (R319). -/
def execReduce (home : Fin 4) (m : CohMsg) (s : State) : Host.Outcome State Fault Refusal :=
  .next (cohRequestRow s home.val 0x09 .reduce m)

/-- DATA_S (R305): a caching requester keeps a clean shared copy of what RD_SHARED asked for. -/
def execDataS (home : Fin 4) (m : CohMsg) (s : State) : Host.Outcome State Fault Refusal :=
  .next (cohReplyRow s home.val 0x10 m (fun h o =>
    let s := replied s h
    if o.req.typ == .rdShared then putCopy s h.src h.line false m.payload else s))

/-- DATA_E (R305): the requester owns the line. -/
def execDataE (home : Fin 4) (m : CohMsg) (s : State) : Host.Outcome State Fault Refusal :=
  .next (cohReplyRow s home.val 0x11 m (fun h _ => putCopy (replied s h) h.src h.line true m.payload))

/-- GRANT (R305): the requester's copy becomes its own. -/
def execCohGrant (home : Fin 4) (m : CohMsg) (s : State) : Host.Outcome State Fault Refusal :=
  .next (cohReplyRow s home.val 0x12 m (fun h _ =>
    let s := replied s h
    { s with copies := s.copies.map (fun c =>
        if c.agent = h.src ∧ c.line = h.line then { c with excl := true } else c) }))

/-- COMPLETE (R305). -/
def execCohComplete (home : Fin 4) (m : CohMsg) (s : State) : Host.Outcome State Fault Refusal :=
  .next (cohReplyRow s home.val 0x13 m (fun h _ => replied s h))

/-- ATOMIC_RESULT (R317). -/
def execAtomicResult (home : Fin 4) (m : CohMsg) (s : State) : Host.Outcome State Fault Refusal :=
  .next (cohReplyRow s home.val 0x14 m (fun h _ => replied s h))

/-- R309: NACK: the requester resends with REFUSALS one higher, at most 8. -/
def execCohNack (home : Fin 4) (m : CohMsg) (s : State) : Host.Outcome State Fault Refusal :=
  .next (cohReplyRow s home.val 0x15 m (fun h o => noteAgain (replied s h) { o with refusals := min 8 (o.refusals + 1) }))

/-- DENIED (R313). -/
def execCohDenied (home : Fin 4) (m : CohMsg) (s : State) : Host.Outcome State Fault Refusal :=
  .next (cohReplyRow s home.val 0x17 m (fun h _ => replied s h))

/-- SNP_INV (R307). -/
def execSnpInv (home : Fin 4) (agent : Fin 132) (m : CohMsg) (s : State) : Host.Outcome State Fault Refusal :=
  .next (snoopRow s home.val agent.val 0x20 .clean m)

/-- SNP_DATA (R305, R307). -/
def execSnpData (home : Fin 4) (a : Snooped) (m : CohMsg) (s : State) : Host.Outcome State Fault Refusal :=
  .next (snoopRow s home.val a.agent.val 0x21 a.held m)

/-- SNP_INV_DATA (R305, R307). -/
def execSnpInvData (home : Fin 4) (a : Snooped) (m : CohMsg) (s : State) : Host.Outcome State Fault Refusal :=
  .next (snoopRow s home.val a.agent.val 0x22 a.held m)

/-- SNP_ACK (R305). -/
def execSnpAck (home : Fin 4) (m : CohMsg) (s : State) : Host.Outcome State Fault Refusal :=
  .next (cohAct s home.val 0x28 m (fun h => snoopAnswer s home.val h none))

/-- SNP_ACK_DATA (R305). -/
def execSnpAckData (home : Fin 4) (m : CohMsg) (s : State) : Host.Outcome State Fault Refusal :=
  .next (cohAct s home.val 0x29 m (fun h => snoopAnswer s home.val h (some (h.dirty, m.payload))))

/-- HOME_QUEUE_ADMIT (R311): the home admits the next waiting request of a set: a reserved slot's first. -/
def execHomeQueueAdmit (home : Fin 4) (set : Fin 32768) (s : State) : Host.Outcome State Fault Refusal :=
  .next (admitNext s home.val set.val)

/-- SNOOP_TIMEOUT (R312): an answer for the line has been outstanding for 64 beats. -/
def execSnoopTimeout (home : Fin 4) (line : BitVec 37) (s : State) : Host.Outcome State Fault Refusal :=
  .next (
    match s.txns.find? (fun t => t.home == home.val && t.awaiting.any (fun p => p.2 == line.toNat)) with
    | none => s
    | some t => if s.beat.waits < t.since + 64 then s else timeoutTxn s t line.toNat)

end Sys2Proof.Machine
end

