-- ==== Sys2Proof/Machine/Access.lean ====
section
/-!
DEFINITION. The accesses that the module's own engines make through a line's home (R268, R297, R304, R305, R313, R315). An engine's
access is one step of the command that makes it: the answers that its home must await, to snoops of its own and of the transactions
ahead of it, come within the step, with whatever the agents may answer as free values (log entry 77).
-/
namespace Sys2Proof.Machine

/-! ### The home's part in an engine's access -/

/-- What an agent has of a line when the model makes it answer a snoop: an owner's copy may be modified, to bytes that no rule gives
(log entry 77). -/
def freeHeld (s : State) (agent line : Nat) : AgentLine × State :=
  if s.copies.any (fun c => c.agent == agent && c.line == line && c.excl) then
    let f := takeFree s
    if f.1.toNat % 2 = 1 then
      let d := freeBytes f.2 128
      (.modified d.1, d.2)
    else (.clean, f.2)
  else (.clean, s)

/-- A snoop of a type sent to an agent and answered at once, and what the answer brings to the home. -/
def snoopNow (s : State) (ways typ line agent : Nat) : State :=
  let h := freeHeld s agent line
  let a := agentSnooped h.2 typ agent line h.1
  afterSnoop (takeAnswer a.2 ways typ agent line a.1) typ agent line

/-- A holder's answer, already under way to the home, that an open transaction awaits. -/
def answerUnderWay (s : State) (t : Txn) (agent line : Nat) : Option CohOut :=
  s.cohOut.find? (fun m => m.dest == 256 + t.home && m.src == agent && m.tag == t.req.tag && m.line == line)

/-- An answer that a transaction awaits arrives: the one under way, or the one that the agent gives now. -/
def answerNow (s : State) (t : Txn) (agent line : Nat) : State :=
  let typ := snoopType t line
  let ways := requesterWays s t.req.src
  match answerUnderWay s t agent line with
  | some m =>
    let s := { s with cohOut := takeOut m.typ m.dest m.tag m.line s.cohOut }
    answered (takeAnswer s ways typ agent line (if m.typ = 0x29 then some (m.dirty, m.payload) else none)) t agent line
  | none =>
    let s := { s with cohOut := s.cohOut.filter (fun m =>
      !(decide (0x20 ≤ m.typ ∧ m.typ ≤ 0x22) && m.dest == agent && m.tag == t.req.tag && m.line == line)) }
    let h := freeHeld s agent line
    let a := agentSnooped h.2 typ agent line h.1
    answered (takeAnswer a.2 ways typ agent line a.1) t agent line

/-- The answers that a transaction awaits arrive, in order. -/
def answerAll (t : Txn) : List (Nat × Nat) → State → State
  | [], s => s
  | p :: rest, s => answerAll t rest (answerNow s { t with awaiting := p :: rest } p.1 p.2)

/-- An open transaction comes to its end: every answer arrives, or none comes from an agent that has failed and it times out
(R312). -/
def endTxn (s : State) (t : Txn) : State :=
  match t.awaiting.find? (fun p => agentFailed s p.1) with
  | some p => timeoutTxn s t p.2
  | none => answerAll t t.awaiting s

/-- R304, R311: what stands before a request for a line at its home comes to its end, until the home can admit it: the transaction of
the line, those that fill its set, and the requests that wait ahead of it. `n` bounds their number. -/
def settleLine (home line : Nat) : Nat → State → State
  | 0, s => s
  | n + 1, s =>
    if canAdmit s home line then s
    else
      match s.txns.find? (fun t => t.req.line == line || t.awaiting.any (fun p => p.2 == line)) with
      | some t => settleLine home line n (endTxn s t)
      | none =>
        if openInSet s home (dirSet line) < 8 then settleLine home line n (admitNext s home (dirSet line))
        else
          match s.txns.find? (fun t => t.home == home && dirSet t.req.line == dirSet line) with
          | some t => settleLine home line n (endTxn s t)
          | none => s

/-- R308: the entry that a full set gives up for a line, its holders snooped. -/
def roomNow (s : State) (ways home line : Nat) : State :=
  let v := makeRoom s ways home line
  match v.1 with
  | some (vl, typ, hs) => hs.foldl (fun s a => snoopNow s ways typ vl a) v.2
  | none => v.2

/-- R315: an atomic or a reduction of a sector of a line that no agent owns meets poison, so that it changes no state. -/
def openPoisoned (s : State) (line : Nat) (sector : Option Nat) : Bool :=
  (dirEntry s line).isSome && (ownerOf s line).isNone && sector.any (poisonAhead s line)

/-- R303 to R305, R308, R313: an engine's read (`inval` false) or write of a line reaches its home and is admitted, and its snoops are
answered; a reduction names its sector, and snoops nobody where it meets poison. True when the home answers POISONED, since a
failed agent owns the line. -/
def engineOpen (s : State) (ways line : Nat) (inval : Bool) (sector : Option Nat := none) : Bool × State :=
  let home := homeOf s (128 * line)
  let s := setLost s line 0
  let s := settleLine home line (s.txns.length + 2 * ((homeQueueOf s home).length + (reservedOf s home).length)) s
  if lostOwner s line then (true, setLost (loseLine s ways home ((ownerOf s line).getD 0) line) line (0x2820 + home))
  else if openPoisoned s line sector then (false, s)
  else
    let s := roomNow s ways home line
    let hs := liveHolders s line
    match ownerOf s line with
    | some o => (false, snoopNow s ways (if inval then 0x22 else 0x21) line o)
    | none => (false, if inval then putHolders (hs.foldl (fun s a => snoopNow s ways 0x20 line a) s) line false [] else s)

/-! ### Engine accesses -/

/-- Part of a read that lies within one sector: its address and length, and its bytes unless the sector is poisoned. -/
structure Piece where
  addr : Nat
  len  : Nat
  data : Option (List Byte)
  deriving DecidableEq, Repr

/-- A range cut into sectors. -/
def sectorsOf (a n : Nat) : List (Nat × Nat) := cutRange 32 (n / 32 + 2) a n

/-- A range cut into lines. -/
def linesOf (a n : Nat) : List (Nat × Nat) := cutRange 128 (n / 128 + 2) a n

/-- The pieces of a cellar line that a part of it gives. -/
def linePieces (c : CelLine) (a n : Nat) : List Piece :=
  (sectorsOf a n).map (fun p =>
    ⟨p.1, p.2, if natBit c.poison.toNat (p.1 / 32 % 4) then none else some (slice c.data (p.1 % 128) p.2)⟩)

/-- The pieces of a read that its home has answered POISONED. -/
def poisonedPieces (a n : Nat) : List Piece := (sectorsOf a n).map (fun p => ⟨p.1, p.2, none⟩)

/-- An engine's read of part of one line through its home (RD_NC of R305): POISONED when a failed agent owns the line (R313), and the
poisoned sectors without data (R315). In a retired unit it is DENIED (R286): it delivers no
data, so what the engine takes are free bytes (log entry 21). -/
def readLine (s : State) (ways a n : Nat) : List Piece × State :=
  let line := a / 128
  if isRetired s a then
    let f := freeBytes (raiseEvent s (retiredSrc s a)) n
    ((sectorsOf a n).map (fun p => ⟨p.1, p.2, some (slice f.1 (p.1 - a) p.2)⟩), f.2)
  else
  let o := engineOpen s ways line false
  if o.1 then (poisonedPieces a n, o.2)
  else
    let s := fetchLine o.2 line ways
    match cellarLine s line with
    | none => ([], s)
    | some c =>
      let ps := linePieces c a n
      (ps, if ps.any (fun p => p.data.isNone) then poisonSeen s (homeOf s a) else s)

/-- A read of a range: through the homes for HBM and the capacity tier, directly for a cluster store. -/
def readPieces (s : State) (ways : Nat) : List (Nat × Nat) → List Piece × State
  | [] => ([], s)
  | (a, n) :: t =>
    let r := if inStore a then
        let b := windowBytes s a n
        ((sectorsOf a n).map (fun p => ⟨p.1, p.2, some (slice b.1 (p.1 - a) p.2)⟩), b.2)
      else readLine s ways a n
    let q := readPieces r.2 ways t
    (r.1 ++ q.1, q.2)

/-- An engine's read of `n` bytes from an address. -/
def readRange (s : State) (ways a n : Nat) : List Piece × State := readPieces s ways (linesOf a n)

/-- The first poisoned address of a read. -/
def firstPoison (ps : List Piece) : Option Nat := (ps.find? (fun p => p.data.isNone)).map (·.addr)

/-- The bytes of a read without poison, in order. -/
def pieceBytes (ps : List Piece) : List Byte := ps.flatMap (fun p => p.data.getD [])

/-- The pieces of a read as bytes, with free bytes for the poisoned ones (R280). -/
def fillPieces : List Piece → State → List Byte × State
  | [], s => ([], s)
  | p :: t, s =>
    let f := match p.data with
      | some b => (b, s)
      | none => freeBytes s p.len
    let r := fillPieces t f.2
    (f.1 ++ r.1, r.2)

/-- R315: part of a sector merged into a cellar line: a poisoned sector takes only a write of all its 32 bytes. -/
def mergeSector (s : State) (home : Nat) (c : CelLine) (a : Nat) (bytes : List Byte) : CelLine × State :=
  let k := a / 32 % 4
  let s := if natBit c.poison.toNat k then poisonSeen s home else s
  if natBit c.poison.toNat k && decide (bytes.length < 32) then
    (c, raiseEvent (setFlag s .celStatus home 0 9) (tileSrc home 21))
  else
    ({ c with data := splice c.data (a % 128) bytes, dirty := true, poison := c.poison &&& ~~~(1#4 <<< k) }, s)

/-- The sectors of one line's write merged in order. -/
def mergeSectors (s : State) (home : Nat) (c : CelLine) (bytes : List Byte) (base : Nat) :
    List (Nat × Nat) → CelLine × State
  | [] => (c, s)
  | (a, n) :: t =>
    let r := mergeSector s home c a (slice bytes (a - base) n)
    mergeSectors r.2 home r.1 bytes base t

/-- An engine's write of part of one line through its home (WR_NC of R305), as it changes the line; nothing when the home answers
POISONED for a failed owner (R313). -/
def storeLine (s : State) (ways a : Nat) (bytes : List Byte) : State :=
  let line := a / 128
  let home := homeOf s a
  let o := engineOpen s ways line true
  if o.1 then o.2
  else
    let s := fetchLine (clearReservations o.2 line none) line ways
    match cellarLine s line with
    | none => s
    | some c =>
      let r := mergeSectors s home c bytes a (sectorsOf a bytes.length)
      setCellarLine r.2 line (some r.1)

/-- An engine's write of part of one line through its home; in a retired unit it is DENIED and changes nothing (R286). -/
def writeLine (s : State) (ways a : Nat) (bytes : List Byte) : State :=
  if isRetired s a then raiseEvent s (retiredSrc s a) else doorbellMisuse (storeLine s ways a bytes) (a / 128)

/-- A write of a string cut into the given lines. -/
def writePieces (s : State) (ways : Nat) (bytes : List Byte) : List (Nat × Nat) → State
  | [] => s
  | (a, n) :: t =>
    let b := bytes.take n
    writePieces (if inStore a then setBytes s a b else writeLine s ways a b) ways (bytes.drop n) t

/-- An engine's write of a string from an address on. -/
def writeRange (s : State) (ways a : Nat) (bytes : List Byte) : State :=
  writePieces s ways bytes (linesOf a bytes.length)

/-- R313: an engine's write of a range met a line that a failed agent owned: the detail with which its home answered. -/
def writeLost (s : State) (a n : Nat) : Option Nat :=
  ((linesOf a n).map (fun p => mapGet (fun _ => 0) s.lost (p.1 / 128))).find? (fun d => d != 0)

/-- An engine's write of a string, with the detail of its first line that a failed agent owned (R313). -/
def putRange (s : State) (ways a : Nat) (bytes : List Byte) : Option Nat × State :=
  let t := writeRange s ways a bytes
  (writeLost t a bytes.length, t)

/-- R280: a read's pieces written at the same offsets from `dst`; a poisoned sector leaves its destination undefined. With the detail
of the first write that was answered POISONED (R313). -/
def copyPieces (ways src dst : Nat) : Option Nat → List Piece → State → Option Nat × State
  | e, [], s => (e, s)
  | e, p :: t, s =>
    let f := match p.data with
      | some b => (b, s)
      | none => freeBytes s p.len
    let w := putRange f.2 ways (dst + (p.addr - src)) f.1
    copyPieces ways src dst (e <|> w.1) t w.2

/-- R268, R269: a read of one aligned sector on the sector tap; in the capacity tier it is a line access. None of a poisoned sector,
or of a line that a failed agent owns (R313). -/
def tapRead (s : State) (ways sec : Nat) : Option (List Byte) × State :=
  let a := 32 * sec
  if inHbm a && !isRetired s a then
    let u := unitOf s a
    let o := engineOpen s ways (a / 128) false
    let s := count o.2 .memTapSectors (unitSite u) (unitLocal u)
    let mem := fun (s : State) =>
      let s := senseSector s sec
      (if sectorPoison s sec then none else some (memBytes s a 32), s)
    if o.1 then (none, s)
    else
      match cellarLine s (a / 128) with
      | some c =>
        if c.dirty then
          (if natBit c.poison.toNat (sec % 4) then (none, poisonSeen s (homeOf s a)) else (some (slice c.data (a % 128) 32), s))
        else mem s
      | none => mem s
  else
    let r := readRange s ways a 32
    (if (firstPoison r.1).isSome then none else some (pieceBytes r.1), r.2)

/-- R268, R269: a write of one aligned sector on the sector tap; nothing when the home answers POISONED for a failed owner (R313). -/
def tapWrite (s : State) (ways sec : Nat) (bytes : List Byte) : State :=
  let a := 32 * sec
  if inHbm a && !isRetired s a then
    let u := unitOf s a
    let o := engineOpen s ways (a / 128) true
    let s := count o.2 .memTapSectors (unitSite u) (unitLocal u)
    if o.1 then s
    else
      let s := doorbellMisuse (clearReservations s (a / 128) none) (a / 128)
      let s := storeSector s sec bytes
      match cellarLine s (a / 128) with
      | some c =>
        let s := if natBit c.poison.toNat (sec % 4) then poisonSeen s (homeOf s a) else s
        setCellarLine s (a / 128) (some { c with
          data := splice c.data (a % 128) bytes, poison := c.poison &&& ~~~(1#4 <<< (sec % 4)) })
      | none => s
  else writeRange s ways a bytes

end Sys2Proof.Machine
end

