-- ==== Sys2Proof/Machine/Path.lean ====
section
/-!
DEFINITION. Sending on the network: the Icrun header (R329), outbound paths (R332, R335, R337), the choice of a port (R346,
R347), and messages to RoCE queue pairs (R355).
-/
namespace Sys2Proof.Machine

/-- The module's package ID (R351). -/
def ownPkg (s : State) : Nat := (getReg s .netPkgId 0 0).toNat % 65536

/-- R341, R351: the transport sends only with a package ID and after the first resynchronisation. -/
def transportOn (s : State) : Bool := decide (ownPkg s ≠ 0xFFFF) && s.beat.synced

/-- A network port. -/
def port (s : State) (n : Nat) : Port := mapGet (fun _ => Port.reset) s.ports n

/-- A network port replaced. -/
def setPort (s : State) (n : Nat) (p : Port) : State := { s with ports := mapSet (fun _ => Port.reset) s.ports n p }

/-- A header with its HCRC computed (R329). -/
def sealHeader (h : List Byte) : List Byte := splice h 36 (beBytes 4 (crc32c (h.take 36)))

/-- The fields of an Icrun header that a sender sets. -/
structure PktFields where
  typ    : Nat
  last   : Bool
  retx   : Bool
  ece    : Bool
  open_  : Bool
  len    : Nat
  dst    : Nat
  path   : Nat
  seq    : Nat
  ackSeq : Nat
  nak    : Nat
  addr   : Nat
  msg    : Nat
  deriving DecidableEq, Repr

/-- R329: the header of a packet the module sends; HOPS starts at HOPS_INIT and the class at 0. -/
def icrunHeader (s : State) (f : PktFields) : List Byte :=
  let hops := getBits (getReg s .netTransport 0 0) 40 6
  sealHeader (beBytes 1 (16 + f.typ)
    ++ beBytes 1 (boolNat f.last + 2 * boolNat f.retx + 4 * boolNat f.ece + 8 * boolNat f.open_)
    ++ beBytes 2 f.len ++ beBytes 2 (ownPkg s) ++ beBytes 2 f.dst
    ++ beBytes 4 (getReg s .netEpoch 0 0).toNat ++ beBytes 2 f.path ++ beBytes 3 f.seq ++ beBytes 1 hops
    ++ beBytes 3 f.ackSeq ++ beBytes 1 f.nak ++ beBytes 2 0 ++ beBytes 8 f.addr ++ beBytes 4 f.msg ++ beBytes 4 0)

/-- R346: the up ports of a route entry's PORTS mask, in ascending order; none of an invalid entry. -/
def routePorts (s : State) (dst : Nat) : List Nat :=
  let e := getReg s .netRoute 0 dst
  if natBit e.toNat 63 then (bitsSet (getBits e 0 16) 16).filter (fun p => (port s p).up) else []

/-- R347: a header leaving on a port, its class raised on a dateline; none when it would pass 3. -/
def leaveClass (s : State) (dst p : Nat) (h : List Byte) : Option (List Byte) :=
  let b := (h.getD 17 0).toNat
  if natBit (getReg s .netRoute 0 dst).toNat (16 + p) then
    (if b / 64 = 3 then none else some (sealHeader (splice h 17 [BitVec.ofNat 8 (b + 64)])))
  else some h

/-- R322: the tile of a port. -/
def portTile (n : Nat) : Nat := n / 4

/-- `NET_PORT_CTRL` of a port. -/
def portCtrl (s : State) (n : Nat) : Word := getReg s .netPortCtrl (portTile n) (n % 4)

/-- R327: a port in DIRECT mode. -/
def isDirect (s : State) (n : Nat) : Bool := !natBit (portCtrl s n).toNat 1

/-- R326: `NET_STATUS`.IPV6 of a tile: Icrun travels over IPv6. -/
def usesIpv6 (s : State) (tile : Nat) : Bool := natBit (getReg s .netStatus tile 0).toNat 2

/-- R326: the Icrun IP address of a package: its ID appended to the fabric prefix. -/
def packageIp (s : State) (v6 : Bool) (pkg : Nat) : Nat :=
  if v6 then (getReg s .netPrefix6Hi 0 0).toNat * 2 ^ 64 + getBits (getReg s .netPrefix6Lo 0 0) 16 48 * 2 ^ 16 + pkg
  else getBits (getReg s .netPrefix4 0 0) 0 16 * 2 ^ 16 + pkg

/-- R327: the MAC address that a port sends its frames to: its neighbour's in DIRECT mode, else its gateway's. -/
def nextMac (s : State) (n : Nat) : Nat :=
  getBits (getReg s (if isDirect s n then .netPortNeighbour else .netPortGwMac) (portTile n) (n % 4)) 0 48

/-- R325, R328: a frame that a port sends, its tag, DSCP, ECT(0) and Don't Fragment included, between the given ends. -/
def frameBetween (s : State) (n dstMac : Nat) (v6 : Bool) (srcIp dstIp srcPort dstPort : Nat) : FrameOut :=
  let c := portCtrl s n
  let vlan := getBits c 12 12
  { srcMac := getBits (getReg s .netPortMac (portTile n) (n % 4)) 0 48, dstMac := dstMac
    vlan := if vlan = 0 then none else some (vlan, getBits c 9 3)
    dscp := getBits c 2 6, ecn := 2, df := true, ipv6 := v6
    srcIp := srcIp, dstIp := dstIp, srcPort := srcPort, dstPort := dstPort }

/-- R325 to R328: the frame in which a port sends an Icrun packet, from SRC_PKG's address to DST_PKG's. -/
def frameOf (s : State) (n : Nat) (p : Packet) : FrameOut :=
  let v6 := usesIpv6 s (portTile n)
  frameBetween s n (nextMac s n) v6 (packageIp s v6 (fieldBe p.hdr 4 2)) (packageIp s v6 (fieldBe p.hdr 6 2))
    (0xC000 + fieldBe p.hdr 12 2 % 4096) 0xBE1C

/-- A packet sent on a port, in its frame. -/
def sendOn (s : State) (n : Nat) (p : Packet) : State := { s with netOut := s.netOut ++ [⟨n, frameOf s n p, p⟩] }

/-- R325: a packet put on a port, which holds it while priority flow control pauses the port's class. -/
def putOn (s : State) (n : Nat) (p : Packet) : State :=
  let v := port s n
  if v.paused then setPort s n { v with held := v.held ++ [p] } else sendOn s n p

/-- R346, R347: a packet leaves the module on the port of its path; a packet to the module itself stays within it. A tile counts what
finds no way. -/
def emitPacket (s : State) (tile : Nat) (p : Packet) : State :=
  let src := fieldBe p.hdr 4 2
  let dst := fieldBe p.hdr 6 2
  let path := fieldBe p.hdr 12 2 % 4096
  if dst = ownPkg s then { s with loopback := s.loopback ++ [p] }
  else
    let ports := routePorts s dst
    match ports[(src + path) % ports.length]? with
    | none => count s .netNoRoute tile 0
    | some n =>
      match leaveClass s dst n p.hdr with
      | none => count s .netNoRoute tile 0
      | some h => putOn s n ⟨h, p.payload⟩

/-- The key of an outbound path. -/
def pathKey (pkg path : Nat) : Nat := pkg * 4096 + path

/-- An outbound path. -/
def outPath (s : State) (k : Nat) : OutPath := mapGet (fun _ => OutPath.fresh) s.outPaths k

/-- An outbound path replaced. -/
def setOutPath (s : State) (k : Nat) (p : OutPath) : State :=
  { s with outPaths := mapSet (fun _ => OutPath.fresh) s.outPaths k p }

/-- R338: a tile has room for an outbound path: the path has its entry, or fewer than 4,096 paths of the tile have one. -/
def pathRoom (s : State) (pkg path : Nat) : Bool :=
  decide (outPath s (pathKey pkg path) ≠ OutPath.fresh)
    || decide ((s.outPaths.filter (fun e => e.1 % 4 == path % 4)).length < 4096)

/-- R332, R335: one numbered packet sent on a path and kept until it is acknowledged; the first packet of an opened path
carries OPEN. The packet waits in the path while 1,024 are unacknowledged (R603) or the transport sends nothing (R341,
R351); one that would need a 4,097th outbound path of its tile (R338) is not sent (DESIGN CHOICE, log entry 41). -/
def sendPacket (s : State) (pkg path : Nat) (f : PktFields) (payload : List Byte) (cmd : Option Nat) : State :=
  if !pathRoom s pkg path then s else
  let k := pathKey pkg path
  let o := outPath s k
  let h := icrunHeader s { f with dst := pkg, path := path, seq := o.nextSeq, open_ := o.open_, len := payload.length }
  let p : Packet := ⟨h, payload⟩
  let o' := { o with
    nextSeq := (o.nextSeq + 1) % 2 ^ 24, open_ := false
    unacked := o.unacked ++ [⟨o.nextSeq, p, cmd, f.last⟩]
    since := if o.unacked.isEmpty then s.beat.waits else o.since }
  let s := setOutPath s k o'
  if transportOn s && decide (o.unacked.length < 1024) then emitPacket s (path % 4) p else s

/-- A packet's fields with every option off. -/
def plainFields (typ : Nat) : PktFields := ⟨typ, false, false, false, false, 0, 0, 0, 0, 0, 0, 0, 0⟩

/-- Bytes cut into payloads of `n` bytes at most. -/
def cutBytes (n : Nat) : Nat → List Byte → List (List Byte)
  | 0, _ => []
  | fuel + 1, l => if l.isEmpty then [] else l.take n :: cutBytes n fuel (l.drop n)

/-- The bytes of a transfer cut into the payloads of its packets, 4,096 bytes at most (R329). -/
def cutPayload (fuel : Nat) (l : List Byte) : List (List Byte) := cutBytes 4096 fuel l

/-- The WRITE packets of a transfer from an address on, the last one marked. -/
def sendChunks (s : State) (pkg path typ msg : Nat) (cmd : Option Nat) : Nat → List (List Byte) → State
  | _, [] => s
  | addr, c :: t =>
    let s := sendPacket s pkg path { plainFields typ with last := t.isEmpty, addr := addr, msg := msg } c cmd
    sendChunks s pkg path typ msg cmd (addr + c.length) t

/-- R329, R330: a transfer sent as packets of one message. -/
def sendTransfer (s : State) (pkg path typ addr msg : Nat) (bytes : List Byte) (cmd : Option Nat) : State :=
  sendChunks s pkg path typ msg cmd addr (cutPayload (bytes.length / 4096 + 1) bytes)

/-- A message number taken (R329). -/
def takeMsg (s : State) : Nat × State := (s.nextMsg, { s with nextMsg := (s.nextMsg + 1) % 2 ^ 32 })

/-- R333 to R338: an ACK or NAK sent back on an inbound path; it takes no sequence number. -/
def sendControl (s : State) (pkg path : Nat) (f : PktFields) (payload : List Byte) : State :=
  if transportOn s then
    emitPacket s (path % 4) ⟨icrunHeader s { f with dst := pkg, path := path, len := payload.length }, payload⟩
  else s

/-- A queue pair. -/
def qpair (s : State) (q : Nat) : QueuePair := mapGet (fun _ => QueuePair.reset) s.qps q

/-- A queue pair replaced. -/
def setQpair (s : State) (q : Nat) (p : QueuePair) : State :=
  { s with qps := mapSet (fun _ => QueuePair.reset) s.qps q p }

/-- R325, R327, R328: the frame of a queue pair's packet on a port: to the gateway on a SWITCHED port, to UDP port 4791. -/
def roceFrame (s : State) (n qp : Nat) : FrameOut :=
  let e := Config.roceEnds qp
  frameBetween s n (if isDirect s n then Config.roceMac qp else nextMac s n) e.1 e.2.1 e.2.2.1 e.2.2.2 4791

/-- R355: the payloads of a RoCE message's packets, each of the queue pair's path MTU at most; a message without data is one packet. -/
def rocePayloads (m : RoceMsg) : List (List Byte) :=
  if m.data.isEmpty then [[]] else cutBytes (1024 * 2 ^ (Config.roceMtu m.qp).val) m.data.length m.data

/-- R355: the packets of a RoCE message on a port, each with partition key 0xFFFF and its invariant CRC. -/
def rocePackets (s : State) (n : Nat) (m : RoceMsg) : List RoceOut :=
  let l := rocePayloads m
  l.zipIdx.map (fun e =>
    { port := n, frame := roceFrame s n m.qp, pkey := 0xFFFF, icrc := true, first := e.2 == 0, final := e.2 + 1 == l.length
      piece := { m with
        addr := m.addr + e.2 * 1024 * 2 ^ (Config.roceMtu m.qp).val, data := e.1
        len := if m.data.isEmpty then m.len else e.1.length } })

/-- R324, R325: a RoCE message put on its queue pair's port: a port that is down sends nothing, and a paused one holds the packets. -/
def putRoce (s : State) (m : RoceMsg) : State :=
  let n := Config.rocePort m.qp % 16
  let v := port s n
  if !v.up then s
  else if v.paused then setPort s n { v with heldRoce := v.heldRoce ++ rocePackets s n m }
  else { s with roceOut := s.roceOut ++ rocePackets s n m }

/-- R355: a message sent on a queue pair and kept until the host's adapter acknowledges it; an RNR NAK holds it back. -/
def sendRoce (s : State) (m : RoceMsg) : State :=
  let q := qpair s m.qp
  let s := setQpair s m.qp { q with out := q.out ++ [m] }
  if q.rnrHeld then s else putRoce s m

/-- An answer on a queue pair that no acknowledgement covers. -/
def answerRoce (s : State) (qp : Nat) (kind : RoceKind) (data : List Byte) : State :=
  putRoce s ⟨qp, kind, 0, 0, data.length, data, none, true⟩

end Sys2Proof.Machine
end

