-- ==== Sys2Proof/Machine/Ops.lean ====
section
/-!
DEFINITION. The shared life of a command (13_commands.md): the queue's acceptance checks (R403), the order of starting (R404),
completion (R405 to R407, R417), and the destinations of its outputs (R410, R423).
-/
namespace Sys2Proof.Machine

/-- A command queue. -/
def queue (s : State) (q : Nat) : Queue := mapGet (fun _ => Queue.free) s.queues q

/-- A command queue replaced. -/
def setQueue (s : State) (q : Nat) (v : Queue) : State := { s with queues := mapSet (fun _ => Queue.free) s.queues q v }

/-- R395: the core site whose front end fetches a queue. -/
def queueSite (q : Nat) : Nat := 4 + q / 128

/-- R410: the partition a queue's commands act for; none on queue 0, whose commands act for the module. -/
def queueWho (s : State) (q : Nat) : Option Nat := if q = 0 then none else some (queue s q).partition

/-- R408: a status code's number. -/
def statusCode : Status → Nat
  | .ok => 0x0000
  | .pending => 0x0001
  | .notReady => 0x0002
  | .badOpcode => 0x0010
  | .badParam => 0x0011
  | .badCrc => 0x0012
  | .badSequence => 0x0013
  | .noResource => 0x0020
  | .limitReached => 0x0021
  | .peerLost => 0x0030
  | .poisoned => 0x0031
  | .contextKilled => 0x0032
  | .deadlineMissed => 0x0033
  | .denied => 0x0040
  | .awaitingSecondKey => 0x0041
  | .streamCorrupt => 0x0050
  | .declaredSizeRejected => 0x0051
  | .staleDropped => 0x0052
  | .strapFault => 0x0060
  | .beatLost => 0x0061

/-- R405: a record's 32 bytes. -/
def recordBytes (r : Record) : List Byte :=
  let b := leBytes 4 r.ticket ++ leBytes 2 (statusCode r.status) ++ leBytes 2 r.detail ++ leBytes 8 r.stamp
    ++ leBytes 2 (r.path % 4096 + 4096 * (r.pathKind % 4))
    ++ leBytes 1 (boolNat r.defaultSeed + 2 * boolNat r.withheld + 4 * boolNat r.kept)
    ++ leBytes 1 r.queue ++ leBytes 8 r.value
  b ++ leBytes 4 (crc32c b)

/-- A write by the module for `who` from a site: carried out through the homes, or refused with its event (R259, R607). -/
def storeFor (s : State) (who : Option Nat) (site a : Nat) (bytes : List Byte) : State :=
  match accessError s who site a bytes.length with
  | some e => accessEvent s e
  | none => writeRange s (waysOf s who) a bytes

/-- R406: a record written at its slot of the completion ring, by the controller's kind. -/
def writeRecord (s : State) (q : Nat) (r : Record) : State :=
  let v := queue s q
  let a := v.cplAddr + 32 * (v.posted % 2 ^ v.ringLog2)
  let b := recordBytes r
  let s := setQueue s q { v with posted := (v.posted + 1) % 2 ^ 17 }
  match v.ctrlKind with
  | 0 => storeFor s (queueWho s q) (q % 4) (a % 2 ^ 44) b
  | 1 =>
    if a / 2 ^ 48 = ownPkg s then
      (if a / 2 ^ 44 % 16 = 0 then storeFor s (queueWho s q) (q % 4) (a % 2 ^ 44) b else raiseEvent s (absentSrc (q % 4) (a % 2 ^ 44)))
    else
      let m := takeMsg s
      sendTransfer m.2 v.pkg v.path 0 a m.1 b none
  | _ => sendRoce s ⟨v.path % 1024, .write, a, v.rkey, 32, b, none, true⟩

/-- R407: the completion ring has no free slot. -/
def ringFull (v : Queue) : Bool := (v.posted + 2 ^ 17 - v.cplHead) % 2 ^ 17 == 2 ^ v.ringLog2

/-- A queue posts records only while a controller is bound and no reset of it is outstanding (R430, R431). -/
def posting (v : Queue) : Bool := v.valid && v.attached && !v.barred

/-- R406, R407: a record posted, or held behind a full ring in completion order. -/
def postRecord (s : State) (q : Nat) (r : Record) : State :=
  let v := queue s q
  if !posting v then s
  else if ringFull v || !v.heldRecords.isEmpty then
    count (setQueue s q { v with heldRecords := v.heldRecords ++ [r] }) .cmdCplStalls (queueSite q) 0
  else writeRecord s q r

/-- R407: held records posted, oldest first, while the ring has room; `fuel` bounds their number. -/
def postHeld (s : State) (q : Nat) : Nat → State
  | 0 => s
  | fuel + 1 =>
    let v := queue s q
    match v.heldRecords with
    | [] => s
    | r :: t =>
      if ringFull v || !posting v then s
      else postHeld (writeRecord (setQueue s q { v with heldRecords := t }) q r) q fuel

/-- What a completion says beside the command's own fields. -/
structure Done where
  status   : Status
  detail   : Nat := 0
  value    : Nat := 0
  stamp    : Nat := 0
  path     : Nat := 0
  pathKind : Nat := 0
  seed     : Bool := false
  withheld : Bool := false
  deriving DecidableEq, Repr

/-- A completion record of a command (R405). -/
def doneRecord (q ticket : Nat) (kept : Bool) (d : Done) : Record :=
  ⟨ticket, d.status, d.detail, d.stamp, d.path, d.pathKind, d.seed, d.withheld, kept, q, d.value⟩

/-- A command in flight. -/
def findCmd (s : State) (id : Nat) : Option Cmd := s.cmds.find? (fun c => c.id == id)

/-- A command's fields replaced. -/
def setCmd (s : State) (id : Nat) (f : Cmd → Cmd) : State :=
  { s with cmds := s.cmds.map (fun c => if c.id = id then f c else c) }

/-- What a command waits for replaced. -/
def setWait (s : State) (id : Nat) (w : Wait) : State := setCmd s id (fun c => { c with wait := w })

/-- A command is a RUN or RUN_STEP. -/
def isRun : Instr → Bool
  | .run _ _ _ _ => true
  | .runStep _ _ _ _ _ _ => true
  | _ => false

/-- R101: every reply of a RUN or RUN_STEP carries DEFAULT_SEED when the context that it names has no seed. -/
def defaultSeedOf (i : Instr) (seed : Option (BitVec 64)) : Bool := isRun i && seed.isNone

/-- R423: what a completion says of the path that carried the command's output outside the module. -/
def Done.named (d : Done) (w : Wait) : Done :=
  match w with
  | .remoteWrite kind path _ => { d with pathKind := kind, path := path }
  | _ => d

/-- R406, R417: a command completes: it leaves the commands in flight, its record is kept when its ticket is not 0, and posted
unless R429 or R430 withdrew it. -/
def complete (s : State) (id : Nat) (d : Done) : State :=
  match findCmd s id with
  | none => s
  | some c =>
    let s := { s with cmds := s.cmds.filter (fun x => x.id != id) }
    let keep := decide (c.ticket ≠ 0 ∧ s.results.length < 65536)
    let d := d.named c.wait
    let r := doneRecord c.queue c.ticket keep { d with seed := d.seed || defaultSeedOf c.instr c.seed }
    let s := if keep then { s with results := s.results ++ [⟨c.queue, c.ticket, r, s.beat.waits⟩] } else s
    if c.posts then postRecord s c.queue r else s

/-- Several commands complete alike, oldest first. -/
def completeAll (s : State) (ids : List Nat) (d : Done) : State := ids.foldl (fun s id => complete s id d) s

/-- A command completes with a status and a detail. -/
def fail (s : State) (id : Nat) (st : Status) (detail : Nat) : State := complete s id { status := st, detail := detail }

/-- A command completes OK with a value. -/
def succeed (s : State) (id value : Nat) : State := complete s id { status := .ok, value := value }

/-! ### Acceptance -/

/-- R410: the scopes of opcodes. -/
inductive Scope where
  | system | partition | any
  deriving DecidableEq, Repr

/-- R410: a scope takes a queue's commands. -/
def scopeTakes : Scope → Nat → Bool
  | .system, q => q == 0
  | .partition, q => q != 0
  | .any, _ => true

/-- R403: the ticket names a command of the queue that is not released. -/
def ticketUsed (s : State) (q t : Nat) : Bool :=
  s.cmds.any (fun c => c.queue == q && c.ticket == t) || s.results.any (fun r => r.queue == q && r.ticket == t)

/-- R404: a command is a FENCE. -/
def isFence : Instr → Bool
  | .fence _ => true
  | _ => false

/-- R546: the context of a gated RUN_STEP. -/
def gatedCtx : Instr → Option Nat
  | .runStep _ x _ _ _ gate => if gate then some x.val else none
  | _ => none

/-- R545: a command is an AUDIT_ARM of a context that waits. -/
def armWaits (x : Nat) (c : Cmd) : Bool :=
  c.wait == .auditArm && (match c.instr with
    | .auditArm _ y _ _ _ => y.val == x
    | .auditDisarm _ y _ _ _ => y.val == x
    | _ => false)

/-- R546, R240, R545: commands of other queues hold a command back: a gated step waits for the earlier ones of its context and
for an AUDIT_ARM of it, a run for a ROUTE_TABLE_WRITE of its partition that waits. -/
def heldBack (s : State) (c : Cmd) : Bool :=
  (match gatedCtx c.instr with
    | some x => s.cmds.any (fun d => decide (d.id < c.id) && (gatedCtx d.instr == some x || armWaits x d))
    | none => false)
  || (isRun c.instr && s.cmds.any (fun d => d.wait == .routeWrite && queueWho s d.queue == queueWho s c.queue))

/-- R404: a command that has been accepted may start: the earlier commands of its queue have started, or completed where it or
a FENCE asks for that. -/
def startable (s : State) (c : Cmd) : Bool :=
  c.wait == .notStarted && !heldBack s c &&
    (s.cmds.filter (fun d => d.queue == c.queue && decide (d.id < c.id))).all (fun d =>
      !(c.ordered || isFence c.instr) && d.wait != .notStarted)

/-- R26: the commands that go on after a failed join. -/
def joinExempt (c : Cmd) : Bool :=
  match c.instr with
  | .nop _ => true
  | .queryCaps _ _ => true
  | .attach _ _ => true
  | .detach _ _ => true
  | .detachFree _ _ => true
  | .readResult _ _ _ _ => true
  | .releaseResult _ _ _ => true
  | _ => false

/-- A command that may start does: refused after a failed join (R26), and carried out otherwise. -/
def startWith (s : State) (c : Cmd) (start : State → Cmd → State) : State :=
  match s.failedJoin with
  | some j => if joinExempt c then start s c else fail s c.id .noResource (0x4000 + j)
  | none => start s c

/-- A packet refused under R403: it holds no ticket. -/
def refuse (s : State) (q ticket : Nat) (st : Status) (detail : Nat) (value : Nat := 0) (seed : Bool := false) : State :=
  postRecord s q (doneRecord q ticket false { status := st, detail := detail, value := value, seed := seed })

/-- A context. -/
def ctxOf (s : State) (n : Nat) : Context := mapGet (fun _ => Context.closed) s.ctxs n

/-- R233: the SET_SEED of a context that a waiting command is, when its queue may name that context: its number and its seed. -/
def seedWaiting (s : State) (x : Nat) (c : Cmd) : Option (Nat × BitVec 64) :=
  match c.instr with
  | .setSeed _ y v =>
    if y.val = x ∧ c.wait = .notStarted ∧ queueWho s c.queue = some (ctxOf s x).partition then some (c.id, v) else none
  | _ => none

/-- R233: the seed of a context in force for a command accepted now: that of the SET_SEED accepted last, started or not. -/
def seedInForce (s : State) (x : Nat) : Option (BitVec 64) :=
  let k := ctxOf s x
  if k.valid && !k.ending then
    match (s.cmds.filterMap (seedWaiting s x)).getLast? with
    | some w => if k.seedCmd < w.1 then some w.2 else k.seed
    | none => k.seed
  else k.seed

/-- R233, R369: the seed of the context that a command names, as it stands at the command's acceptance. -/
def seedFor (s : State) : Instr → Option (BitVec 64)
  | .run _ x _ _ => seedInForce s x.val
  | .runStep _ x _ _ _ _ => seedInForce s x.val
  | .bucketContribute _ _ _ x _ _ _ => seedInForce s x.val
  | _ => none

/-- A command recorded as accepted. -/
def recordCmd (s : State) (h : Hdr) (i : Instr) : State :=
  { s with cmds := s.cmds ++ [⟨s.nextCmd, i, h.queue.val, h.ticket.toNat, h.ordered, true, .notStarted, seedFor s i⟩]
           nextCmd := s.nextCmd + 1 }

/-- R403: the lower of two offsets. -/
def lowest (a b : Option Nat) : Option Nat := (a.toList ++ b.toList).min?

/-- R350: a global address has a reserved space code. -/
def spaceBad (a : Nat) : Bool := decide (2 ≤ a / 2 ^ 44 % 16)

/-- R350, R410: the packet byte offset of a command's destination field whose space code is reserved; for CTRL_KIND 2 it is a host
address, which has none. -/
def destReserved (s : State) (q : Nat) (i : Instr) : Option Nat :=
  let bad := fun (a o : Nat) => if (queue s q).ctrlKind ≠ 2 ∧ spaceBad a = true then some (16 + o) else none
  match i with
  | .readResult _ _ _ d => bad d.toNat 8
  | .queryCaps _ d => bad d.toNat 0
  | .auditRead _ _ d => bad d.toNat 8
  | .tallyRead _ _ _ d => bad d.toNat 8
  | .rollRead _ _ _ _ d => bad d.toNat 16
  | .ledgerRead _ d => bad d.toNat 8
  | .attest _ _ d => bad d.toNat 16
  | _ => none

/-- R403, R406: the checks of the teller that its header checks leave, in order; then the command is accepted, with a PENDING
reply when ACK asks for one. `bad` is the packet byte offset of the lowest parameter field that holds a reserved value, but for a
destination field. -/
def accept (s : State) (h : Hdr) (i : Instr) (sc : Scope) (bad : Option Nat) : State :=
  let q := h.queue.val
  let t := h.ticket.toNat
  let d := defaultSeedOf i (seedFor s i)
  if t ≠ 0 ∧ ticketUsed s q t then refuse s q t .badParam 0x2C07 0 d
  else if !scopeTakes sc q then refuse s q t .denied 0x2C40 0 d
  else if t ≠ 0 ∧ 65536 ≤ s.results.length then
    refuse (setFlag s .cmdStatus (queueSite q) 0 9) q t .limitReached 0x2C20 0 d
  else
    match lowest bad (destReserved s q i) with
    | some o => refuse s q t .badParam (0x2C80 + o) 0 d
    | none =>
      let s := recordCmd s h i
      if h.ack then postRecord s q (doneRecord q t false { status := .pending, seed := d }) else s

/-- The module takes commands: it is out of reset and the queue exists (R35, R396). -/
def takes (s : State) (h : Hdr) : Bool := s.phase == .running && (queue s h.queue.val).valid

/-- The last command accepted, when `id` is its number and it may start, is started. -/
def startNew (s : State) (id : Nat) (start : State → Cmd → State) : State :=
  match findCmd s id with
  | none => s
  | some c => if startable s c then startWith s c start else s

/-- A command packet reaches the teller: acceptance, then the start when R404 allows one at once. -/
def command (s : State) (h : Hdr) (i : Instr) (sc : Scope) (bad : Option Nat) (start : State → Cmd → State) : State :=
  if takes s h then startNew (accept s h i sc bad) s.nextCmd start else s

/-! ### Destinations -/

/-- Where a destination field leads by the queue's controller kind (R410). -/
inductive Dest where
  | local_ (a : Nat)
  | control (a : Nat)
  | icrun (pkg path a : Nat)
  | roce (qp rkey a : Nat)
  deriving DecidableEq, Repr

/-- R350, R410: a destination field read by the issuing queue's CTRL_KIND; a module address or a global address of the module itself is
local, in memory or in the control space by its space code, and any other global address is reached on the PATH that ATTACH gave the
queue, for a local controller too (DESIGN CHOICE, log entry 41). -/
def destOf (s : State) (q a : Nat) : Dest :=
  let v := queue s q
  if v.ctrlKind = 2 then .roce (v.path % 1024) v.rkey a
  else if a < 2 ^ 44 then .local_ a
  else if a / 2 ^ 48 = ownPkg s then (if a / 2 ^ 44 % 16 = 0 then .local_ (a % 2 ^ 44) else .control (a % 2 ^ 44))
  else .icrun (a / 2 ^ 48) v.path a

/-- A checked start: the first refusal among the checks, or the effect. -/
def orFail (s : State) (c : Cmd) (e : Option (Status × Nat)) (go : State) : State :=
  match e with
  | some (st, d) => fail s c.id st d
  | none => go

/-- The first refusal of a list of checks in order. -/
def firstError : List (Bool × Status × Nat) → Option (Status × Nat)
  | [] => none
  | (b, st, d) :: t => if b then some (st, d) else firstError t

/-- R338, R352: what stands against an Icrun transfer with a package on a path: a package ID of 0xFFFF is unroutable, and a tile has
4,096 outbound paths (for which the spec names no answer: DESIGN CHOICE, log entry 41). -/
def transferError (s : State) (pkg path : Nat) : Option (Status × Nat) :=
  firstError [(pkg == 0xFFFF, .noResource, 0x2A02), (!pathRoom s pkg path, .limitReached, 0)]

/-- A length rounded up to a multiple of 32. -/
def roundUp32 (n : Nat) : Nat := (n + 31) / 32 * 32

/-- R421 to R423: a command's output goes to its destination; a local one completes the command at once, DENIED when the issuer may not
write there (log entry 10) or when it is the control space, which takes no output of such a length (R9), and a remote one waits for its
acknowledgement. A WRITE's payload is a multiple of 32 bytes (R330), so an output of another length is filled up with free bytes (DESIGN
CHOICE, log entry 41). -/
def deliver (s : State) (c : Cmd) (a : Nat) (bytes : List Byte) : State :=
  match destOf s c.queue a with
  | .local_ x =>
    match accessError s (queueWho s c.queue) (c.queue % 4) x bytes.length with
    | some e => fail (accessEvent s e) c.id .denied 0
    | none =>
      let w := putRange s (waysOf s (queueWho s c.queue)) x bytes
      match w.1 with
      | some d => fail w.2 c.id .poisoned d
      | none => succeed w.2 c.id 0
  | .control x => fail (raiseEvent s (absentSrc (c.queue % 4) x)) c.id .denied 0
  | .icrun pkg path x =>
    orFail s c (transferError s pkg path) <|
    let m := takeMsg (setWait s c.id (.remoteWrite 1 path none))
    let f := freeBytes m.2 (roundUp32 bytes.length - bytes.length)
    sendTransfer f.2 pkg path 0 x m.1 (bytes ++ f.1) (some c.id)
  | .roce qp rkey x => sendRoce (setWait s c.id (.remoteWrite 2 qp none)) ⟨qp, .write, x, rkey, bytes.length, bytes, some c.id, true⟩

/-- The answer to a register access (R9). -/
def answer (s : State) (a : Agent) (denied : Bool) (data : Word) : State := { s with reply := some ⟨a, denied, data⟩ }

/-- A register access refused: DENIED, no data, and an event (R9, R259). -/
def refuseAccess (s : State) (a : Agent) (src : Nat) : State := answer (raiseEvent s src) a true 0

/-- R13: a register write that places a reserved value changes nothing and raises an event. -/
def reservedWrite (s : State) (a : Agent) (src : Nat) : State := answer (raiseEvent s src) a false 0

/-- R530: an agent acts for a partition: the tellers, which carry out every partition's commands, and the server cores that
do (log entry 24). -/
def actsFor : Agent → Nat → Bool
  | .core n, p => Config.coreActsFor n.val p
  | .teller _, _ => true
  | _, _ => false

/-- Reserved-value checks of a command's parameters: the first that fails names its packet byte offset. -/
def firstBad : List (Bool × Nat) → Option Nat
  | [] => none
  | (b, o) :: t => if b then some (16 + o) else firstBad t

/-- A context replaced. -/
def setCtx (s : State) (n : Nat) (c : Context) : State := { s with ctxs := mapSet (fun _ => Context.closed) s.ctxs n c }

/-- R441: a context number names no open context, or one of another partition: the status and detail of the refusal. -/
def ctxError (s : State) (q n : Nat) : Option (Status × Nat) :=
  let x := ctxOf s n
  if !x.valid then some (.badParam, 0x2D06)
  else if queueWho s q ≠ some x.partition then some (.denied, 0x2D40)
  else if x.ending then some (.badParam, 0x2D06)
  else none

end Sys2Proof.Machine
end

