-- ==== Sys2Proof/Machine/Slices.lean ====
section
/-!
DEFINITION. Clusters, slices and runs as the other chapters use them: audit counts (R544), which slices are eligible (R217,
R222, R223), the ledger's debit and correction of a slice (R445, R483), and how a slice, a run and its clusters end by a fault
(R213, R214, R455).
-/
namespace Sys2Proof.Machine

/-- A compute cluster replaced. -/
def setCluster (s : State) (c : Nat) (v : Cluster) : State :=
  { s with clusters := mapSet (fun _ => Cluster.reset) s.clusters c v }

/-- A compute cluster updated. -/
def modCluster (s : State) (c : Nat) (f : Cluster → Cluster) : State := setCluster s c (f (cluster s c))

/-- The first address of a cluster's store window (R258). -/
def storeBase (c : Nat) : Nat := 0x80000000000 + c * 2 ^ 24

/-- Bytes of a cluster's own store from an offset; an area that runs past its end goes on at offset 0 (log entry 13). -/
def storeBytes (s : State) (c off n : Nat) : List Byte :=
  let o := off % 2 ^ 24
  memBytes s (storeBase c + o) (min n (2 ^ 24 - o)) ++ memBytes s (storeBase c) (n - (2 ^ 24 - o))

/-- Bytes stored in a cluster's own store at an offset. -/
def putStore (s : State) (c off : Nat) (b : List Byte) : State :=
  let o := off % 2 ^ 24
  setBytes (setBytes s (storeBase c + o) (b.take (2 ^ 24 - o))) (storeBase c) (b.drop (2 ^ 24 - o))

/-- R531: the event source of a cluster. -/
def clusterSrc (c : Nat) : Nat := tileSrc (c / 16) (c % 16)

/-- A run in progress. -/
def findRun (s : State) (id : Nat) : Option Run := s.runs.find? (fun r => r.id == id)

/-- A run updated. -/
def modRun (s : State) (id : Nat) (f : Run → Run) : State :=
  { s with runs := s.runs.map (fun r => if r.id = id then f r else r) }

/-- A loaded program. -/
def findProgram (s : State) (p h : Nat) : Option Program :=
  s.programs.find? (fun g => g.partition == p && g.handle == h)

/-- A free natural number: a measurement that no command carries (log entry 5). -/
def takeFreeNat (s : State) : Nat × State := ((Config.freeWord s.free).toNat, { s with free := s.free + 1 })

/-! ### Audit counts -/

/-- R544, R615: an audit counter of a context, in the share of a tile, `n` higher: 48 bits, saturating. -/
def countAudit (s : State) (k : RegKind) (tile ctx n : Nat) : State :=
  if n = 0 then s else setReg s k tile ctx (countWord 48 (getReg s k tile ctx) n)

/-- R143, R162, R175: non-finite values counted for the slice a cluster runs, in its context and in its run's step counts. -/
def countNonFinite (s : State) (c n : Nat) : State :=
  let v := cluster s c
  modRun (countAudit s .audNonfinite (c / 16) v.ctx n) v.run (fun r => { r with nonFinite := r.nonFinite + n })

/-- R73: saturations counted for the slice a cluster runs. -/
def countSaturated (s : State) (c n : Nat) : State := countAudit s .audSaturated (c / 16) (cluster s c).ctx n

/-- R57, R122: malformed operands counted for the slice a cluster runs. -/
def countMalformed (s : State) (c n : Nat) : State := countAudit s .audMalformed (c / 16) (cluster s c).ctx n

/-! ### Eligibility -/

/-- The slices a slice waits for: those its PRED fields name, and for a fold slice every lower one (R217). -/
def sliceDeps (d : SliceDesc) (i : Nat) : List Nat :=
  d.preds.filter (fun p => p != 0xFFFF) ++ (if d.cls = 3 then List.range i else [])

/-- A slice before its first eligibility. -/
def SliceRun.fresh : SliceRun := ⟨.waiting, 0, false, [], false, false, none, 0, false, 0, 0⟩

/-- A slice of a run. -/
def sliceRun (r : Run) (i : Nat) : SliceRun := r.slices.getD i SliceRun.fresh

/-- A program's slice table entry. -/
def sliceDesc (g : Program) (i : Nat) : SliceDesc := g.slices.getD i ⟨[], 1, 1, 0, [], [], 1⟩

/-- A slice of a run replaced. -/
def Run.setSlice (r : Run) (i : Nat) (v : SliceRun) : Run := { r with slices := r.slices.set i v }

/-- The slices of a run that a slice still waits for. -/
def depsLeft (r : Run) (g : Program) (i : Nat) : List Nat :=
  (sliceDeps (sliceDesc g i) i).filter (fun j => (sliceRun r j).status != .completed)

/-- A slice has not started, not even before a suspension. -/
def unstarted (x : SliceRun) : Bool := x.status == .waiting || x.status == .eligible

/-- R222: a slice stands in the cask. -/
def inCask (g : Program) (i : Nat) (x : SliceRun) : Bool :=
  x.status == .eligible && (sliceDesc g i).cls == 1 && !x.promoted

/-- The slices of a run in its partition's cask. -/
def caskCount (r : Run) (g : Program) : Nat :=
  ((List.range r.slices.length).filter (fun i => inCask g i (sliceRun r i))).length

/-- R222: the slices in a partition's cask. -/
def caskOf (s : State) (p : Nat) : Nat :=
  s.runs.foldl (fun n r => if r.partition = p then
    match findProgram s p r.program with
    | some g => n + caskCount r g
    | none => n
  else n) 0

/-- R217, R222: the waiting slices of a run from slice `i` on that have become eligible; `room` is what is left in the cask. -/
def makeEligible (now : Nat) (g : Program) : Nat → Nat → Nat → Run → Run
  | 0, _, _, r => r
  | fuel + 1, i, room, r =>
    let x := sliceRun r i
    if x.status = .waiting ∧ depsLeft r g i = [] then
      let cask := (sliceDesc g i).cls == 1 && !x.promoted
      let full := cask && room == 0
      let x := { x with status := .eligible, since := now, promoted := x.promoted || full
                        passedEnergy := false, passedClusters := false, passedSince := none }
      makeEligible now g fuel (i + 1) (if cask && !full then room - 1 else room) (r.setSlice i x)
    else makeEligible now g fuel (i + 1) room r

/-- R223: the cask slices that block a waiting slice of the run directly are promoted; a suspended one resumes at the rank it held all the
same (R228; DEDUCED, log entry 80). -/
def promoteBlocking (g : Program) (r : Run) : Run :=
  let blocked := (List.range r.slices.length).filter (fun i => (sliceRun r i).status == .waiting)
  let hit := blocked.flatMap (fun i =>
    let d := depsLeft r g i
    if d ≠ [] && d.all (fun j => (sliceDesc g j).cls == 1) then d else [])
  { r with slices := r.slices.mapIdx (fun i x => if hit.contains i then { x with promoted := true } else x) }

/-- R217, R222, R223: eligibility and promotion brought up to date in one run. -/
def refreshRun (s : State) (id : Nat) : State :=
  match findRun s id with
  | none => s
  | some r =>
    match findProgram s r.partition r.program with
    | none => s
    | some g =>
      let room := 1024 - caskOf s r.partition
      modRun s id (fun _ => promoteBlocking g (makeEligible s.beat.waits g r.slices.length 0 room r))

/-! ### The ledger's part -/

/-- A partition's allowance and balance. -/
def partPower (s : State) (p : Nat) : PartPower := mapGet (fun _ => PartPower.reset) s.power.parts p

/-- A partition's allowance and balance replaced. -/
def setPartPower (s : State) (p : Nat) (v : PartPower) : State :=
  { s with power := { s.power with parts := mapSet (fun _ => PartPower.reset) s.power.parts p v } }

/-- R445, R483: a partition's balance changed by microjoules. -/
def adjustBalance (s : State) (p : Nat) (d : Int) : State :=
  let v := partPower s p
  setPartPower s p { v with balance := v.balance + d }

/-- R476: a correction of a balance; one that comes while a ledger close is due waits for it. -/
def correctBalance (s : State) (p : Nat) (d : Int) : State :=
  if s.power.closeDue then { s with power := { s.power with corrections := s.power.corrections ++ [(p, d)] } } else adjustBalance s p d

/-- R483: the correction of a slice that completed or ended after it had started once. -/
def correctSlice (s : State) (p : Nat) (d : SliceDesc) (x : SliceRun) : State :=
  if x.everStarted then correctBalance s p ((1000 * d.energy : Nat) - (x.energy : Nat)) else s

/-- R611: the energy measured over a run, in whole credits. -/
def runEnergy (r : Run) : Nat := (r.slices.foldl (fun n x => n + x.energy) 0) / 1000

/-! ### Ends -/

/-- The index of a vat in the `VAT_` block of its tile; the block shows sixteen vats (log entry 15). -/
def vatIndex (c v : Nat) : Option Nat := if c % 16 < 4 then some (4 * (c % 16) + v) else none

/-- A vat counter raised, where the block shows it. -/
def countVat (s : State) (k : RegKind) (c v n : Nat) : State :=
  match vatIndex c v with
  | some i => if n = 0 then s else count s k (c / 16) i n
  | none => s

/-- A vat of a cluster. -/
def vatOf (k : Cluster) (v : Nat) : Vat := k.vats.getD v Vat.reset

/-- R131: what the accumulating operation of a vat has waited without reading a slice counts in `VAT_STALL` when the operation stops:
a measurement that no command carries. -/
def countWait (c : Nat) (s : State) (v : Nat) : State :=
  if (vatOf (cluster s c) v).acc.isSome then
    let f := takeFreeNat s
    countVat f.2 .vatStall c v f.1
  else s

/-- R131: the waits of a cluster's vats counted. -/
def countWaits (s : State) (c : Nat) : State := (List.range 4).foldl (countWait c) s

/-- A vat whose slice has ended: its accumulating and queued operations are abandoned; those summed still drain (R213). -/
def abandonVat (v : Vat) : Vat := { v with acc := none, queued := none, waiting := none }

/-- A cluster that a slice leaves: nothing issues, issued operations complete. -/
def leaveCluster (state : SeqState) (v : Cluster) : Cluster :=
  { v with state := state, vats := v.vats.map abandonVat
           streams := v.streams.map (fun t => { t with waiting := none }) }

/-- A cluster has no issued operation outstanding. -/
def clusterQuiet (v : Cluster) : Bool :=
  v.moves.isEmpty && v.rowOps.isEmpty && v.vats.all (fun t => t.acc.isNone && t.queued.isNone && t.finished.isEmpty && t.draining.isEmpty)

/-- A cluster on which a slice may start: one that a fault has stopped is not free before the run of its slice has ended (R213). -/
def clusterFree (s : State) (c : Nat) : Bool :=
  let v := cluster s c
  clusterQuiet v && (v.state == .idle || (v.state == .stopped && (findRun s v.run).isNone))

/-- The clusters that run a slice of a run. -/
def clustersOfRun (s : State) (id : Nat) : List Nat :=
  (List.range 64).filter (fun c =>
    let v := cluster s c
    v.run == id && v.state != .idle && v.state != .stopped)

/-- R455: a cluster of a run that has ended is left; its store and stat memory are undefined for the context's later slices. -/
def stopCluster (s : State) (c : Nat) : State :=
  modCluster (countWaits s c) c (fun v => { leaveCluster .idle v with spoiled := true })

/-- R194, R483: the measured energy of the running slices of a run that ends is a measurement that no command carries; each
slice's debit is corrected. -/
def settleSlices (s : State) (r : Run) (g : Program) : Nat → State × Nat
  | 0 => (s, 0)
  | n + 1 =>
    let p := settleSlices s r g n
    let x := sliceRun r n
    let e := if x.status = .running then takeFreeNat p.1 else (0, p.1)
    let x := { x with energy := x.energy + e.1 }
    let s := if x.status = .running || x.status == .suspended then correctSlice e.2 r.partition (sliceDesc g n) x else e.2
    (s, p.2 + x.energy)

/-- A vat holds no suspended operation of a run that has ended. -/
def forgetSuspended (id : Nat) (v : Cluster) : Cluster :=
  { v with vats := v.vats.map (fun t => if t.suspended.any (fun x => x.1 == id) then { t with suspended := none } else t) }

/-- R455, R456: a run leaves the scheduler: its clusters are left and its slices' debits corrected. The energy measured over
it, in whole credits. -/
def dropRun (s : State) (r : Run) : Nat × State :=
  let s := (clustersOfRun s r.id).foldl stopCluster s
  let s := (List.range 64).foldl (fun s c => modCluster s c (forgetSuspended r.id)) s
  let e := match findProgram s r.partition r.program with
    | some g => settleSlices s r g r.slices.length
    | none => (s, 0)
  (e.2 / 1000, { e.1 with runs := e.1.runs.filter (fun x => x.id != r.id) })

/-- A slice of a run has completed. -/
def sliceDone (r : Run) (i : Nat) : Bool := (sliceRun r i).status == .completed

/-- R227: a command is a CASK_FLUSH that waits on a slice of a run. -/
def flushWaits (r : Run) (c : Cmd) : Bool :=
  match c.wait with
  | .caskFlush l => l.any (fun p => p.1 == r.id && !sliceDone r p.2)
  | _ => false

/-- The CASK_FLUSH commands that wait on a run. -/
def flushesOf (s : State) (r : Run) : List Nat := (s.cmds.filter (flushWaits r)).map (·.id)

/-- R455, R227, R611: a run ends by a fault: its command completes with the status and detail, and a CASK_FLUSH that waits on
its cask slices with the same. -/
def endRun (s : State) (id : Nat) (st : Status) (detail : Nat) : State :=
  match findRun s id with
  | none => s
  | some r =>
    let flush := flushesOf s r
    let d := dropRun s r
    let s := complete d.2 r.cmd { status := st, detail := detail, value := d.1, seed := r.defaultSeed }
    completeAll s flush { status := st, detail := detail }

/-- A run is in progress and no fault of it has been recorded: R455 starts nothing of another. -/
def runLive (s : State) (id : Nat) : Bool := (findRun s id).any (fun r => r.fault.isNone)

/-- R213: the clusters that faults of a run have stopped have completed what they had issued. -/
def faultsQuiet (s : State) (id : Nat) : Bool :=
  (List.range 64).all (fun c =>
    let v := cluster s c
    v.run != id || v.state != .stopped || clusterQuiet v)

/-- The clusters that last served a run have nothing outstanding. -/
def runQuiet (s : State) (id : Nat) : Bool :=
  (List.range 64).all (fun c => (cluster s c).run != id || clusterQuiet (cluster s c))

/-- R213, R455: a run of which a cluster has faulted goes on ending: once the faulting clusters have completed what they had issued, its
slices end on every cluster; once the others have too, its command completes with the earliest fault (R214). -/
def settleRun (s : State) (id : Nat) : State :=
  match (findRun s id).bind (·.fault) with
  | none => s
  | some f =>
    if faultsQuiet s id then
      let s := (clustersOfRun s id).foldl stopCluster s
      if runQuiet s id then endRun s id f.1 f.2 else s
    else s

/-- R214: a run is to end by a fault; it carries the earliest one. -/
def faultRun (s : State) (id : Nat) (st : Status) (detail : Nat) : State :=
  settleRun (modRun s id (fun r => { r with fault := r.fault <|> some (st, detail) })) id

/-- R213: the run of a cluster that has completed an operation. -/
def settleCluster (s : State) (c : Nat) : State := settleRun s (cluster s c).run

/-- The seed of the run a cluster serves (R233). -/
def clusterSeed (s : State) (c : Nat) : BitVec 64 :=
  match findRun s (cluster s c).run with
  | some r => r.seed
  | none => 0

/-- R213: a cluster that a fault stops: it issues nothing more, and its store and stat memory are undefined for the context's later
slices (R455). -/
def haltCluster (s : State) (c : Nat) : State :=
  modCluster (countWaits s c) c (fun v => { leaveCluster .stopped v with spoiled := true })

/-- R213, R455: a fault of a cluster ends its slice: the cluster stops, and its run ends once what was issued is complete. -/
def endSlice (s : State) (c : Nat) (st : Status) (detail : Nat) : State :=
  faultRun (haltCluster s c) (cluster s c).run st detail

/-- R455, R531: a fault that the cluster reports ends its slice. `record` writes the fault down. -/
def faultWith (s : State) (c : Nat) (st : Status) (detail : Nat) (record : State → State) : State :=
  endSlice (raiseEvent (record s) (clusterSrc c)) c st detail

/-- R213: a cluster's fault recorded in `SEQ_STATUS` with its word, stream and code. -/
def recordFault (c stream code : Nat) (s : State) : State :=
  let v := cluster s c
  let pc := (v.streams.getD stream Stream.reset).pc
  setFlag (setCluster s c { v with faultPc := pc, faultStream := stream, faultCode := code }) .seqStatus (c / 16) (c % 16) 7

/-- R213: a sequencer fault, recorded, that ends the slice. -/
def seqFault (s : State) (c stream code : Nat) (st : Status) (detail : Nat) : State :=
  faultWith s c st detail (recordFault c stream code)

/-- R213, code 1: a stream fault. -/
def streamFault (s : State) (c stream : Nat) : State := seqFault s c stream 1 .badParam (0x2380 + stream)

/-- R156, R165: a fault of a VEC-stream engine instruction: recorded in `VEC_STATUS` with its index. -/
def vecFault (s : State) (c bit detail : Nat) : State :=
  faultWith s c .badParam detail (fun s =>
    let pc := ((cluster s c).streams.getD 1 Stream.reset).pc
    setField (setFlag s .vecStatus (c / 16) (c % 16) bit) .vecStatus (c / 16) (c % 16) 32 15 pc)

/-- R204, R214: a count added to a token; one that would pass 0xFF_FFFF leaves it there and faults the cluster. Once another fault has
ended its slice, the cluster only records its own, the first of its own. -/
def addToken (s : State) (c tok n stream : Nat) : State :=
  let v := cluster s c
  let t := mapGet (fun _ => 0) v.tokens tok + n
  if 0xFFFFFF < t then
    let s := setCluster s c { v with tokens := mapSet (fun _ => 0) v.tokens tok 0xFFFFFF }
    if clusterServes v then seqFault s c stream 4 .badParam 0x2391
    else if v.state = .idle then
      raiseEvent (modCluster (recordFault c stream 4 s) c (fun v => { v with state := .stopped })) (clusterSrc c)
    else s
  else setCluster s c { v with tokens := mapSet (fun _ => 0) v.tokens tok t }

/-- A token's count. -/
def tokenOf (v : Cluster) (tok : Nat) : Nat := mapGet (fun _ => 0) v.tokens tok

/-- A count taken from a token that holds it. -/
def takeToken (s : State) (c tok n : Nat) : State :=
  modCluster s c (fun v => { v with tokens := mapSet (fun _ => 0) v.tokens tok (tokenOf v tok - n) })

end Sys2Proof.Machine
end

