-- ==== Sys2Proof/Machine/ClearOps.lean ====
section
/-!
DEFINITION. The clearing unit (12_clearing.md): members and the tree (R363), encoding a contribution (R368 to R370), wire
blocks and packets (R371 to R373), the close of a node and the root's result (R374 to R378), rolls (R382), delivery (R377),
and how steps fail (R392). What the unit holds of children and results is in the state; a child's blocks lie in the staging
area as well, so that a poisoned sector there is met (R390, log entry 19).
-/
namespace Sys2Proof.Machine

/-! ### Jobs and buckets -/

/-- An open job. -/
def findJob (s : State) (id : Nat) : Option ClrJob := s.clr.find? (fun j => j.id == id)

/-- A bucket that does not exist. -/
def ClrBucket.none : ClrBucket :=
  ⟨0, 0, false, 0, 0, 0, 0, 0, .idle, false, 0, false, 0, Option.none, [], [], []⟩

/-- A bucket of a job. -/
def bucketOf (j : ClrJob) (b : Nat) : ClrBucket := j.buckets.getD b ClrBucket.none

/-- A bucket of an open job updated. -/
def modBucket (s : State) (id b : Nat) (f : ClrBucket → ClrBucket) : State :=
  { s with clr := s.clr.map (fun j => if j.id = id then { j with buckets := j.buckets.modify b f } else j) }

/-- R364: a bucket's wire blocks. -/
def ClrBucket.blocks (k : ClrBucket) : Nat := (k.elements + 255) / 256

/-- R358: the tile whose clearing unit serves a job. -/
def jobTile (j : ClrJob) : Nat := j.id % 4

/-- R531: the clearing unit's event. -/
def clrSrc (j : ClrJob) : Nat := tileSrc (jobTile j) 28

/-! ### Members and the tree -/

/-- R352: COORD, LEN and STRIDE of an axis of a partition's map. -/
def axisOf (s : State) (p a : Nat) : Nat × Nat × Nat :=
  let w := getReg s .netAxisMap 0 p a
  (getBits w 0 16, getBits w 16 16, getBits w 32 16)

/-- R352: BASE of a partition's map. -/
def axisBase (s : State) (p : Nat) : Nat := getBits (getReg s .netAxisMap 0 p 5) 0 16

/-- R363: the group size over the given axes. -/
def groupSize (s : State) (p : Nat) (axes : List Nat) : Nat := axes.foldl (fun n a => n * (axisOf s p a).2.1) 1

/-- R363: this module's member rank over the given axes, the lowest varying fastest. -/
def memberRank (s : State) (p : Nat) : List Nat → Nat
  | [] => 0
  | a :: t => (axisOf s p a).1 + (axisOf s p a).2.1 * memberRank s p t

/-- R363: the coordinates of a member rank on the given axes. -/
def memberCoords (s : State) (p : Nat) : List Nat → Nat → List (Nat × Nat)
  | [], _ => []
  | a :: t, r => (a, r % (axisOf s p a).2.1) :: memberCoords s p t (r / (axisOf s p a).2.1)

/-- R352: the package ID at this module's coordinates with some of them replaced. -/
def packageAt (s : State) (p : Nat) (coords : List (Nat × Nat)) : Nat :=
  let coord := fun a => match coords.find? (fun x => x.1 == a) with
    | some x => x.2
    | none => (axisOf s p a).1
  if (List.range 5).any (fun a => decide ((axisOf s p a).2.1 ≤ coord a)) then 0xFFFF
  else ((List.range 5).foldl (fun n a => n + coord a * (axisOf s p a).2.2) (axisBase s p)) % 65536

/-- R363: a bucket's tree as one member sees it, ranks being member ranks. -/
structure ClrTree where
  g        : Nat
  rank     : Nat
  parent   : Option Nat
  children : List Nat
  depth    : Nat
  deriving DecidableEq, Repr

/-- R363: the children of a virtual rank. -/
def vChildren (f g v : Nat) : List Nat := ((List.range f).map (fun i => f * v + 1 + i)).filter (fun c => decide (c < g))

/-- R363: the depth of a virtual rank. -/
def vDepth (f : Nat) : Nat → Nat → Nat
  | 0, _ => 0
  | fuel + 1, v => if v = 0 then 0 else vDepth f fuel ((v - 1) / f) + 1

/-- The virtual ranks of a subtree; `fuel` bounds its depth. -/
def vSubtree (f g : Nat) : Nat → Nat → List Nat
  | 0, v => [v]
  | fuel + 1, v => v :: (vChildren f g v).flatMap (vSubtree f g fuel)

/-- R363: the root of a bucket's tree. -/
def rootOf (j : ClrJob) (g b : Nat) : Nat := if j.rotate then b % g else 0

/-- R363: the tree of a bucket. -/
def treeOf (s : State) (j : ClrJob) (b : Nat) : ClrTree :=
  let axes := bitsSet j.axes 5
  let g := groupSize s j.partition axes
  let m := memberRank s j.partition axes
  let root := rootOf j g b
  let v := (m + g - root) % g
  ⟨g, m, if v = 0 then none else some (((v - 1) / j.fanin + root) % g),
    (vChildren j.fanin g v).map (fun c => (c + root) % g), vDepth j.fanin 13 v⟩

/-- The member ranks of a child's subtree, as a bitmap. -/
def subtreeBits (j : ClrJob) (t : ClrTree) (b child : Nat) : Nat :=
  let root := rootOf j t.g b
  (vSubtree j.fanin t.g 13 ((child + t.g - root) % t.g)).foldl (fun n v => n ||| 2 ^ ((v + root) % t.g)) 0

/-- The tree neighbours of a module. -/
def ClrTree.near (t : ClrTree) : List Nat := t.parent.toList ++ t.children

/-! ### Packets -/

/-- R371: a clearing packet's payload. -/
def clrPayload (j : ClrJob) (t : ClrTree) (b kind step first n : Nat) (body : List Byte) : List Byte :=
  let h := beBytes 1 (kind + 16 * j.density) ++ beBytes 1 b ++ beBytes 2 j.id ++ beBytes 4 j.sig ++ beBytes 6 step
    ++ beBytes 2 t.rank ++ beBytes 4 first ++ beBytes 2 n ++ beBytes 6 0
  h ++ beBytes 4 (crc32c (h ++ (if kind = 4 ∨ kind = 6 ∨ kind = 7 then body else []))) ++ body

/-- R352, R363: the package of a member of a job; 0xFFFF when the axis map leaves it unroutable. -/
def memberPkg (s : State) (j : ClrJob) (rank : Nat) : Nat :=
  packageAt s j.partition (memberCoords s j.partition (bitsSet j.axes 5) rank)

/-- R352: a tree neighbour of this module is unroutable. -/
def nearUnroutable (s : State) (j : ClrJob) (t : ClrTree) : Bool := t.near.any (fun r => memberPkg s j r == 0xFFFF)

/-- R365: one clearing packet sent to a member. A member that the axis map leaves unroutable gets none; a contribution that would have to
reach one is refused before (R352, log entry 49). -/
def sendClr (s : State) (j : ClrJob) (b kind step first n : Nat) (body : List Byte) (rank : Nat) : State :=
  let p := clrPayload j (treeOf s j b) b kind step first n body
  let pkg := memberPkg s j rank
  if pkg = 0xFFFF then s
  else
    let m := takeMsg s
    sendPacket (count m.2 .clrWireBytes (jobTile j) 0 p.length) pkg (0xFFC + jobTile j)
      { plainFields 5 with last := true, msg := m.1 } p none

/-- One packet sent to several members. -/
def sendClrAll (s : State) (j : ClrJob) (b kind step first n : Nat) (body : List Byte) (ranks : List Nat) : State :=
  ranks.foldl (fun s r => sendClr s j b kind step first n body r) s

/-- R373: consecutive blocks cut into packet bodies of 4,064 B at most, as (blocks, bytes). -/
def packBodies : List Byte → Nat → List (List Byte) → List (Nat × List Byte)
  | acc, n, [] => if n = 0 then [] else [(n, acc)]
  | acc, n, b :: t =>
    if acc.length + b.length ≤ 4064 ∨ n = 0 then packBodies (acc ++ b) (n + 1) t
    else (n, acc) :: packBodies b 1 t

/-- Packet bodies sent in order to the given members, from block `first` on. -/
def sendBodies (s : State) (j : ClrJob) (b kind step : Nat) (ranks : List Nat) : Nat → List (Nat × List Byte) → State
  | _, [] => s
  | first, (n, body) :: t =>
    sendBodies (sendClrAll s j b kind step first n body ranks) j b kind step ranks (first + n) t

/-- Blocks sent to the given members. -/
def sendBlocks (s : State) (j : ClrJob) (b kind step : Nat) (ranks : List Nat) (blocks : List (List Byte)) : State :=
  sendBodies s j b kind step ranks 0 (packBodies [] 0 blocks)

/-- R373: a wire block of a contribution. -/
def wireBlock (density : Nat) (k : ClrBlock) : List Byte :=
  let nf := boolNat k.nonFinite
  match k.values with
  | .leaf scale entries =>
    leBytes 4 k.amax.toNat ++ leBytes 1 (if density = 0 then 0 else entries.length) ++ leBytes 1 nf ++ leBytes 1 scale ++ leBytes 1 0
      ++ (if density = 0 then (List.range 256).map (fun i => BitVec.ofNat 8 (match entries.find? (fun e => e.1 == i) with
            | some e => e.2
            | none => 0))
          else entries.flatMap (fun e => [BitVec.ofNat 8 e.1, BitVec.ofNat 8 e.2]))
  | .node vals =>
    leBytes 4 k.amax.toNat ++ leBytes 1 (boolNat vals.isEmpty) ++ leBytes 1 nf ++ leBytes 2 0
      ++ vals.flatMap (fun v => leBytes 4 v.toNat)

/-- R373: a result block. -/
def wireResult (d : ClrDown) : List Byte := leBytes 1 d.par ++ leBytes 7 0 ++ d.data

/-- R372: the body of a CLOSE_UP. -/
def closeBody (g : Nat) (c : ClrClose) : List Byte :=
  let n := (g + 7) / 8
  beBytes 8 c.due ++ beBytes 8 c.weight ++ beBytes 4 c.present ++ beBytes 4 0 ++ leBytes n c.bitmap
    ++ List.replicate ((n + 3) / 4 * 4 - n) 0

/-! ### Encoding -/

/-- R368: the entries kept per block. -/
def thinKeep (density : Nat) : Nat :=
  match density with
  | 0 => 256
  | 1 => 64
  | 2 => 16
  | _ => 4

/-- R368: NaN ranks above the infinities, and those above every finite value. -/
def rankClass : Ext → Nat
  | .nan => 0
  | .inf _ => 1
  | .fin _ _ _ => 2

/-- R368: element i of value a ranks above element k of value b. -/
def ranksAbove (a : Ext) (i : Nat) (b : Ext) (k : Nat) : Bool :=
  if rankClass a = rankClass b then
    (if extIsFin a && extLt (extAbs b) (extAbs a) then true
     else if extIsFin a && extLt (extAbs a) (extAbs b) then false
     else decide (i < k))
  else decide (rankClass a < rankClass b)

/-- R368: the elements of a block that are sent. -/
def sentElements (density : Nat) (xs : List Ext) : List Nat :=
  let ix := List.range xs.length
  if density = 0 then ix
  else
    let at_ := fun i => xs.getD i extZero
    ix.filter (fun i => !extIsZero (at_ i)
      && decide (countWhere (fun k => ranksAbove (at_ k) k (at_ i) i) ix < thinKeep density))

/-- R373: the maximum of |x| over the finite elements of a block. -/
def blockAmax (xs : List Ext) : F32 :=
  let a := groupAmax xs
  rndFp32 (.fin false a.1 a.2)

/-- R369: the decoded value of a sent entry. -/
def sentValue (scale code : Nat) : Ext := elemValue .e4m3 scale code

/-- What encoding one block gives: the block, the reserve's values, its saturations and its non-finite sources. -/
structure EncBlock where
  block     : ClrBlock
  reserve   : List F32
  saturated : Nat
  nonFinite : Nat
  deriving DecidableEq, Repr

/-- R368 to R370: block k of a contribution, `par` its par code; a code 0xFF that reached the par table by another way than PAR_SET, which
refuses it, is used as it is (DESIGN CHOICE, log entry 76). -/
def encodeBlock (j : ClrJob) (b rank step : Nat) (seed : BitVec 64) (par k : Nat) (x : List F32) : EncBlock :=
  let xs := x.map decode32
  let sent := sentElements j.density xs
  let mode := fun i => if j.wireSr then Rounding.sr (coin seed (256 * j.id + b) rank (256 * k + sent.getD i 0) (step % 2 ^ 32))
    else .rne
  let c := convGroup .e4m3 mode (some par) (sent.map (fun i => xs.getD i extZero))
  let entries := sent.zip c.codes
  let nf := countWhere (fun v => !extIsFin v) xs
  let keep := fun i => fun (v : Ext) =>
    if !extIsFin v then (0 : F32)
    else match entries.find? (fun e => e.1 == i) with
      | some e => rndFp32 (extAdd v (extNeg (sentValue par e.2)))
      | none => rndFp32 v
  ⟨⟨k, blockAmax xs, nf != 0, .leaf par entries⟩, xs.mapIdx keep, c.counts.saturated, nf⟩

/-- A list in blocks of 256. -/
def blocks256 {α : Type} : Nat → List α → List (List α)
  | 0, _ => []
  | n + 1, l => l.take 256 :: blocks256 n (l.drop 256)

/-! ### Memory -/

/-- The bytes of a read, a poisoned piece as free bytes, and the first poisoned address. -/
def readBytes (s : State) (ways a n : Nat) : List Byte × Option Nat × State :=
  let r := readRange s ways a n
  let q := fillPieces r.1 r.2
  (q.1, firstPoison r.1, q.2)

/-- Bytes as 32-bit words. -/
def wordsOf : Nat → List Byte → List F32
  | 0, _ => []
  | n + 1, l => BitVec.ofNat 32 (leNat (l.take 4)) :: wordsOf n (l.drop 4)

/-- Bytes as BF16 values held in FP32. -/
def bf16sOf : Nat → List Byte → List F32
  | 0, _ => []
  | n + 1, l => BitVec.ofNat 32 (65536 * leNat (l.take 2)) :: bf16sOf n (l.drop 2)

/-- 32-bit words as bytes. -/
def wordBytes (l : List F32) : List Byte := l.flatMap (fun v => leBytes 4 v.toNat)

/-- R368: x := g + c for every element of a bucket, or the poisoned address met. An exact zero sum is −0 only when both terms are −0
(DESIGN CHOICE, log entry 76). -/
def formX (s : State) (ways : Nat) (k : ClrBucket) : List F32 × Option Nat × State :=
  let n := k.elements
  let g := readBytes s ways k.src (if k.bf16 then 2 * n else 4 * n)
  let c := readBytes g.2.2 ways k.reserve (4 * n)
  let gs := if k.bf16 then bf16sOf n g.1 else wordsOf n g.1
  (List.zipWith (fun x y => rndFp32 (extAdd (decode32 x) (decode32 y))) gs (wordsOf n c.1), g.2.1 <|> c.2.1, c.2.2)

/-- R377: non-finite values arisen at a node. -/
def clrArisen (s : State) (j : ClrJob) (n : Nat) : State :=
  if n = 0 then s
  else countAudit (count s .clrNonfinite (jobTile j) 0 n) .audClrNonfinite (jobTile j) j.ctx n

/-! ### Steps -/

/-- R384, R385: the step of a bucket in progress runs as in strict mode. -/
def strictStep (j : ClrJob) (k : ClrBucket) : Bool :=
  j.mode != 0 || !k.parSet || k.own.any (fun o => o.probe) || k.nodes.any (fun n => n.step == k.gather && n.children.any (fun c => !c.maxima.isEmpty))

/-- R386, R387: a node waits for, and includes, a set of members. -/
def wanted (k : ClrBucket) (bits : Nat) : Bool :=
  match k.own.bind (·.replay) with
  | some r => r.1 &&& bits != 0
  | none => true

/-- R372: the slot of a step. -/
def nodeOf (k : ClrBucket) (step : Nat) : ClrNode := (k.nodes.find? (fun n => n.step == step)).getD ⟨step, none, []⟩

/-- A step slot replaced. -/
def setNode (k : ClrBucket) (n : ClrNode) : ClrBucket := { k with nodes := k.nodes.filter (fun x => x.step != n.step) ++ [n] }

/-- What a child has sent. -/
def childOf (n : ClrNode) (rank : Nat) : ClrChild := (n.children.find? (fun c => c.rank == rank)).getD ⟨rank, [], [], none⟩

/-- What a child has sent replaced. -/
def setChild (n : ClrNode) (c : ClrChild) : ClrNode :=
  { n with children := n.children.filter (fun x => x.rank != c.rank) ++ [c] }

/-- R367, R605: a step of a bucket ends: its next step advances, unless it was the last there is. -/
def endStep (s : State) (j : ClrJob) (b : Nat) : State :=
  count (modBucket s j.id b (fun k => { k with
    state := .idle, own := none
    spent := k.nextStep == 0xFFFFFFFFFFFF
    nextStep := if k.nextStep = 0xFFFFFFFFFFFF then k.nextStep else k.nextStep + 1 })) .clrSteps (jobTile j) 0

/-- R366: the VALUE of BUCKET_CONTRIBUTE. -/
def clrValue (present divisor : Nat) : Nat := present % 2 ^ 13 + 2 ^ 32 * min divisor 0xFFFFFFFF

/-- R382: a roll record. -/
def rollRecord (j : ClrJob) (b g kind step due closeBeat divisor present bitmap : Nat) : List Byte :=
  let h := leBytes 4 0x0900C1EA ++ leBytes 2 j.id ++ leBytes 1 b ++ leBytes 1 kind ++ leBytes 6 step ++ leBytes 2 0
    ++ leBytes 8 due ++ leBytes 8 closeBeat ++ leBytes 8 divisor ++ leBytes 4 g ++ leBytes 4 present ++ leBytes 12 0
  let m := leBytes ((g + 255) / 256 * 32) bitmap
  h ++ leBytes 4 (crc32c (h ++ m)) ++ m

/-- R370: each sent element's decoded value added back to its reserve, a non-finite one apart. -/
def undoSend (s : State) (ways : Nat) (k : ClrBucket) (blocks : List ClrBlock) : State :=
  let c := readBytes s ways k.reserve (4 * k.elements)
  let old := wordsOf k.elements c.1
  let val := fun (e : Nat) => match blocks.find? (fun b => b.index == e / 256) with
    | some b => match b.values with
      | .leaf scale entries => (entries.find? (fun x => x.1 == e % 256)).map (fun x => sentValue scale x.2)
      | .node _ => none
    | none => none
  let new := old.mapIdx (fun e r => match val e with
    | some v => if extIsFin v then rndFp32 (extAdd (decode32 r) v) else r
    | none => r)
  writeRange c.2.2 ways k.reserve (wordBytes new)

/-- R377: the result blocks and next par codes written. -/
def writeResult (s : State) (ways : Nat) (j : ClrJob) (k : ClrBucket) : List ClrDown → State
  | [] => s
  | d :: t =>
    let w := if j.bf16 then 2 else 4
    let s := writeRange s ways (k.result + 256 * w * d.index) (d.data.take (w * min 256 (k.elements - 256 * d.index)))
    writeResult (writeRange s ways (k.par + d.index) [BitVec.ofNat 8 d.par]) ways j k t

/-- R383: the slot of a step's roll. -/
def rollSlot (j : ClrJob) (b step : Nat) : Nat := ((step - j.firstStep) * j.buckets.length + b) % j.rollEntries

/-- R376, R377, R367: a roll has arrived, or been made, here: result, par and roll are written, the node gathers for the step
no longer (log entry 22), and the member's part in the step ends by its own bit. A step held back by poison has sent nothing that could
be undone (R389). A FAILED member takes no part in the roll (log entry 22), and holds nothing of it (R612). -/
def deliverRoll (s : State) (j : ClrJob) (b step : Nat) (roll : List Byte) : State :=
  let k := bucketOf j b
  if k.state = .failed then modBucket s j.id b (fun k => { k with down := [] }) else
  let ways := waysOf s (some j.partition)
  let s := writeResult s ways j k k.down
  let s := writeRange s ways (j.rollRing + 576 * rollSlot j b step) roll
  let s := modBucket s j.id b (fun k => { k with
    down := [], parSet := true
    gather := max k.gather (step + 1), nodes := k.nodes.filter (fun n => decide (step < n.step)) })
  let rank := (treeOf s j b).rank
  let bit := natBit (roll.getD (64 + rank / 8) 0).toNat (rank % 8)
  let present := fieldLe roll 44 4 % 2 ^ 13
  let divisor := fieldLe roll 32 8
  match k.own with
  | none =>
    modBucket s j.id b (fun k => { k with
      state := if k.state = .idle then .excluded else k.state, rolls := k.rolls ++ [⟨step, present, divisor⟩] })
  | some o =>
    let s := if bit || (o.blocks.getD []).isEmpty then s else undoSend s ways k (o.blocks.getD [])
    let d : Done := match o.poison with
      | some d => { status := .poisoned, detail := d }
      | none => if bit then { status := .ok } else { status := .deadlineMissed, detail := 0x2B30 }
    endStep (complete s o.cmd { d with value := clrValue present divisor }) j b

/-! ### Closing -/

/-- R374: the values of a contribution's block, element by element. -/
def blockValue (k : ClrBlock) (i : Nat) : Ext :=
  match k.values with
  | .leaf scale entries => match entries.find? (fun e => e.1 == i) with
    | some e => sentValue scale e.2
    | none => extZero
  | .node vals => decode32 (vals.getD i 0)

/-- R375: a contribution as a node combines it. -/
structure ClrPart where
  blocks : List ClrBlock
  close  : ClrClose
  deriving DecidableEq, Repr

/-- R374, R375: block n of a node's partial, and the non-finite values arisen in it. -/
def combineBlock (parts : List ClrPart) (n : Nat) : ClrBlock × Nat :=
  let bs := parts.filterMap (fun p => p.blocks.find? (fun b => b.index == n))
  let sums := (List.range 256).map (fun i =>
    let terms := bs.map (fun b => blockValue b i)
    let v : F32 := BitVec.ofNat 32 (groupStep layFp32 .rne 0 terms)
    (v, f32NonFinite v && terms.all extIsFin))
  let vals := sums.map (·.1)
  let amax := bs.foldl (fun a b => rndFp32 (extMax (decode32 a) (decode32 b.amax))) 0
  (⟨n, amax, bs.any (·.nonFinite), .node (if vals.all (fun v => v == 0) then [] else vals)⟩, countWhere (·.2) sums)

/-- R375: the closes of a node's contributions combined. -/
def combineClose (due : Nat) (parts : List ClrPart) : ClrClose :=
  parts.foldl (fun c p => ⟨due, c.weight + p.close.weight, c.present + p.close.present, c.bitmap ||| p.close.bitmap⟩) ⟨due, 0, 0, 0⟩

/-- R390: the staging slot of a child for a step. -/
def stageAt (k : ClrBucket) (child step : Nat) : Nat := k.stage + (2 * child + step % 2) * k.blocks * 1032

/-- R390: a child's staged blocks read back: whether one of them has met poison. -/
def stagePoisoned (s : State) (ways density : Nat) (k : ClrBucket) (child step : Nat) : List ClrBlock → Bool × State
  | [] => (false, s)
  | b :: t =>
    let r := readRange s ways (stageAt k child step + 1032 * b.index) (wireBlock density b).length
    let q := stagePoisoned r.2 ways density k child step t
    ((firstPoison r.1).isSome || q.1, q.2)

/-- R374, R386, R390: the children's contributions that a closing node includes. -/
def includedChildren (s : State) (j : ClrJob) (b : Nat) (t : ClrTree) (k : ClrBucket) (n : ClrNode) :
    List (Nat × Nat) → List ClrPart × State
  | [] => ([], s)
  | (i, r) :: rest =>
    let c := childOf n r
    let p := match c.close with
      | some x =>
        if wanted k (subtreeBits j t b r) then
          let q := stagePoisoned s (waysOf s (some j.partition)) j.density k i n.step c.blocks
          (if q.1 then none else some (⟨c.blocks, x⟩ : ClrPart), q.2)
        else (none, s)
      | none => (none, s)
    let q := includedChildren p.2 j b t k n rest
    (p.1.toList ++ q.1, q.2)

/-- R374, R389: the own contribution that a closing node includes. -/
def ownPart (t : ClrTree) (k : ClrBucket) (step : Nat) : List ClrPart :=
  match k.own with
  | some o =>
    match o.blocks with
    | some bs =>
      if k.nextStep = step ∧ o.poison.isNone && wanted k (2 ^ t.rank) then [⟨bs, ⟨o.due, o.weight, 1, 2 ^ t.rank⟩⟩] else []
    | none => []
  | none => []

/-- R378: the par code that follows a block's maximum. -/
def nextPar (amax : F32) (cur : Nat) : Nat :=
  match decode32 amax with
  | .fin _ n d => if n = 0 then cur else (max (-127) (min 127 (floorLog2 n d - 7)) + 127).toNat
  | _ => cur

/-- R376: a sum over a divisor, rounded once to A32. -/
def divideSum (v : Ext) (d : Nat) : F32 :=
  match v with
  | .fin neg n m => rndFp32 (.fin neg n (m * d))
  | _ => rndFp32 v

/-- R376, R378: the root's result block, and the non-finite values arisen in it, before their conversion (R83; log entry 73). -/
def resultBlock (j : ClrJob) (zero : Bool) (divisor cur : Nat) (b : ClrBlock) : ClrDown × Nat :=
  let outs := (List.range 256).map (fun i =>
    let v := blockValue b i
    let r : F32 := if zero then 0 else divideSum v divisor
    let code := encodePlain (if j.bf16 then Fmt.bf16 else Fmt.fp32) .rne false (decode32 r)
    (code, extIsFin v && f32NonFinite r))
  (⟨b.index, nextPar b.amax cur, outs.flatMap (fun o => leBytes (if j.bf16 then 2 else 4) o.1)⟩, countWhere (·.2) outs)

/-- R376, R382: the root closes a step: result and roll are broadcast and delivered here. -/
def closeRoot (s : State) (j : ClrJob) (b step : Nat) (blocks : List ClrBlock) (c : ClrClose) : State :=
  let t := treeOf s j b
  let k := bucketOf j b
  let divisor := match j.divMode with
    | 0 => 1
    | 1 => c.present
    | _ => c.weight
  let pars := readBytes s (waysOf s (some j.partition)) k.par k.blocks
  let rs := blocks.map (fun x => resultBlock j (divisor == 0 || c.present == 0) divisor (pars.1.getD x.index 0).toNat x)
  let s := clrArisen pars.2.2 j (rs.foldl (fun n r => n + r.2) 0)
  let downs := rs.map (·.1)
  let kd := match k.own.bind (·.replay) with
    | some r => (r.2.1, r.2.2)
    | none => if k.own.any (fun (o : ClrOwn) => o.probe) then (3, 0) else (j.mode, if j.mode = 0 then c.due else 0)
  let roll := rollRecord j b t.g kd.1 step kd.2 s.beat.count divisor c.present c.bitmap
  let s := sendBlocks s j b 5 step t.children (downs.map wireResult)
  let s := sendClrAll s j b 6 step 0 0 roll t.children
  let s := modBucket s j.id b (fun k => { k with down := downs })
  deliverRoll s ((findJob s j.id).getD j) b step roll

/-- R374, R375: a node closes its gathering step. -/
def closeNode (s : State) (j : ClrJob) (b : Nat) : State :=
  let t := treeOf s j b
  let k := bucketOf j b
  let step := k.gather
  let n := nodeOf k step
  let kids := includedChildren s j b t k n (t.children.mapIdx (fun i r => (i, r)))
  let parts := ownPart t k step ++ kids.1
  let c := combineClose (n.due.getD 0) parts
  let bs := (List.range k.blocks).map (combineBlock parts)
  let s := clrArisen kids.2 j (bs.foldl (fun n x => n + x.2) 0)
  let blocks := bs.map (·.1)
  let s := modBucket s j.id b (fun k => { k with gather := step + 1, nodes := k.nodes.filter (fun x => x.step != step) })
  let j' := (findJob s j.id).getD j
  match t.parent with
  | none => closeRoot s j' b step blocks c
  | some p =>
    let s := if c.present = 0 then s else sendBlocks s j' b 3 step [p] (blocks.map (wireBlock j.density))
    sendClr s j' b 4 step 0 0 (closeBody t.g c) p

/-- R374, R384, R386: a node closes once its own contribution is encoded and every child it waits for has closed. -/
def tryClose (s : State) (id b : Nat) : State :=
  match findJob s id with
  | none => s
  | some j =>
    let t := treeOf s j b
    let k := bucketOf j b
    let n := nodeOf k k.gather
    let ownReady := k.nextStep == k.gather && (match k.own with
      | some o => o.blocks.isSome || (o.replay.isSome && !wanted k (2 ^ t.rank))
      | none => false)
    if !t.children.isEmpty && ownReady
        && t.children.all (fun r => (childOf n r).close.isSome || !wanted k (subtreeBits j t b r)) then closeNode s j b
    else s

/-- R375: a member without children sends its contribution as soon as it is encoded; the only member of a group closes. -/
def leafSend (s : State) (j : ClrJob) (b : Nat) (o : ClrOwn) (blocks : List ClrBlock) : State :=
  let t := treeOf s j b
  let k := bucketOf j b
  let step := k.nextStep
  match t.parent with
  | none => closeNode s j b
  | some p =>
    let s := modBucket s j.id b (fun k => { k with gather := step + 1 })
    if o.poison.isSome then sendClr s j b 4 step 0 0 (closeBody t.g ⟨o.due, 0, 0, 0⟩) p
    else
      let s := sendBlocks s j b 2 step [p] (blocks.map (wireBlock j.density))
      sendClr s j b 4 step 0 0 (closeBody t.g ⟨o.due, o.weight, 1, 2 ^ t.rank⟩) p

/-- R368 to R370, R389: the member's contribution is encoded and handed to its own node. A poisoned sector of its data, or of
its par table (log entry 20), holds its data back. -/
def encodeOwn (s : State) (j : ClrJob) (b : Nat) : State :=
  let k := bucketOf j b
  match k.own with
  | none => s
  | some o =>
    let ways := waysOf s (some j.partition)
    let t := treeOf s j b
    let x := formX s ways k
    let pars := readBytes x.2.2 ways k.par k.blocks
    match o.poison <|> (x.2.1 <|> pars.2.1).map (poisonDetail pars.2.2) with
    | some d =>
      let o := { o with poison := some d, blocks := some [] }
      let s := modBucket pars.2.2 j.id b (fun k => { k with own := some o, state := .wait })
      let j := (findJob s j.id).getD j
      if t.children.isEmpty then leafSend s j b o [] else tryClose s j.id b
    | none =>
      let es := (blocks256 k.blocks x.1).mapIdx (fun n v => encodeBlock j b t.rank k.nextStep o.seed (pars.1.getD n 0).toNat n v)
      let blocks := es.map (·.block)
      let sat := es.foldl (fun n e => n + e.saturated) 0
      let nf := es.foldl (fun n e => n + e.nonFinite) 0
      let s := writeRange pars.2.2 ways k.reserve (wordBytes (es.flatMap (·.reserve)))
      let s := if sat = 0 then s else countAudit (count s .clrSaturated (jobTile j) 0 sat) .audSaturated (jobTile j) j.ctx sat
      let s := countAudit s .audNonfinite (jobTile j) j.ctx nf
      let s := modBucket s j.id b (fun k => { k with own := some { o with blocks := some blocks }, state := .wait })
      let j := (findJob s j.id).getD j
      if t.children.isEmpty then leafSend s j b o blocks else tryClose s j.id b

/-! ### The probe pass -/

/-- R385: par codes written into a bucket's table. -/
def writePar (s : State) (j : ClrJob) (b first : Nat) (codes : List Nat) : State :=
  writeRange s (waysOf s (some j.partition)) ((bucketOf j b).par + first) (codes.map (BitVec.ofNat 8))

/-- R385: the codes of a probe step are complete: the table is set, and a member that probes encodes. -/
def probeSet (s : State) (j : ClrJob) (b : Nat) : State :=
  let s := modBucket s j.id b (fun k => { k with parSet := true })
  match findJob s j.id with
  | none => s
  | some j => if (bucketOf j b).state = .probe then encodeOwn s j b else s

/-- R385: the member's own maxima and those of every child it waits for are passed up, or turned into par codes by the
root. -/
def tryProbe (s : State) (id b : Nat) : State :=
  match findJob s id with
  | none => s
  | some j =>
    let t := treeOf s j b
    let k := bucketOf j b
    let n := nodeOf k k.nextStep
    match k.own with
    | none => s
    | some o =>
      let kids := t.children.filter (fun r => wanted k (subtreeBits j t b r))
      if o.probed || k.state != .probe || kids.any (fun r => decide ((childOf n r).maxima.length < k.blocks)) then s
      else
        let of := fun r i => match (childOf n r).maxima.find? (fun m => m.1 == i) with
          | some m => m.2
          | none => (0 : F32)
        let maxima := (List.range k.blocks).map (fun i =>
          kids.foldl (fun a r => rndFp32 (extMax (decode32 a) (decode32 (of r i))))
            (if wanted k (2 ^ t.rank) then o.maxima.getD i 0 else 0))
        let s := modBucket s id b (fun k => { k with own := some { o with probed := true } })
        match t.parent with
        | some p => sendBlocks s j b 0 k.nextStep [p] (maxima.map (fun m => leBytes 4 m.toNat))
        | none =>
          let codes := maxima.map (fun m => nextPar m 0x7F)
          let s := sendBlocks s j b 1 k.nextStep t.children (codes.map (leBytes 1))
          probeSet (writePar s j b 0 codes) j b

/-! ### Failure -/

/-- R612: the step of a bucket that is in flight on this module, or its next step: an EXCLUDED member's node is past the rolls that wait
for their contribution. -/
def flightStep (k : ClrBucket) : Nat :=
  if k.state = .probe ∨ k.state = .wait then k.nextStep else k.nextStep + k.rolls.length

/-- R392, R362: a step of a bucket fails: in a strict step ABORT goes to its tree neighbours other than `skip`, and the
member's command ends PEER_LOST. -/
def failStep (s : State) (j : ClrJob) (b step detail : Nat) (skip : Option Nat) : State :=
  let t := treeOf s j b
  let k := bucketOf j b
  let strict := strictStep j k
  let s := if strict then sendClrAll s j b 7 step 0 0 [0, 0, 0, 0] (t.near.filter (fun r => some r != skip)) else s
  let s := modBucket s j.id b (fun k => { k with state := .failed, own := none, nodes := [], down := [] })
  let s := setFlag s .clrStatus (jobTile j) 0 14
  let s := if strict then raiseEvent s (clrSrc j) else s
  match k.own with
  | some o => complete s o.cmd { status := .peerLost, detail := detail }
  | none => s

/-- R612: a step of a bucket is in flight on this module. -/
def bucketBusy (k : ClrBucket) : Bool :=
  k.state == .probe || k.state == .wait || !k.down.isEmpty || k.nodes.any (fun n => decide (k.gather ≤ n.step) && !n.children.isEmpty)

/-- R392: the step that FORCE affects: the one in flight, or when none is, the next step. -/
def forcedStep (k : ClrBucket) : Nat := if bucketBusy k then flightStep k else k.nextStep

/-- R362, R392: one bucket of a job that closes with FORCE. -/
def forceBucket (s : State) (j : ClrJob) (b : Nat) : State :=
  let k := bucketOf j b
  if bucketBusy k || (strictStep j k && !k.spent) then failStep s j b (forcedStep k) 0x2B13 none else s

/-- The job that a waiting clearing command names. -/
def clrJobOf : Instr → Option Nat
  | .jobClose _ j => some j.val
  | .parSet _ j _ _ => some j.val
  | .reserveFlushZero _ j _ _ => some j.val
  | .reserveFlushSave _ j _ _ => some j.val
  | .reserveFlushLoad _ j _ _ => some j.val
  | _ => none

/-- A command that waits on a job's steps (R362, R379, R388). -/
def waitsOnJob (c : Cmd) (id : Nat) : Bool :=
  (c.wait == .jobClose id || c.wait == .parSet || c.wait == .reserveFlush) && clrJobOf c.instr == some id

/-- R362: the job's ID and buckets are released. A JOB_CLOSE that waits on it completes OK, and any other command that waits
on it finds it closed (log entry 23). -/
def releaseJob (s : State) (id : Nat) : State :=
  let closes := (s.cmds.filter (fun c => waitsOnJob c id && c.wait == .jobClose id)).map (·.id)
  let others := (s.cmds.filter (fun c => waitsOnJob c id && c.wait != .jobClose id)).map (·.id)
  let s := { s with clr := s.clr.filter (fun j => j.id != id) }
  completeAll (completeAll s closes { status := .ok }) others { status := .badParam, detail := 0x2B07 }

/-- R362, R359: a job closes with FORCE. -/
def forceJob (s : State) (id : Nat) : State :=
  match findJob s id with
  | none => s
  | some j => releaseJob ((List.range j.buckets.length).foldl (fun s b => forceBucket s j b) s) id

/-- R392: the path to a peer is abandoned on a tile: strict steps in flight whose tree has it as a neighbour fail. -/
def clrPathLost (s : State) (tile pkg : Nat) : State :=
  (s.clr.filter (fun j => j.id % 4 == tile)).foldl (fun s j =>
    (List.range j.buckets.length).foldl (fun s b =>
      let t := treeOf s j b
      let k := bucketOf j b
      let lost := t.near.find? (fun r => memberPkg s j r == pkg)
      if lost.isSome && bucketBusy k && strictStep j k then failStep s j b (flightStep k) 0x2B11 lost else s) s) s

end Sys2Proof.Machine
end

