-- ==== Sys2Proof/Machine/Clearing.lean ====
section
/-!
DEFINITION. The clearing commands (12_clearing.md): JOB_OPEN, JOB_CLOSE, BUCKET_CONTRIBUTE, ROLL_READ, PAR_SET and RESERVE_FLUSH,
the clearing packets of R372, and the close beat and broadcast limit.
-/
namespace Sys2Proof.Machine

/-! ### Opening and closing jobs -/

/-- R403, R416: the values of FANIN, DIV_MODE and MODE that chapter 13 calls reserved. -/
def jobBad (p : JobParams) : Option Nat :=
  firstBad [(!([2, 4, 8, 16].contains p.fanin.toNat), 2), (p.divMode.val == 3, 3), (p.mode.val == 3, 4)]

/-- R360, first row: the command's own parameters; R403 has refused the values that it calls reserved before (log entry 43). -/
def jobParamsOk (p : JobParams) : Bool :=
  decide (p.axes.toNat ≠ 0 ∧ p.outFmt.val ≤ 1 ∧ p.hop.val ≠ 0 ∧ p.rollEntries.toNat ≠ 0)
    && (!p.alloc || p.jobId.val == 0)
    && (if p.mode.val = 2 then decide (p.rollSrcEntries.toNat ≠ 0)
        else decide (p.rollSrc.toNat = 0 ∧ p.rollSrcEntries.toNat = 0))

/-- R364: a bucket table entry holds no reserved value and no non-zero reserved bit. -/
def bucketEntryOk (e : List Byte) : Bool :=
  let w := fun o => fieldLe e o 8
  decide (w 0 / 2 ^ 48 = 0 ∧ w 0 / 2 ^ 44 % 16 ≤ 1 ∧ fieldLe e 8 4 < 2 ^ 26 ∧ fieldLe e 12 4 = 0)
    && [16, 24, 32, 40].all (fun o => decide (w o < 2 ^ 44)) && zeroBytes e 48 16

/-- R364: a bucket of a job as JOB_OPEN makes it, in register slot `slot`. -/
def newBucket (e : List Byte) (slot firstStep : Nat) : ClrBucket :=
  { ClrBucket.none with
    slot := slot, src := fieldLe e 0 8 % 2 ^ 44, bf16 := fieldLe e 0 8 / 2 ^ 44 % 16 == 1, elements := fieldLe e 8 4
    result := fieldLe e 16 8, reserve := fieldLe e 24 8, par := fieldLe e 32 8, stage := fieldLe e 40 8
    nextStep := firstStep, gather := firstStep }

/-- The areas of a job, each with its length and alignment (R358, R360, R364). -/
def jobAreas (j : ClrJob) : List (Nat × Nat × Nat) :=
  [(j.table, 64 * j.buckets.length, 64), (j.rollRing, 576 * j.rollEntries, 32)]
    ++ (if j.mode = 2 then [(j.rollSrc, 576 * j.rollSrcEntries, 32)] else [])
    ++ j.buckets.flatMap (fun k =>
      [(k.src, k.elements * (if k.bf16 then 2 else 4), 256), (k.result, k.elements * (if j.bf16 then 2 else 4), 256),
       (k.reserve, 4 * k.elements, 256), (k.par, k.blocks, 256), (k.stage, (2 * j.fanin + 1) * k.blocks * 1032, 256)])

/-- Two ranges share a byte. -/
def rangesMeet (a n b m : Nat) : Bool := decide (a < b + m ∧ b < a + n)

/-- No two ranges of a list share a byte. -/
def apart : List (Nat × Nat × Nat) → Bool
  | [] => true
  | x :: t => t.all (fun y => !rangesMeet x.1 x.2.1 y.1 y.2.1) && apart t

/-- R360, detail 0x2B04: every area is aligned, in the partition's memory and apart from the others. -/
def areasOk (s : State) (p : Nat) (l : List (Nat × Nat × Nat)) : Bool :=
  l.all (fun x => x.1 % x.2.2 == 0 && inPartition s p x.1 x.2.1) && apart l

/-- R358: JOB_SIG. -/
def jobSig (p : JobParams) (buckets : List ClrBucket) : Nat :=
  crc32c (([p.axes.toNat, p.fanin.toNat, boolNat p.rotate, p.buckets.val + 1, p.density.val, boolNat p.wireSr, p.divMode.val,
      p.outFmt.val, p.mode.val, p.hop.val, p.firstStep.toNat]
    ++ buckets.map (fun (k : ClrBucket) => k.elements + boolNat k.bf16 * 2 ^ 32)).flatMap (leBytes 8))

/-- R361: +0 written to a job's carry reserves. -/
def zeroReserves (s : State) (ways : Nat) (ks : List ClrBucket) : State :=
  ks.foldl (fun s k => writeRange s ways k.reserve (List.replicate (4 * k.elements) 0)) s

/-- The module's open buckets (R357). -/
def openBuckets (s : State) : Nat := s.clr.foldl (fun n j => n + j.buckets.length) 0

/-- The register slots of the module's open buckets. -/
def usedSlots (s : State) : List Nat := s.clr.flatMap (fun j => j.buckets.map (·.slot))

/-- R358, R361: the job that JOB_OPEN describes, its bucket table read. -/
def newJob (s : State) (p : JobParams) (part id : Nat) (table : List Byte) : ClrJob :=
  let n := p.buckets.val + 1
  let free := (List.range 256).filter (fun x => !(usedSlots s).contains x)
  let ks := (List.range n).map (fun i => newBucket (slice table (64 * i) 64) (free.getD i 0) p.firstStep.toNat)
  { id := id, table := p.bucketTable.toNat, ctx := p.ctx.val, partition := part
    axes := p.axes.toNat, fanin := p.fanin.toNat
    rotate := p.rotate, density := p.density.val, wireSr := p.wireSr, divMode := p.divMode.val, bf16 := p.outFmt.val == 1
    mode := p.mode.val, hop := p.hop.val, firstStep := p.firstStep.toNat, rollRing := p.rollRing.toNat
    rollEntries := p.rollEntries.toNat, rollSrc := p.rollSrc.toNat, rollSrcEntries := p.rollSrcEntries.toNat
    sig := jobSig p ks, buckets := ks }

/-- R360: the checks that follow the reading of the bucket table. -/
def jobOpenError (s : State) (p : JobParams) (part : Nat) (table : List Byte) (j : ClrJob) : Option (Status × Nat) :=
  let axes := bitsSet p.axes.toNat 5
  let g := groupSize s part axes
  firstError [
    (!(List.range (p.buckets.val + 1)).all (fun i => bucketEntryOk (slice table (64 * i) 64)), .badParam, 0x2B02),
    (!p.alloc && (findJob s p.jobId.val).isSome, .badParam, 0x2B01),
    (p.alloc && decide (4096 ≤ s.clr.length), .limitReached, 0x2B20),
    (decide (256 < openBuckets s + p.buckets.val + 1), .limitReached, 0x2B21),
    (decide (4096 < g ∨ g = 0), .badParam, 0x2B03),
    (j.buckets.any (fun k => decide (k.elements = 0 ∨ 2 ^ 26 < k.elements * (if k.bf16 then 2 else 4))), .badParam, 0x2B05),
    (!areasOk s part (jobAreas j), .badParam, 0x2B04)]

/-- JOB_OPEN starts (R613, R360, R361). -/
def startJobOpen (p : JobParams) (s : State) (c : Cmd) : State :=
  let part := (queue s c.queue).partition
  let tab := p.bucketTable.toNat
  let len := 64 * (p.buckets.val + 1)
  orFail s c (ctxError s c.queue p.ctx.val) (orFail s c (firstError [
      (!jobParamsOk p, .badParam, 0x2B02),
      (decide (tab % 64 ≠ 0) || !inPartition s part tab len, .badParam, 0x2B04)])
    (let r := readBytes s (waysOf s (some part)) tab len
     match r.2.1 with
     | some a => fail r.2.2 c.id .poisoned (poisonDetail r.2.2 a)
     | none =>
       let s := r.2.2
       let id := if p.alloc then ((List.range 4096).find? (fun i => (findJob s i).isNone)).getD 0 else p.jobId.val
       let j := newJob s p part id r.1
       orFail s c (jobOpenError s p part r.1 j)
         (let s := if p.keepReserve then s else zeroReserves s (waysOf s (some part)) j.buckets
          succeed { s with clr := s.clr ++ [j] } c.id (id + 2 ^ 32 * j.sig))))

/-- JOB_OPEN (R358 to R361). -/
def execJobOpen (h : Hdr) (p : JobParams) (s : State) : Host.Outcome State Fault Refusal :=
  .next (command s h (.jobOpen h p) .partition (jobBad p) (startJobOpen p))

/-- R613: rows 3 to 5. -/
def jobError (s : State) (q id bucket : Nat) : Option (Status × Nat) :=
  match findJob s id with
  | none => some (.badParam, 0x2B07)
  | some j =>
    if queueWho s q ≠ some j.partition then some (.denied, 0x2B40)
    else if j.buckets.length ≤ bucket then some (.badParam, 0x2B07)
    else none

/-- R612: no step of a job is in flight on this module. -/
def jobIdle (j : ClrJob) : Bool := j.buckets.all (fun k => !bucketBusy k)

/-- JOB_CLOSE starts (R613, R362). -/
def startJobClose (job : Nat) (s : State) (c : Cmd) : State :=
  orFail s c (jobError s c.queue job 0)
    (let s := setWait s c.id (.jobClose job)
     match findJob s job with
     | some j => if jobIdle j then releaseJob s job else s
     | none => s)

/-- JOB_CLOSE without FORCE (R362). -/
def execJobClose (h : Hdr) (job : Fin 4096) (s : State) : Host.Outcome State Fault Refusal :=
  .next (command s h (.jobClose h job) .partition none (startJobClose job.val))

/-- JOB_CLOSE with FORCE starts (R613, R362). -/
def startJobCloseForce (job : Nat) (s : State) (c : Cmd) : State :=
  orFail s c (jobError s c.queue job 0) (succeed (forceJob s job) c.id 0)

/-- JOB_CLOSE with FORCE (R362). -/
def execJobCloseForce (h : Hdr) (job : Fin 4096) (s : State) : Host.Outcome State Fault Refusal :=
  .next (command s h (.jobCloseForce h job) .partition none (startJobCloseForce job.val))

/-! ### Contributing -/

/-- R387: the roll record that a replayed step takes its expected set from: its members, KIND and DUE; none when R387 refuses
it. A poisoned record fails like one with a wrong CRC. -/
def replayRecord (s : State) (j : ClrJob) (b step : Nat) : Option (Nat × Nat × Nat) × State :=
  let n := (step - j.firstStep) * j.buckets.length + b
  let g := (treeOf s j b).g
  if j.rollSrcEntries ≤ n then (none, s)
  else
    let r := readBytes s (waysOf s (some j.partition)) (j.rollSrc + 576 * n) (64 + (g + 255) / 256 * 32)
    let x := r.1
    let ok := r.2.1.isNone && fieldLe x 60 4 == crc32c (x.take 60 ++ x.drop 64)
      && decide (fieldLe x 4 2 % 4096 = j.id ∧ fieldLe x 6 1 = b ∧ fieldLe x 8 6 = step ∧ fieldLe x 40 4 % 2 ^ 13 = g)
    (if ok then some (leNat (x.drop 64), fieldLe x 7 1 % 4, fieldLe x 16 8) else none, r.2.2)

/-- R366, R367, R605: what stands against a contribution. -/
def contributeError (s : State) (j : ClrJob) (k : ClrBucket) (step : Nat) : Option (Status × Nat) :=
  firstError [
    (k.spent, .limitReached, 0x2B22),
    (k.state == .probe || k.state == .wait, .badSequence, 0x2B0A),
    (decide (step ≠ k.nextStep), .badSequence, 0x2B06),
    (j.mode == 0 && k.parSet && !s.beat.synced, .beatLost, 0x2B31),
    (k.state == .failed, .peerLost, 0x2B12)]

/-- R367: a contribution to a step whose roll has already come: its data goes to the reserve. -/
def contributeExcluded (s : State) (j : ClrJob) (b : Nat) (c : Cmd) : State :=
  let k := bucketOf j b
  let ways := waysOf s (some j.partition)
  let r := k.rolls.headD ⟨0, 0, 0⟩
  let x := formX s ways k
  let d : Done := match x.2.1 with
    | some a => { status := .poisoned, detail := poisonDetail x.2.2 a }
    | none => { status := .deadlineMissed, detail := 0x2B30 }
  let s := if x.2.1.isSome then x.2.2 else writeRange x.2.2 ways k.reserve (wordBytes x.1)
  let s := endStep (complete s c.id { d with value := clrValue r.present r.divisor }) j b
  modBucket s j.id b (fun k => { k with rolls := k.rolls.drop 1, state := if k.rolls.length ≤ 1 then .idle else .excluded })

/-- R385: the maxima of a member's own blocks, or the poison that keeps them back. -/
def ownMaxima (s : State) (j : ClrJob) (k : ClrBucket) : List F32 × State :=
  let x := formX s (waysOf s (some j.partition)) k
  (if x.2.1.isSome then [] else (blocks256 k.blocks x.1).map (fun v => blockAmax (v.map decode32)), x.2.2)

/-- R367, R385, R387: a contribution from IDLE: a replay record is checked first; then the member encodes, or probes. -/
def contributeIdle (s : State) (j : ClrJob) (b step due weight : Nat) (c : Cmd) : State :=
  let rep := if j.mode = 2 then replayRecord s j b step else (none, s)
  let s := rep.2
  if j.mode = 2 && rep.1.isNone then fail (failStep s j b step 0 none) c.id .badParam 0x2B09
  else
    let k := bucketOf j b
    let probe := !k.parSet
    let m := if probe then ownMaxima s j k else ([], s)
    let own : ClrOwn :=
      { cmd := c.id, due := due, dueAt := if due ≤ s.beat.count then some s.beat.waits else none, weight := weight
        seed := c.seed.getD 0, probe := probe, maxima := m.1, probed := false, blocks := none, poison := none, replay := rep.1 }
    let s := modBucket (setWait m.2 c.id (.contribute j.id b step)) j.id b (fun k =>
      let n := nodeOf k step
      { setNode k { n with due := n.due <|> some due } with own := some own, state := if probe then .probe else .wait })
    if probe then tryProbe s j.id b else encodeOwn s ((findJob s j.id).getD j) b

/-- BUCKET_CONTRIBUTE starts (R613, R605, R366, R367). -/
def startBucketContribute (job bucket ctx step due weight : Nat) (s : State) (c : Cmd) : State :=
  orFail s c (ctxError s c.queue ctx <|> jobError s c.queue job bucket)
    (match findJob s job with
      | none => s
      | some j =>
        let k := bucketOf j bucket
        orFail s c (contributeError s j k step <|>
            (if k.state == .idle && nearUnroutable s j (treeOf s j bucket) then some (.noResource, 0x2A02) else none))
          (if k.state == .excluded then contributeExcluded s j bucket c else contributeIdle s j bucket step due weight c))

/-- BUCKET_CONTRIBUTE (R366 to R370). -/
def execBucketContribute (h : Hdr) (job : Fin 65536) (bucket ctx : Fin 256) (step : BitVec 48) (due : BitVec 64)
    (weight : BitVec 32) (s : State) : Host.Outcome State Fault Refusal :=
  .next (command s h (.bucketContribute h job bucket ctx step due weight) .partition none
    (startBucketContribute job.val bucket.val ctx.val step.toNat due.toNat weight.toNat))

/-! ### Rolls, par tables and reserves -/

/-- ROLL_READ starts (R383). -/
def startRollRead (job bucket step dest : Nat) (s : State) (c : Cmd) : State :=
  orFail s c (jobError s c.queue job bucket)
    (match findJob s job with
      | none => s
      | some j =>
        let k := bucketOf j bucket
        orFail s c (firstError [
            (decide (step < j.firstStep), .badParam, 0x2B08),
            (!(decide (step < k.nextStep) || (k.spent && step == k.nextStep)), .notReady, 0)])
          (let len := 64 + ((treeOf s j bucket).g + 255) / 256 * 32
           let r := readBytes s (waysOf s (some j.partition)) (j.rollRing + 576 * rollSlot j bucket step) len
           let x := r.1
           match r.2.1 with
           | some a => fail r.2.2 c.id .poisoned (poisonDetail r.2.2 a)
           | none =>
             if fieldLe x 4 2 % 4096 = j.id ∧ fieldLe x 6 1 = bucket ∧ fieldLe x 8 6 = step then deliver r.2.2 c dest x
             else fail r.2.2 c.id .badParam 0x2B08))

/-- ROLL_READ (R383). -/
def execRollRead (h : Hdr) (job : Fin 65536) (bucket : Fin 256) (step : BitVec 48) (dest : BitVec 64) (s : State) :
    Host.Outcome State Fault Refusal :=
  .next (command s h (.rollRead h job bucket step dest) .partition none (startRollRead job.val bucket.val step.toNat dest.toNat))

/-- A command reads a range for its partition: the refusal of R259, R286 or the partition's bounds, poison (R280), or the
bytes. -/
def readFor (s : State) (c : Cmd) (a n : Nat) (go : State → List Byte → State) : State :=
  let who := queueWho s c.queue
  match accessError s who (c.queue % 4) a n with
  | some e => fail (accessEvent s e) c.id .denied 0
  | none =>
    let r := readBytes s (waysOf s who) a n
    match r.2.1 with
    | some p => fail r.2.2 c.id .poisoned (poisonDetail r.2.2 p)
    | none => go r.2.2 r.1

/-- R379: PAR_SET acts. -/
def actParSet (s : State) (j : ClrJob) (b src : Nat) (c : Cmd) : State :=
  readFor s c src (bucketOf j b).blocks (fun s codes =>
    if codes.any (fun x => x == 0xFF) then fail s c.id .badParam 0x2B02
    else
      succeed (modBucket (writePar s j b 0 (codes.map (·.toNat))) j.id b (fun k => { k with parSet := true })) c.id 0)

/-- PAR_SET goes on when no step of its bucket is in flight (R379). -/
def goParSet (job bucket src : Nat) (s : State) (c : Cmd) : State :=
  match findJob s job with
  | none => s
  | some j => if bucketBusy (bucketOf j bucket) then s else actParSet s j bucket src c

/-- PAR_SET starts (R613, R379). -/
def startParSet (job bucket src : Nat) (s : State) (c : Cmd) : State :=
  orFail s c (jobError s c.queue job bucket) (goParSet job bucket src (setWait s c.id .parSet) c)

/-- PAR_SET (R379). -/
def execParSet (h : Hdr) (job : Fin 65536) (bucket : Fin 256) (src : BitVec 44) (s : State) : Host.Outcome State Fault Refusal :=
  .next (command s h (.parSet h job bucket src) .partition none (startParSet job.val bucket.val src.toNat))

/-- R614: where the named reserves lie in a buffer, as (bucket, address), and the end of the last. -/
def flushPlaces (j : ClrJob) : Nat → List Nat → List (Nat × Nat) × Nat
  | at_, [] => ([], at_)
  | at_, b :: t =>
    let a := (at_ + 255) / 256 * 256
    let q := flushPlaces j (a + 4 * (bucketOf j b).elements) t
    ((b, a) :: q.1, q.2)

/-- R388: the named reserves become +0. -/
def flushZero (s : State) (j : ClrJob) (bs : List Nat) : State := zeroReserves s (waysOf s (some j.partition)) (bs.map (bucketOf j))

/-- R388: reserves copied to their places and zeroed, in ascending bucket number. -/
def flushSave (s : State) (j : ClrJob) (c : Cmd) : List (Nat × Nat) → State
  | [] => succeed s c.id 0
  | (b, a) :: t =>
    let k := bucketOf j b
    readFor s c k.reserve (4 * k.elements) (fun s x =>
      let ways := waysOf s (some j.partition)
      flushSave (writeRange (writeRange s ways a x) ways k.reserve (List.replicate (4 * k.elements) 0)) j c t)

/-- R388: reserves copied from their places, in ascending bucket number. -/
def flushLoad (s : State) (j : ClrJob) (c : Cmd) : List (Nat × Nat) → State
  | [] => succeed s c.id 0
  | (b, a) :: t =>
    let k := bucketOf j b
    readFor s c a (4 * k.elements) (fun s x => flushLoad (writeRange s (waysOf s (some j.partition)) k.reserve x) j c t)

/-- RESERVE_FLUSH goes on when no step of a named bucket is in flight: action 0 ZERO, 1 SAVE, 2 LOAD (R388). -/
def goFlush (action job buckets buffer : Nat) (s : State) (c : Cmd) : State :=
  match findJob s job with
  | none => s
  | some j =>
    let bs := bitsSet buckets 256
    if bs.any (fun b => bucketBusy (bucketOf j b)) then s
    else
      match action with
      | 0 => succeed (flushZero s j bs) c.id 0
      | 1 => flushSave s j c (flushPlaces j buffer bs).1
      | _ => flushLoad s j c (flushPlaces j buffer bs).1

/-- R614: the buffer of SAVE and LOAD is aligned, in the partition's memory and apart from the job's areas. -/
def flushBufferOk (s : State) (j : ClrJob) (buckets buffer : Nat) : Bool :=
  let n := (flushPlaces j buffer (bitsSet buckets 256)).2 - buffer
  buffer % 256 == 0 && inPartition s j.partition buffer n && (jobAreas j).all (fun x => !rangesMeet x.1 x.2.1 buffer n)

/-- RESERVE_FLUSH starts (R613, R614, R388). -/
def startFlush (action job buckets buffer : Nat) (s : State) (c : Cmd) : State :=
  let top := (bitsSet buckets 256).foldl max 0
  orFail s c (jobError s c.queue job top)
    (match findJob s job with
      | none => s
      | some j =>
        if action ≠ 0 && !flushBufferOk s j buckets buffer then fail s c.id .badParam 0x2B04
        else goFlush action job buckets buffer (setWait s c.id .reserveFlush) c)

/-- RESERVE_FLUSH with action ZERO (R388). -/
def execReserveFlushZero (h : Hdr) (job : Fin 65536) (buckets : BitVec 256) (buffer : BitVec 44) (s : State) :
    Host.Outcome State Fault Refusal :=
  .next (command s h (.reserveFlushZero h job buckets buffer) .partition none
    (startFlush 0 job.val buckets.toNat buffer.toNat))

/-- RESERVE_FLUSH with action SAVE (R388, R614). -/
def execReserveFlushSave (h : Hdr) (job : Fin 65536) (buckets : BitVec 256) (buffer : BitVec 44) (s : State) :
    Host.Outcome State Fault Refusal :=
  .next (command s h (.reserveFlushSave h job buckets buffer) .partition none
    (startFlush 1 job.val buckets.toNat buffer.toNat))

/-- RESERVE_FLUSH with action LOAD (R388, R614). -/
def execReserveFlushLoad (h : Hdr) (job : Fin 65536) (buckets : BitVec 256) (buffer : BitVec 44) (s : State) :
    Host.Outcome State Fault Refusal :=
  .next (command s h (.reserveFlushLoad h job buckets buffer) .partition none
    (startFlush 2 job.val buckets.toNat buffer.toNat))

/-- R362, R379, R388: a clearing command that waits goes on when its steps have ended. -/
def resumeClr (s : State) (c : Cmd) : State :=
  match c.instr with
  | .jobClose _ job =>
    match findJob s job.val with
    | some j => if jobIdle j then releaseJob s job.val else s
    | none => s
  | .parSet _ job b src => goParSet job.val b.val src.toNat s c
  | .reserveFlushZero _ job bs buf => goFlush 0 job.val bs.toNat buf.toNat s c
  | .reserveFlushSave _ job bs buf => goFlush 1 job.val bs.toNat buf.toNat s c
  | .reserveFlushLoad _ job bs buf => goFlush 2 job.val bs.toNat buf.toNat s c
  | _ => s

/-! ### Packets -/

/-- R371: a clearing header. -/
structure ClrHdr where
  kind    : Nat
  density : Nat
  bucket  : Nat
  job     : Nat
  sig     : Nat
  step    : Nat
  sender  : Nat
  first   : Nat
  blocks  : Nat
  body    : List Byte
  deriving DecidableEq, Repr

/-- R371, R372: a CLEAR payload read: none when its CCRC fails or it holds a reserved field or kind. -/
def parseClr (p : List Byte) : Option ClrHdr :=
  let f := fieldBe p
  let body := p.drop 32
  let kind := f 0 1 % 16
  let crc := crc32c (p.take 28 ++ (if kind = 4 ∨ kind = 6 ∨ kind = 7 then body else []))
  if p.length < 32 ∨ 8 ≤ kind ∨ 64 ≤ f 0 1 ∨ 4096 ≤ f 2 2 ∨ 4096 ≤ f 14 2 ∨ f 28 4 ≠ crc then none
  else if !zeroBytes p 22 6 then none
  else some ⟨kind, f 0 1 / 16, f 1 1, f 2 2, f 4 4, f 8 6, f 14 2, f 16 4, f 20 2, body⟩

/-- Indices rise strictly. -/
def ascending : List (Nat × Nat) → Bool
  | x :: y :: t => decide (x.1 < y.1) && ascending (y :: t)
  | _ => true

/-- R373: pairs of an index byte and a code byte. -/
def parsePairs : Nat → List Byte → List (Nat × Nat)
  | 0, _ => []
  | n + 1, l => (fieldLe l 0 1, fieldLe l 1 1) :: parsePairs n (l.drop 2)

/-- R373: `n` leaf blocks from block `i` on. -/
def parseLeaf (density : Nat) : Nat → Nat → List Byte → Option (List ClrBlock)
  | 0, _, l => if l.isEmpty then some [] else none
  | n + 1, i, l =>
    let pairs := fieldLe l 4 1
    let size := if density = 0 then 256 else 2 * pairs
    let body := slice l 8 size
    let entries := if density = 0 then body.mapIdx (fun e b => (e, b.toNat)) else parsePairs pairs body
    if l.length < 8 + size ∨ 2 ≤ fieldLe l 5 1 ∨ fieldLe l 7 1 ≠ 0 then none
    else if (density == 0 && pairs != 0) || (density != 0 && decide (thinKeep density < pairs)) || !ascending entries then none
    else (parseLeaf density n (i + 1) (l.drop (8 + size))).map
      (fun t => ⟨i, BitVec.ofNat 32 (fieldLe l 0 4), fieldLe l 5 1 == 1, .leaf (fieldLe l 6 1) entries⟩ :: t)

/-- R373: `n` partial blocks from block `i` on. -/
def parsePartial : Nat → Nat → List Byte → Option (List ClrBlock)
  | 0, _, l => if l.isEmpty then some [] else none
  | n + 1, i, l =>
    let z := fieldLe l 4 1
    let size := if z = 1 then 0 else 1024
    if l.length < 8 + size ∨ 2 ≤ z ∨ 2 ≤ fieldLe l 5 1 ∨ fieldLe l 6 2 ≠ 0 then none
    else (parsePartial n (i + 1) (l.drop (8 + size))).map
      (fun t => ⟨i, BitVec.ofNat 32 (fieldLe l 0 4), fieldLe l 5 1 == 1, .node (wordsOf (size / 4) (slice l 8 size))⟩ :: t)

/-- R373: `n` result blocks from block `i` on, of 256 values of `w` bytes. -/
def parseResult (w : Nat) : Nat → Nat → List Byte → Option (List ClrDown)
  | 0, _, l => if l.isEmpty then some [] else none
  | n + 1, i, l =>
    if l.length < 8 + 256 * w ∨ !zeroBytes l 1 7 then none
    else (parseResult w n (i + 1) (l.drop (8 + 256 * w))).map (fun t => ⟨i, fieldLe l 0 1, slice l 8 (256 * w)⟩ :: t)

/-- R372: the body of a CLOSE_UP read. -/
def parseClose (g : Nat) (l : List Byte) : Option ClrClose :=
  let n := (g + 7) / 8
  let bits := leNat (slice l 24 n)
  if l.length ≠ 24 + (n + 3) / 4 * 4 ∨ fieldBe l 20 4 ≠ 0 ∨ 2 ^ g ≤ bits ∨ !zeroBytes l (24 + n) 3 then none
  else some ⟨fieldBe l 0 8, fieldBe l 8 8, fieldBe l 16 4, bits⟩

/-- The child of rank `r` has children of its own. -/
def childIsNode (j : ClrJob) (t : ClrTree) (b r : Nat) : Bool :=
  !(vChildren j.fanin t.g ((r + t.g - rootOf j t.g b) % t.g)).isEmpty

/-- R372: the sender is the tree neighbour the kind implies. -/
def senderFits (j : ClrJob) (t : ClrTree) (h : ClrHdr) : Bool :=
  let up := t.children.contains h.sender
  let down := t.parent == some h.sender
  match h.kind with
  | 0 => up
  | 2 => up && !childIsNode j t h.bucket h.sender
  | 3 => up && childIsNode j t h.bucket h.sender
  | 4 => up
  | 7 => up || down
  | _ => down

/-- R372: an uphill kind. -/
def isUphill (kind : Nat) : Bool := kind == 0 || kind == 2 || kind == 3 || kind == 4

/-- R390: a child's blocks written to its staging slot. -/
def stageBlocks (s : State) (j : ClrJob) (k : ClrBucket) (child step : Nat) (blocks : List ClrBlock) : State :=
  blocks.foldl (fun s x =>
    writeRange s (waysOf s (some j.partition)) (stageAt k child step + 1032 * x.index) (wireBlock j.density x)) s

/-- Blocks held for a child, a block that came before replaced. -/
def mergeBlocks (old new : List ClrBlock) : List ClrBlock :=
  old.filter (fun x => new.all (fun y => y.index != x.index)) ++ new

/-- A child of a node's step updated. -/
def modChild (s : State) (j : ClrJob) (b step r : Nat) (f : ClrChild → ClrChild) : State :=
  modBucket s j.id b (fun k =>
    let n := nodeOf k step
    setNode k (setChild n (f (childOf n r))))

/-- R372: an uphill packet for a step that the node still gathers is taken; none when its body is malformed. -/
def takeUphill (s : State) (j : ClrJob) (t : ClrTree) (k : ClrBucket) (h : ClrHdr) : Option State :=
  let b := h.bucket
  let fits := decide (h.first + h.blocks ≤ k.blocks)
  match h.kind with
  | 0 =>
    if fits && h.body.length == 4 * h.blocks then
      let m := (wordsOf h.blocks h.body).mapIdx (fun i v => (h.first + i, v))
      some (tryProbe (modChild s j b h.step h.sender (fun c => { c with
        maxima := c.maxima.filter (fun x => m.all (fun y => y.1 != x.1)) ++ m })) j.id b)
    else none
  | 4 =>
    (parseClose t.g h.body).map (fun x =>
      let s := modChild s j b h.step h.sender (fun c => { c with close := some x })
      let s := modBucket s j.id b (fun k =>
        let n := nodeOf k h.step
        setNode k { n with due := n.due <|> some x.due })
      tryClose s j.id b)
  | _ =>
    let r := if h.kind = 2 then parseLeaf h.density h.blocks h.first h.body else parsePartial h.blocks h.first h.body
    match r with
    | some blocks =>
      if fits && h.density == j.density then
        let i := (t.children.idxOf? h.sender).getD 0
        some (modChild (stageBlocks s j k i h.step blocks) j b h.step h.sender (fun c => { c with
          blocks := mergeBlocks c.blocks blocks }))
      else none
    | none => none

/-- R372, R382: a roll record whose reserved fields are 0. -/
def rollOk (b : List Byte) : Bool :=
  decide (fieldLe b 4 2 < 2 ^ 12 ∧ fieldLe b 7 1 < 4 ∧ fieldLe b 40 4 < 2 ^ 13 ∧ fieldLe b 44 4 < 2 ^ 13)
    && zeroBytes b 14 2 && zeroBytes b 48 12

/-- R372: the body of a downhill packet has the form of its kind. -/
def downhillOk (j : ClrJob) (t : ClrTree) (k : ClrBucket) (h : ClrHdr) : Bool :=
  let fits := decide (h.first + h.blocks ≤ k.blocks)
  match h.kind with
  | 1 => fits && h.body.length == h.blocks
  | 5 => fits && (parseResult (if j.bf16 then 2 else 4) h.blocks h.first h.body).isSome
  | _ => h.body.length == 64 + (t.g + 255) / 256 * 32 && rollOk h.body

/-- R376: a downhill packet forwarded to this node's children as it arrives. -/
def forwardDown (s : State) (j : ClrJob) (t : ClrTree) (h : ClrHdr) : State :=
  sendClrAll s j h.bucket h.kind h.step h.first h.blocks h.body t.children

/-- R367, R376, R385: a well-formed downhill packet for the step that this member is in is forwarded and taken. -/
def takeDownhill (s : State) (j : ClrJob) (t : ClrTree) (k : ClrBucket) (h : ClrHdr) : State :=
  let b := h.bucket
  let s := forwardDown s j t h
  match h.kind with
  | 1 =>
    let s := writePar s j b h.first (h.body.map (·.toNat))
    if h.first + h.blocks = k.blocks then probeSet s j b else s
  | 5 =>
    let ds := (parseResult (if j.bf16 then 2 else 4) h.blocks h.first h.body).getD []
    modBucket s j.id b (fun k => { k with down := k.down.filter (fun x => ds.all (fun y => y.index != x.index)) ++ ds })
  | _ => deliverRoll s j b h.step h.body

/-- R376, R367: a downhill packet: a member that is in its step forwards and takes it, and the node of a FAILED member still forwards
those of the steps from the failed one up to the one after its gathering step. R605: nothing ends the last step there is twice. -/
def actDown (s : State) (j : ClrJob) (t : ClrTree) (k : ClrBucket) (h : ClrHdr) : State :=
  let drop := count s .clrDiscards (jobTile j) 0
  if !downhillOk j t k h || k.spent then drop
  else if k.state = .failed then
    (if k.nextStep ≤ h.step ∧ h.step ≤ k.gather + 1 then forwardDown s j t h else drop)
  else if h.step = k.nextStep + k.rolls.length then takeDownhill s j t k h
  else drop

/-- R392: the step of a bucket that an ABORT may name: the member's own, or for an EXCLUDED member the one its node relays. -/
def abortStep (k : ClrBucket) : Nat := if k.state = .excluded then flightStep k else k.nextStep

/-- R367, R392, R605: an ABORT fails the step of its number and is forwarded, or is counted and ignored. An EXCLUDED member's bucket fails
with the step its node relays (log entry 22). -/
def actAbort (s : State) (j : ClrJob) (k : ClrBucket) (h : ClrHdr) : State :=
  if h.step = abortStep k && k.state != .failed && !k.spent && strictStep j k && h.body == [0, 0, 0, 0] then
    failStep s j h.bucket h.step 0x2B11 (some h.sender)
  else count s .clrDiscards (jobTile j) 0

/-- R372, R392: a CLEAR packet of an open job from the neighbour its kind implies. The node of a member that has FAILED gathers and relays
as before. -/
def actClr (s : State) (j : ClrJob) (t : ClrTree) (h : ClrHdr) : State :=
  let k := bucketOf j h.bucket
  let tile := jobTile j
  let drop := count s .clrDiscards tile 0
  if isUphill h.kind then
    if h.step < k.gather then
      (if h.kind = 4 then setFlag (count s .clrLate tile 0) .clrStatus tile 0 12 else s)
    else if k.gather + 1 < h.step then drop
    else (takeUphill s j t k h).getD drop
  else if h.kind = 7 then actAbort s j k h
  else actDown s j t k h

/-- R372: a CLEAR packet reaches the clearing unit of a tile. -/
def consumeClear (s : State) (tile : Nat) (payload : List Byte) : State :=
  match parseClr payload with
  | none => count s .clrDiscards tile 0
  | some h =>
    let bad := raiseEvent (setFlag (count s .clrBadJob (h.job % 4) 0) .clrStatus (h.job % 4) 0 15) (tileSrc (h.job % 4) 28)
    match findJob s h.job with
    | none => bad
    | some j =>
      if h.sig ≠ j.sig then bad
      else if j.buckets.length ≤ h.bucket then count s .clrDiscards (jobTile j) 0
      else
        let t := treeOf s j h.bucket
        if senderFits j t h then actClr s j t h else bad

/-! ### Time -/

/-- R380, R384, R387: the close beat of a node's gathering step, in deadline mode; a leaf has none. -/
def closeBeatOf (s : State) (j : ClrJob) (b : Nat) : Option Int :=
  let t := treeOf s j b
  let k := bucketOf j b
  if strictStep j k || t.children.isEmpty then none
  else (nodeOf k k.gather).due.map (fun d => (d : Int) - ((t.depth * j.hop : Nat) : Int))

/-- R466: the nodes whose close beat the counter has reached, as (close beat, job, bucket). -/
def dueCloses (s : State) : List (Int × Nat × Nat) :=
  s.clr.flatMap (fun j => (List.range j.buckets.length).filterMap (fun b =>
    match closeBeatOf s j b with
    | some x => if x ≤ s.beat.count then some (x, j.id, b) else none
    | none => none))

/-- The first of the due closes in ascending beat order. -/
def firstClose : List (Int × Nat × Nat) → Option (Int × Nat × Nat)
  | [] => none
  | a :: t =>
    match firstClose t with
    | none => some a
    | some x => if a.1 ≤ x.1 then some a else some x

/-- R465, R466: at most `n` due closes fire, in ascending beat order. -/
def fireCloses : Nat → State → State
  | 0, s => s
  | n + 1, s =>
    match firstClose (dueCloses s) with
    | none => s
    | some x =>
      match findJob s x.2.1 with
      | none => s
      | some j => fireCloses n (closeNode s j x.2.2)

/-- R367: a contribution whose DUE the counter has reached is marked with the wait clock. -/
def markOwn (s : State) (o : ClrOwn) : ClrOwn :=
  if o.dueAt.isNone ∧ o.due ≤ s.beat.count then { o with dueAt := some s.beat.waits } else o

/-- R367: the contributions whose DUE has been reached. -/
def markDue (s : State) : State :=
  { s with clr := s.clr.map (fun j => { j with buckets := j.buckets.map (fun b => { b with own := b.own.map (markOwn s) }) }) }

/-- R465, R466: the absolute-beat events that the counter has reached: DUE, and close beats of at most two steps of each bucket, those for
which a node holds packets (R372). -/
def passBeats (s : State) : State :=
  let s := markDue s
  fireCloses (s.clr.foldl (fun n j => n + 2 * j.buckets.length) 0) s

/-- CLOSE_BEAT (R380, R381): a node's close beat of its gathering step has come: one whose DUE came to be known after that beat. -/
def execCloseBeat (job : Fin 4096) (bucket : Fin 256) (step : BitVec 48) (s : State) : Host.Outcome State Fault Refusal :=
  .next (
    match findJob s job.val with
    | none => s
    | some j =>
      if (bucketOf j bucket.val).gather = step.toNat ∧ bucket.val < j.buckets.length ∧ s.beat.lost = false ∧
          (closeBeatOf s j bucket.val).any (fun x => decide (x ≤ (s.beat.count : Int))) then closeNode s j bucket.val
      else s)

/-- BCAST_LIMIT_EXPIRE (R367, R381): no roll has come by DUE + `CLR_BCAST_LIMIT`. -/
def execBcastLimitExpire (job : Fin 4096) (bucket : Fin 256) (s : State) : Host.Outcome State Fault Refusal :=
  .next (
    match findJob s job.val with
    | none => s
    | some j =>
      let k := bucketOf j bucket.val
      match k.own with
      | some o =>
        match o.dueAt with
        | some since =>
          let limit := (getReg s .clrBcastLimit (jobTile j) 0).toNat
          if k.state == .wait && !strictStep j k && decide (since + limit ≤ s.beat.waits) then
            let s := modBucket s j.id bucket.val (fun k => { k with state := .failed, own := none, down := [] })
            fail (raiseEvent (setFlag s .clrStatus (jobTile j) 0 13) (clrSrc j)) o.cmd .peerLost 0x2B12
          else s
        | none => s
      | none => s)

end Sys2Proof.Machine
end

