-- ==== Sys2Proof/Machine/Ingest.lean ====
section
/-!
DEFINITION. The mills and ingest (16_ingest_video.md): streams and feeds, decoding on the mill and on the core dies, batches and
their records, encode streams, and the writes of the `MIL_` and `ING_` registers that have rows of their own.
-/
namespace Sys2Proof.Machine

/-! ### Streams, batches and mills -/

/-- An open stream. -/
def findStream (s : State) (id : Nat) : Option MilStream := mapGet (fun _ => none) s.streams id

/-- A stream put or removed. -/
def setStreamEntry (s : State) (id : Nat) (x : Option MilStream) : State :=
  { s with streams := mapSet (fun _ => none) s.streams id x }

/-- An open stream updated. -/
def modStream (s : State) (id : Nat) (f : MilStream → MilStream) : State :=
  match findStream s id with
  | some x => setStreamEntry s id (some (f x))
  | none => s

/-- The open streams, by ID. -/
def openStreams (s : State) : List (Nat × MilStream) := s.streams.filterMap (fun e => e.2.map (fun x => (e.1, x)))

/-- R501: the tile of a stream. -/
def streamTile (id : Nat) : Nat := id / 128

/-- A batch. -/
def findBatch (s : State) (b : Nat) : Option Batch := mapGet (fun _ => none) s.batches b

/-- A batch put or removed. -/
def setBatch (s : State) (b : Nat) (x : Option Batch) : State := { s with batches := mapSet (fun _ => none) s.batches b x }

/-- A mill. -/
def millOf (s : State) (t : Nat) : Mill := mapGet (fun _ => Mill.reset) s.mills t

/-- A mill replaced. -/
def setMill (s : State) (t : Nat) (m : Mill) : State := { s with mills := mapSet (fun _ => Mill.reset) s.mills t m }

/-- R496: the blocks across and down of a plane of w × h values. -/
def planeBlocks (w h : Nat) : Nat × Nat := ((w + 31) / 32, (h + 31) / 32)

/-- R496: NEED(W, H). -/
def needBytes (w h : Nat) : Nat :=
  let y := planeBlocks w h
  let c := planeBlocks ((w + 1) / 2) ((h + 1) / 2)
  2048 * (y.1 * y.2 + 2 * (c.1 * c.2))

/-- R497: the pool pages of a stream. -/
def streamPages (f w h : Nat) : Nat :=
  let n := 3 * ((w + 63) / 64 * 64) * ((h + 63) / 64 * 64)
  f * ((n + 2 ^ 21 - 1) / 2 ^ 21)

/-- The pages committed from a mill's pool. -/
def pagesUsed (s : State) (t : Nat) : Nat :=
  (openStreams s).foldl (fun n x => if streamTile x.1 = t then n + x.2.pages else n) 0

/-- R497: the pages of a mill's pool. -/
def poolPages (s : State) (t : Nat) : Nat := 512 * getBits (getReg s .milPool t 0) 16 16

/-- The open streams of a mill. -/
def millStreams (s : State) (t : Nat) : List (Nat × MilStream) := (openStreams s).filter (fun x => streamTile x.1 == t)

/-- R501: the lowest free stream entry of a mill. -/
def freeEntry (s : State) (t : Nat) : Option Nat := (List.range 128).find? (fun n => (findStream s (128 * t + n)).isNone)

/-- R501: what stands against a command that names a stream; one that closes accepts no feed and no second close (log entry 25). -/
def streamError (s : State) (q id : Nat) : Option (Status × Nat) :=
  match findStream s id with
  | none => some (.badParam, 0x2F02)
  | some x =>
    if queueWho s q ≠ some x.partition then some (.denied, 0x2F40)
    else if x.closing then some (.badParam, 0x2F02)
    else none

/-! ### Opening streams -/

/-- R499: the fields of STREAM_OPEN. -/
def streamFieldsOk (p : StreamParams) : Bool :=
  let w := p.maxW.toNat
  let h := p.maxH.toNat
  decide (p.codec.val ≤ 2 ∧ p.priority.toNat < 16 ∧ 16 ≤ w ∧ w ≤ 8192 ∧ w % 2 = 0 ∧ 16 ≤ h ∧ h ≤ 8192 ∧ h % 2 = 0
      ∧ p.initQp.toNat = 0 ∧ p.batch.toNat ≤ 255)
    && (p.live || decide (p.stale.toNat = 0)) && (!p.subframe || decide (w ≤ 1920 ∧ h ≤ 1080))

/-- R500: the batch can take the stream's samples. -/
def batchTakes (s : State) (part b w h : Nat) : Bool :=
  match findBatch s b with
  | none => false
  | some x =>
    x.partition == part && !x.fills.isEmpty && x.fills.all (fun f => decide (needBytes w h ≤ f.bytes))
      && (openStreams s).all (fun y => y.2.encode || y.2.batch != b || (y.2.maxW == w && y.2.maxH == h))

/-- An open that fails for want of pages sets POOL_SHORT. -/
def openFail (s : State) (c : Cmd) (tile : Nat) (e : Status × Nat) : State :=
  fail (if e.2 = 0x2F22 then setFlag s .milStatus tile 0 9 else s) c.id e.1 e.2

/-- STREAM_OPEN starts (R441, R500, R501). -/
def startStreamOpen (p : StreamParams) (s : State) (c : Cmd) : State :=
  let part := (queue s c.queue).partition
  let t := p.tile.val
  let w := p.maxW.toNat
  let h := p.maxH.toNat
  let pages := streamPages (if p.codec.val = 0 then 9 else 17) w h
  orFail s c (ctxError s c.queue p.ctx.val)
    (match firstError [
        (!millPresent s, .noResource, 0x8000 + t),
        (!streamFieldsOk p, .badParam, 0x2F01),
        (!batchTakes s part p.batch.toNat w h, .badParam, 0x2F03),
        ((freeEntry s t).isNone, .limitReached, 0x2F21),
        (decide (poolPages s t < pagesUsed s t + pages), .limitReached, 0x2F22)] with
      | some e => openFail s c t e
      | none =>
        let id := 128 * t + (freeEntry s t).getD 0
        succeed (setStreamEntry s id (some
          { encode := false, codec := p.codec.val, live := p.live, subframe := p.subframe, priority := p.priority.toNat
            partition := part, ctx := p.ctx.val, closing := false, batch := p.batch.toNat, pages := pages, stale := p.stale.toNat
            maxW := w, maxH := h, initQp := 0, rate := 0, outRing := 0, qp := 0, frames := 0, pictures := 0
            lastCapture := none, feeds := [], nextIndex := 0, access := false, corrupt := [], side := false, active := false
            activeFill := 0, rows := 0, fed := [], coded := [] })) c.id id)

/-- R403, R499: the reserved values of a STREAM_OPEN's parameters. -/
def streamBad (p : StreamParams) : Option Nat := firstBad [(decide (3 ≤ p.codec.val), 1), (p.initQp.toNat != 0, 8)]

/-- STREAM_OPEN (R499 to R501). -/
def execStreamOpen (h : Hdr) (p : StreamParams) (s : State) : Host.Outcome State Fault Refusal :=
  .next (command s h (.streamOpen h p) .partition (streamBad p) (startStreamOpen p))

/-- R527: a ring descriptor: BASE and size, when it is well formed. -/
def ringOf (d : List Byte) : Option (Nat × Nat) :=
  let base := fieldLe d 0 8
  let log2 := fieldLe d 8 1
  if fieldLe d 60 4 = crc32c (d.take 16) ∧ base < 2 ^ 44 ∧ base % 256 = 0 ∧ 12 ≤ log2 ∧ log2 ≤ 30 then
    (if zeroBytes d 9 7 && zeroBytes d 32 28 then some (base, 2 ^ log2) else none)
  else none

/-- R523: the fields of ENCODE_OPEN. -/
def encodeFieldsOk (p : EncodeParams) : Bool :=
  let w := p.w.toNat
  let h := p.h.toNat
  let q := p.initQp.toNat
  decide (64 ≤ w ∧ w ≤ 8192 ∧ w % 2 = 0 ∧ 64 ≤ h ∧ h ≤ 8192 ∧ h % 2 = 0 ∧ p.rate.toNat ≠ 0)
    && (if p.hevc then decide (q ≤ 51) else decide (1 ≤ q))

/-- R523: a ring descriptor that has been read keeps to R527. -/
def encodeRingOk (d : List Byte) (poison : Option Nat) : Bool := poison.isNone && (ringOf d).isSome

/-- R523: OUT_RING lies in the memory of another partition. -/
def ringElsewhere (s : State) (part a : Nat) : Bool :=
  (List.range 16).any (fun p => p != part && partActive s p && inExtents (Machine.part s p).desc a)

/-- ENCODE_OPEN starts (R441, R523). -/
def startEncodeOpen (p : EncodeParams) (s : State) (c : Cmd) : State :=
  let part := (queue s c.queue).partition
  let t := p.tile.val
  let w := p.w.toNat
  let h := p.h.toNat
  let pages := streamPages 2 w h
  orFail s c (ctxError s c.queue p.ctx.val <|> firstError [
      (ringElsewhere s part p.outRing.toNat, .denied, 0x2F40),
      (!millPresent s, .noResource, 0x8000 + t),
      (!encodeFieldsOk p, .badParam, 0x2F01),
      (decide (p.outRing.toNat % 64 ≠ 0) || !inPartition s part p.outRing.toNat 64, .badParam, 0x2F07)])
    (let r := readBytes s (waysOf s (some part)) p.outRing.toNat 64
     let s := r.2.2
     match firstError [
       (!encodeRingOk r.1 r.2.1, .badParam, 0x2F07),
       ((freeEntry s t).isNone || decide (16 ≤ ((millStreams s t).filter (fun x => x.2.encode)).length), .limitReached, 0x2F21),
       (decide (poolPages s t < pagesUsed s t + pages), .limitReached, 0x2F22)] with
     | some e => openFail s c t e
     | none =>
       let id := 128 * t + (freeEntry s t).getD 0
       succeed (setStreamEntry s id (some
         { encode := true, codec := boolNat p.hevc, live := false, subframe := p.subframe, priority := p.priority.val
           partition := part, ctx := p.ctx.val, closing := false, batch := 0, pages := pages, stale := 0
           maxW := w, maxH := h, initQp := p.initQp.toNat, rate := p.rate.toNat, outRing := p.outRing.toNat
           qp := 0, frames := 0, pictures := 0, lastCapture := none, feeds := [], nextIndex := 0, access := false
           corrupt := [], side := false, active := false, activeFill := 0, rows := 0, fed := [], coded := [] })) c.id id)

/-- ENCODE_OPEN (R523). -/
def execEncodeOpen (h : Hdr) (p : EncodeParams) (s : State) : Host.Outcome State Fault Refusal :=
  .next (command s h (.encodeOpen h p) .partition none (startEncodeOpen p))

/-! ### Slots -/

/-- The fill that a new feed of a batch takes its slot in: the first armed one with a free slot (log entry 26). -/
def takingFill (x : Batch) : Option Fill := x.fills.find? (fun f => decide (f.taken < f.slots))

/-- The number of the first fill in which a new side of a stream is in effect (R519). -/
def nextSideFill (x : Batch) : Nat :=
  match takingFill x with
  | some f => f.number + 1
  | none => x.nextFill

/-- R519: the side in effect for a stream in fill `n`. -/
def sideAt (x : MilStream) (n : Nat) : Bool := if x.activeFill ≤ n then x.side else x.active

/-- R519: ACTIVE of a stream. -/
def activeSide (s : State) (x : MilStream) : Bool :=
  match findBatch s x.batch with
  | some b => sideAt x (nextSideFill b - 1)
  | none => x.active

/-- A feed of a stream updated. -/
def modFeed (s : State) (id n : Nat) (f : Feed → Feed) : State :=
  modStream s id (fun x => { x with feeds := x.feeds.map (fun y => if y.number = n then f y else y) })

/-- The feeds of a batch's decode streams that hold no slot. -/
def slotless (s : State) (b : Nat) : List (Nat × Feed) :=
  (openStreams s).flatMap (fun x => if !x.2.encode && x.2.batch == b then
    (x.2.feeds.filter (fun f => f.slot.isNone)).map (fun f => (x.1, f)) else [])

/-- The feed that the teller started first. -/
def earliest : List (Nat × Feed) → Option (Nat × Feed)
  | [] => none
  | x :: t =>
    match earliest t with
    | some y => if y.2.number < x.2.number then some y else some x
    | none => some x

/-- R513: waiting feeds of a batch take slots in start order; `fuel` bounds their number. -/
def assignSlots (s : State) (b : Nat) : Nat → State
  | 0 => s
  | fuel + 1 =>
    match findBatch s b, earliest (slotless s b) with
    | some x, some (id, f) =>
      match takingFill x with
      | some l =>
        let s := setBatch s b (some { x with fills := x.fills.map (fun g => if g.number = l.number then { g with taken := g.taken + 1 } else g) })
        let s := modStream s id (fun y => { y with active := sideAt y l.number })
        let core := match findStream s id with
          | some y => y.active
          | none => false
        assignSlots (modFeed s id f.number (fun y => { y with slot := some (l.number, l.taken), core := core })) b fuel
      | none => s
    | _, _ => s

/-- `n` bytes as a free number: a record field that the spec does not state (log entry 5). -/
def freeField (s : State) (n : Nat) : Nat × State :=
  let f := freeBytes s n
  (leNat f.1, f.2)

/-- R516: a slot's entry in the record. -/
def slotEntryBytes (e : SlotEntry) : List Byte :=
  leBytes 1 (e.reason + 8 * boolNat e.side) ++ [0] ++ leBytes 2 e.stream ++ leBytes 4 e.ticket ++ leBytes 8 e.capture
    ++ leBytes 2 e.width ++ leBytes 2 e.height ++ leBytes 4 e.order ++ leBytes 2 e.detail ++ List.replicate 6 0

/-- R516: a slot's entry. -/
def fillEntry (f : Fill) (i : Nat) : SlotEntry := (mapGet (fun _ => none) f.done i).getD ⟨5, false, 0xFFFF, 0, 0, 0, 0, 0, 0⟩

/-- R516: a fill's record. -/
def batchRecord (b : Nat) (f : Fill) (beat : Nat) : List Byte :=
  let es := (List.range f.slots).map (fillEntry f)
  let valid := countWhere (fun e => e.reason == 0) es
  let h := leBytes 4 0x0900BA7C ++ leBytes 2 b ++ leBytes 2 0 ++ leBytes 4 f.number ++ leBytes 4 f.slots ++ leBytes 4 valid
    ++ leBytes 4 (rndFp32 (.fin false valid 1)).toNat ++ leBytes 8 beat ++ List.replicate 28 0
  let t := es.flatMap slotEntryBytes ++ es.flatMap (fun e => leBytes 4 (if e.reason = 0 then 0x3F800000 else 0))
    ++ es.flatMap (fun e => leBytes 4 e.width)
  h ++ leBytes 4 (crc32c (h ++ [0, 0, 0, 0] ++ t)) ++ t

/-- R511: a batch without armed fill that no open stream names is no more. -/
def dropBatch (s : State) (b : Nat) : State :=
  match findBatch s b with
  | some x => if x.fills.isEmpty && (openStreams s).all (fun y => y.2.encode || y.2.batch != b) then setBatch s b none else s
  | none => s

/-- R515: the fills of a batch that are complete, in order: the record is written and BATCH_DEFINE completes; `fuel` bounds their
number. -/
def settleBatch (s : State) (b : Nat) : Nat → State
  | 0 => s
  | fuel + 1 =>
    match findBatch s b with
    | none => s
    | some x =>
      match x.fills with
      | f :: rest =>
        if f.done.length = f.slots then
          let s := writeRange s (waysOf s (some x.partition)) f.record (batchRecord b f s.beat.count)
          settleBatch (succeed (setBatch s b (some { x with fills := rest })) f.cmd 0) b fuel
        else s
      | [] => dropBatch s b

/-- R514: a slot is resolved: one without a sample is zeroed. -/
def resolveSlot (s : State) (b fill slot : Nat) (e : SlotEntry) : State :=
  match findBatch s b with
  | none => s
  | some x =>
    match x.fills.find? (fun f => f.number == fill) with
    | none => s
    | some f =>
      let s := if e.reason = 0 then s
        else writeRange s (waysOf s (some x.partition)) (f.dest + slot * f.bytes) (List.replicate f.bytes 0)
      setBatch s b (some { x with fills := x.fills.map (fun g =>
        if g.number = fill then { g with done := mapSet (fun _ => none) g.done slot (some e) } else g) })

/-- A stream's entry and pages are freed, its frames leave the mill and the wort buffer, and a STREAM_CLOSE that waits on it completes. -/
def freeStream (s : State) (id : Nat) (d : Done) : State :=
  match findStream s id with
  | none => s
  | some x =>
    let m := millOf s (streamTile id)
    let gone := (m.decoding.filter (fun e => e.stream == id)).foldl (fun n e => n + e.wort) 0
    let s := setMill s (streamTile id) { m with
      decoding := m.decoding.filter (fun e => e.stream != id), units := m.units.filter (fun u => u.stream != id)
      wort := m.wort - gone }
    let s := setStreamEntry s id none
    let s := completeAll s ((s.cmds.filter (fun c => c.wait == .streamClose id)).map (·.id)) d
    if x.encode then s else dropBatch s x.batch

/-- R529: a closing stream without feeds is freed. -/
def closeIfDone (s : State) (id : Nat) : State :=
  match findStream s id with
  | some x => if x.closing && x.feeds.isEmpty then freeStream s id { status := .ok } else s
  | none => s

/-- What ends a feed: its record entry's reason, size and order, and its completion. -/
structure FeedEnd where
  reason : Nat
  side   : Bool
  width  : Nat
  height : Nat
  order  : Option Nat
  done   : Done
  deriving DecidableEq, Repr

/-- R503, R514, R516: a feed completes: its slot is resolved, then its command completes. -/
def endFeed (s : State) (id : Nat) (x : MilStream) (f : Feed) (e : FeedEnd) : State :=
  let s := match f.slot with
    | some (fill, slot) =>
      let o := match e.order with
        | some n => (n, s)
        | none => freeField s 4
      resolveSlot o.2 x.batch fill slot ⟨e.reason, e.side, id, f.ticket, f.capture, if e.reason = 0 then e.width else 0,
        if e.reason = 0 then e.height else 0, o.1, e.done.detail⟩
    | none => s
  complete (modStream s id (fun y => { y with feeds := y.feeds.filter (fun g => g.number != f.number) })) f.cmd e.done

/-- A feed that ends without having been parsed. -/
def unparsed (f : Feed) (reason : Nat) (d : Done) : FeedEnd := ⟨reason, f.core, 0, 0, none, d⟩

/-- R508: a rejected stream is closed: its other feeds complete and its entry and pages are freed. -/
def rejectStream (s : State) (id : Nat) : State :=
  match findStream s id with
  | none => s
  | some x =>
    let s := x.feeds.foldl (fun s f => endFeed s id x f (unparsed f 3 { status := .badParam, detail := 0x2F02 })) s
    let t := streamTile id
    let s := raiseEvent (setFlag (count s .milRejected t 0) .milStatus t 0 8) (tileSrc t 29)
    settleBatch (freeStream s id { status := .ok }) x.batch 5

/-- R529: the streams of a context that ends. -/
def endStreams (s : State) (ctx detail : Nat) : State :=
  ((openStreams s).filter (fun x => x.2.ctx == ctx)).foldl (fun s x =>
    let d : Done := { status := .contextKilled, detail := detail }
    let s := x.2.feeds.foldl (fun s f => endFeed s x.1 x.2 f (unparsed f 3 d)) s
    settleBatch (freeStream s x.1 d) x.2.batch 5) s

/-! ### Feeds and batches -/

/-- R505: a feed's capture stamp. -/
def captureOf (s : State) (capture : Nat) : Nat := if capture = 0 then s.beat.count else capture

/-- STREAM_FEED starts (R501, R502, R505, R513). -/
def startStreamFeed (id src len capture : Nat) (s : State) (c : Cmd) : State :=
  orFail s c (streamError s c.queue id)
    (match findStream s id with
      | none => s
      | some x =>
        orFail s c (firstError [
            (decide (len = 0 ∨ 16777216 < len) || !inPartition s x.partition src len
              || (x.encode && decide (len < needBytes x.maxW x.maxH)), .badParam, 0x2F05),
            (decide (capture ≠ 0) && !s.beat.synced, .beatLost, 0x2F06),
            (decide (64 ≤ x.feeds.length), .limitReached, 0x2F23)])
          (let n := s.nextFeed
           let f : Feed := ⟨n, c.id, x.nextIndex, c.ticket, src, len, captureOf s capture, none, false, .waiting⟩
           let s := setWait { s with nextFeed := n + 1 } c.id (.feed id n)
           let s := modStream s id (fun y => { y with feeds := y.feeds ++ [f], nextIndex := y.nextIndex + 1 })
           if x.encode then s else assignSlots s x.batch 1))

/-- STREAM_FEED (R502, R503). -/
def execStreamFeed (h : Hdr) (stream : BitVec 16) (src : BitVec 44) (len : BitVec 32) (capture : BitVec 64) (s : State) :
    Host.Outcome State Fault Refusal :=
  .next (command s h (.streamFeed h stream src len capture) .partition none
    (startStreamFeed stream.toNat src.toNat len.toNat capture.toNat))

/-- STREAM_CLOSE starts (R501, R529). -/
def startStreamClose (id : Nat) (s : State) (c : Cmd) : State :=
  orFail s c (streamError s c.queue id)
    (closeIfDone (modStream (setWait s c.id (.streamClose id)) id (fun x => { x with closing := true })) id)

/-- STREAM_CLOSE (R529). -/
def execStreamClose (h : Hdr) (stream : BitVec 16) (s : State) : Host.Outcome State Fault Refusal :=
  .next (command s h (.streamClose h stream) .partition none (startStreamClose stream.toNat))

/-- R510: the parameters of BATCH_DEFINE and its areas. -/
def batchFieldsOk (s : State) (part b slots bytes dest record : Nat) : Bool :=
  decide (b ≤ 255 ∧ 1 ≤ slots ∧ slots ≤ 65536 ∧ bytes ≠ 0 ∧ bytes % 256 = 0 ∧ dest % 256 = 0 ∧ record % 64 = 0)
    && inPartition s part dest (slots * bytes) && inPartition s part record (64 + 40 * slots)

/-- BATCH_DEFINE starts (R510 to R513). -/
def startBatchDefine (b slots bytes dest record : Nat) (s : State) (c : Cmd) : State :=
  let part := (queue s c.queue).partition
  let x := findBatch s b
  orFail s c (firstError [
      (!millPresent s, .noResource, 0x8000 + b % 4),
      (!batchFieldsOk s part b slots bytes dest record, .badParam, 0x2F04),
      (x.any (fun y => y.partition != part), .denied, 0x2F40),
      ((openStreams s).any (fun y => !y.2.encode && y.2.batch == b && decide (bytes < needBytes y.2.maxW y.2.maxH)),
        .badParam, 0x2F03),
      (x.any (fun y => decide (4 ≤ y.fills.length)), .limitReached, 0x2F24)])
    (let y : Batch := x.getD ⟨part, [], 0⟩
     let f : Fill := ⟨y.nextFill, slots, bytes, dest, record, c.id, 0, [], false⟩
     let s := setWait s c.id (.batchFill b y.nextFill)
     let s := setBatch s b (some { y with fills := y.fills ++ [f], nextFill := (y.nextFill + 1) % 2 ^ 32 })
     assignSlots s b (slotless s b).length)

/-- BATCH_DEFINE (R510). -/
def execBatchDefine (h : Hdr) (batch : BitVec 16) (slots sampleBytes : BitVec 32) (dest record : BitVec 44) (s : State) :
    Host.Outcome State Fault Refusal :=
  .next (command s h (.batchDefine h batch slots sampleBytes dest record) .partition none
    (startBatchDefine batch.toNat slots.toNat sampleBytes.toNat dest.toNat record.toNat))

/-- R517: the free slots of a fill become padding. -/
def padFree (s : State) (b : Nat) (f : Fill) : Nat → State
  | 0 => s
  | n + 1 =>
    let slot := f.slots - (n + 1)
    let t := freeField s 4
    let c := freeField t.2 8
    let o := freeField c.2 4
    padFree (resolveSlot o.2 b f.number slot ⟨5, false, 0xFFFF, t.1, c.1, 0, 0, o.1, 0⟩) b f n

/-- R517: CLOSE ends a batch's filling fill, the first that is armed and not complete. -/
def closeFill (s : State) (b : Nat) : State :=
  match findBatch s b with
  | none => s
  | some x =>
    match x.fills with
    | [] => s
    | f :: _ =>
      let s := padFree s b f (f.slots - f.taken)
      match findBatch s b with
      | none => s
      | some y =>
        settleBatch (setBatch s b (some { y with fills := y.fills.map (fun g =>
          if g.number = f.number then { g with taken := g.slots, closed := true } else g) })) b 5

/-- BATCH_CLOSE: a write of 1 to CLOSE in `ING_BATCH_CTRL` (R517, R530). -/
def execBatchClose (a : Agent) (tile : Fin 4) (entry : Fin 64) (s : State) : Host.Outcome State Fault Refusal :=
  .next (
    let b := 4 * entry.val + tile.val
    if s.phase != .running then s
    else if !millPresent s then refuseAccess s a (tileSrc tile.val 30)
    else
      match findBatch s b with
      | some x => if actsFor a x.partition then answer (closeFill s b) a false 0 else refuseAccess s a (tileSrc tile.val 30)
      | none => refuseAccess s a (tileSrc tile.val 30))

/-! ### Decoding -/

/-- R504: a stream's feed is served before another's. -/
def servedBefore (a b : Nat × MilStream × Feed) : Bool :=
  if a.2.1.live != b.2.1.live then a.2.1.live
  else if a.2.1.priority ≠ b.2.1.priority then decide (a.2.1.priority < b.2.1.priority)
  else if a.2.2.capture ≠ b.2.2.capture then decide (a.2.2.capture < b.2.2.capture)
  else decide (a.1 < b.1)

/-- R504: the feed served next among candidates. -/
def bestFeed : List (Nat × MilStream × Feed) → Option (Nat × MilStream × Feed)
  | [] => none
  | x :: t =>
    match bestFeed t with
    | some y => if servedBefore y x then some y else some x
    | none => some x

/-- The first feed of each stream of a mill that waits for it: a decode feed that holds a slot and that the mill decodes, or the
encode streams' feeds. -/
def waitingFeeds (s : State) (t : Nat) (encode : Bool) : List (Nat × MilStream × Feed) :=
  (millStreams s t).filterMap (fun x =>
    if x.2.encode != encode then none
    else (x.2.feeds.find? (fun f => f.stage == .waiting && !f.core)).bind (fun f =>
      if encode || f.slot.isSome then some (x.1, x.2, f) else none))

/-- R506: a feed is stale at this beat. -/
def isStale (s : State) (x : MilStream) (f : Feed) : Bool :=
  x.stale != 0 && !s.beat.lost && decide (f.capture + x.stale < s.beat.count)

/-- FRAME_DECODE_START (R504, R506): the bitstream engine takes the next feed; a stale frame that no later frame references is
not decoded. The engine waits while the wort buffer has no room (R492). -/
def execFrameDecodeStart (tile : Fin 4) (f : FrameStart) (s : State) : Host.Outcome State Fault Refusal :=
  .next (
    let t := tile.val
    let m := millOf s t
    match bestFeed (waitingFeeds s t false) with
    | none => s
    | some (id, x, y) =>
      if s.phase != .running || decide (2 ^ 24 < m.wort + f.wort.toNat) then s
      else
        let s := setMill s t { m with
          decoding := m.decoding ++ [⟨id, y.number, f.wort.toNat, f.width.toNat, f.height.toNat, 0, none⟩]
          wort := m.wort + f.wort.toNat, peak := max m.peak (m.wort + f.wort.toNat) }
        modFeed s id y.number (fun g => { g with stage := .started (isStale s x y && !f.referenced) }))

/-- R496: block row `br` of a plane of w × h positions, cropped to cw × ch values given in raster order. -/
def planeRow (w h cw ch : Nat) (v : Nat → BitVec 10) (br : Nat) : List Byte :=
  (List.range (planeBlocks w h).1).flatMap (fun bc =>
    (List.range 1024).flatMap (fun e =>
      let r := 32 * br + e / 32
      let c := 32 * bc + e % 32
      if r < ch ∧ c < cw then leBytes 2 (encodePlain .fp16 .rne false (.fin false (v (r * cw + c)).toNat 1)) else [0, 0]))

/-- A plane of a stream's samples: its positions, its cropped size and its values. -/
structure Plane where
  w    : Nat
  h    : Nat
  cw   : Nat
  ch   : Nat
  vals : Nat → BitVec 10

/-- R495, R496: plane `p` of the sample of the last of a stream's feeds. -/
def samplePlane (x : MilStream) (d : Decoding) (fed : List (List Byte)) (p : Nat) : Plane :=
  let v := Config.codecSample x.codec fed p
  if p = 0 then ⟨x.maxW, x.maxH, d.width, d.height, v⟩
  else ⟨(x.maxW + 1) / 2, (x.maxH + 1) / 2, (d.width + 1) / 2, (d.height + 1) / 2, v⟩

/-- A block row of a plane. -/
def Plane.row (p : Plane) (br : Nat) : List Byte := planeRow p.w p.h p.cw p.ch p.vals br

/-- A plane's bytes, block row by block row. -/
def Plane.bytes (p : Plane) : List Byte := (List.range (planeBlocks p.w p.h).2).flatMap p.row

/-- R496: a sample's bytes. -/
def sampleBytes (x : MilStream) (d : Decoding) (fed : List (List Byte)) : List Byte :=
  (List.range 3).flatMap (fun p => (samplePlane x d fed p).bytes)

/-- R496: the Y block rows of a stream's samples. -/
def lumaRows (x : MilStream) : Nat := (planeBlocks x.maxW x.maxH).2

/-- R522: what Y block row `r` of a sample writes, as (offset, bytes): itself, and the chroma block row it completes. -/
def rowWrites (x : MilStream) (d : Decoding) (fed : List (List Byte)) (r : Nat) : List (Nat × List Byte) :=
  let y := planeBlocks x.maxW x.maxH
  let c := planeBlocks ((x.maxW + 1) / 2) ((x.maxH + 1) / 2)
  let chroma := fun p => (2048 * (y.1 * y.2 + (p - 1) * (c.1 * c.2) + r / 2 * c.1), (samplePlane x d fed p).row (r / 2))
  (2048 * (r * y.1), (samplePlane x d fed 0).row r)
    :: (if r % 2 = 1 ∨ r + 1 = lumaRows x then [chroma 1, chroma 2] else [])

/-- The memory of a feed's slot. -/
def slotBase (s : State) (x : MilStream) (y : Feed) : Option Nat :=
  match findBatch s x.batch, y.slot with
  | some b, some (fill, slot) => (b.fills.find? (fun g => g.number == fill)).map (fun g => g.dest + slot * g.bytes)
  | _, _ => none

/-- R507: how a frame ends: the row of its table (9 for a sample) and the completion. A skipped frame is parsed as far as its headers
(R506). -/
def frameOutcome (s : State) (x : MilStream) (y : Feed) (srcPoison : Option Nat) (f : FrameResult) : Nat × Done :=
  let skipped := y.stage == .started true
  let refs := f.check == .missingReference || (!f.access && (!x.access || f.refs.any (fun r => x.corrupt.contains r)))
  match srcPoison <|> f.poison.map (·.toNat) with
  | some a => (1, { status := .poisoned, detail := poisonDetail s a })
  | none =>
    if x.maxW < f.declW.toNat ∨ x.maxH < f.declH.toNat then (2, { status := .declaredSizeRejected, detail := 0x2F10 })
    else if f.check = .unsupported then (3, { status := .noResource, detail := 0x2F20 })
    else if refs then (4, { status := .streamCorrupt, detail := 0x2F13 })
    else if f.check = .wrongUnits then (5, { status := .streamCorrupt, detail := 0x2F14 })
    else if f.check = .badSyntax then (6, { status := .streamCorrupt, detail := 0x2F11 })
    else if f.check = .shortData && !skipped then (7, { status := .streamCorrupt, detail := 0x2F12 })
    else if skipped || isStale s x y then (8, { status := .staleDropped, detail := 0x2F30 })
    else (9, { status := .ok })

/-- R516: the REASON of each row of R507. -/
def rowReason (row : Nat) : Nat :=
  if row = 1 then 4 else if row ≤ 3 then 3 else if row ≤ 7 then 1 else if row = 8 then 2 else 0

/-- R506: a dropped frame is counted. -/
def countStale (s : State) (t : Nat) : State := setFlag (count s .milStale t 0) .ingStatus t 0 8

/-- The counters of R507's rows, and of a frame that was decoded. -/
def countFrame (s : State) (t row : Nat) (decoded : Bool) (luma : Nat) : State :=
  let s := if 4 ≤ row ∧ row ≤ 7 then count s .milCorrupt t 0 else s
  let s := if row = 8 then countStale s t else s
  if decoded then count (count s .milDecFrames t 0) .milDecSamples t 0 luma else s

/-- R509: what a frame leaves of the stream's corrupt pictures and its random access point. -/
def afterFrame (x : MilStream) (y : Feed) (access decoded : Bool) : MilStream :=
  let clean := access && decoded
  let old := if clean then [] else x.corrupt
  { x with access := x.access || clean, corrupt := if decoded then old else old ++ [y.index] }

/-- R507 to R509, R514: the oldest frame of a mill ends by a row of R507's table; `f` is what parsing it gave, if it came to that. -/
def endFrame (s : State) (t : Nat) (d : Decoding) (x : MilStream) (y : Feed) (f : Option FrameResult) (o : Nat × Done)
    (fed : List (List Byte)) : State :=
  let m := millOf s t
  let id := d.stream
  let row := o.1
  let decoded := decide (8 ≤ row) && y.stage != .started true
  let s := setMill s t { m with decoding := m.decoding.drop 1, wort := m.wort - d.wort }
  let s := countFrame s t row decoded (d.width * d.height)
  let s := modStream s id (fun z =>
    let z := afterFrame z y (f.any (·.access)) decoded
    { z with frames := if row = 9 then min (z.frames + 1) 0xFFFFFFFF else z.frames, fed := fed })
  let s := endFeed s id x y ⟨rowReason row, false, d.width, d.height, f.map (·.order.toNat), o.2⟩
  let s := if row = 2 ∨ row = 3 then rejectStream s id else s
  closeIfDone (settleBatch s x.batch 5) id

/-- A mill's oldest frame with its stream and its feed. -/
def oldestFrame (s : State) (t : Nat) : Option (Decoding × MilStream × Feed) :=
  (millOf s t).decoding.head?.bind (fun d =>
    (findStream s d.stream).bind (fun x => (x.feeds.find? (fun y => y.number == d.feed)).map (fun y => (d, x, y))))

/-- A mill's oldest frame replaced. -/
def setFrame (s : State) (t : Nat) (d : Decoding) : State :=
  let m := millOf s t
  setMill s t { m with decoding := d :: m.decoding.drop 1 }

/-- FRAME_DECODE_DONE (R507 to R509, R514, R522): the oldest frame of the mill is parsed and judged, and ends; the sample of a SUBFRAME
stream is written a Y block row at a time first, once every check has passed (log entry 67). -/
def execFrameDecodeDone (tile : Fin 4) (f : FrameResult) (s : State) : Host.Outcome State Fault Refusal :=
  .next (
    let t := tile.val
    match oldestFrame s t with
    | none => s
    | some (d, x, y) =>
      if d.judged.isSome then s
      else
        let ways := waysOf s (some x.partition)
        let src := readBytes s ways y.src y.len
        let s := src.2.2
        let o := frameOutcome s x y src.2.1 f
        let fed := if src.2.1.isSome then x.fed else x.fed ++ [src.1]
        match slotBase s x y with
        | some base =>
          if o.1 = 9 then
            if x.subframe then modStream (setFrame s t { d with judged := some f }) d.stream (fun z => { z with fed := fed })
            else endFrame (writeRange s ways base (sampleBytes x d fed)) t d x y (some f) o fed
          else endFrame s t d x y (some f) o fed
        | none => endFrame s t d x y (some f) o fed)

/-- R522: the next Y block row of a frame written. -/
def putRow (s : State) (t : Nat) (d : Decoding) (x : MilStream) (base : Nat) : State :=
  let s := (rowWrites x d x.fed d.written).foldl (fun s p => writeRange s (waysOf s (some x.partition)) (base + p.1) p.2) s
  setFrame s t { d with written := d.written + 1 }

/-- R522: the pixel engine of a mill goes on with the frame of a SUBFRAME stream that has passed its checks. A Y block row is written;
then, in its home, it shows in ROWS, which the first row of a frame has set to 0. The frame ends with its last row; one that is stale
before its first (R506) is dropped. -/
def writeNextRow (s : State) (t : Nat) : State :=
  match oldestFrame s t with
  | none => s
  | some (d, x, y) =>
    match d.judged, slotBase s x y with
    | some f, some base =>
      if d.written = 0 then
        if isStale s x y then endFrame s t d x y (some f) (8, { status := .staleDropped, detail := 0x2F30 }) x.fed
        else modStream (putRow s t d x base) d.stream (fun z => { z with rows := 0 })
      else if x.rows ≠ d.written then modStream s d.stream (fun z => { z with rows := d.written })
      else if d.written < lumaRows x then putRow s t d x base
      else endFrame s t d x y (some f) (9, { status := .ok }) x.fed
    | _, _ => s

/-! ### The core side -/

/-- The ring of a partition on a tile: its base and size, when it is in use. -/
def coreRing (s : State) (t p : Nat) : Option (Nat × Nat) :=
  let w := getReg s .ingCoreRing t p
  if natBit w.toNat 63 then some (getBits w 0 44, 2 ^ getBits w 48 5) else none

/-- A tile's feeds of a partition that stand at an entry of its ring. -/
def postedAt (s : State) (t p e : Nat) : Option (Nat × MilStream × Feed) :=
  ((millStreams s t).filter (fun x => x.2.partition == p)).findSome? (fun x =>
    (x.2.feeds.find? (fun f => f.stage == .posted e)).map (fun f => (x.1, x.2, f)))

/-- R520: the feeds of a partition that wait to be posted where the ring of their tile has a free entry. -/
def postable (s : State) (p : Nat) : List (Nat × Feed) :=
  (openStreams s).flatMap (fun x =>
    let t := streamTile x.1
    match coreRing s t p with
    | some r =>
      let e := getBits (getReg s .ingCoreProd t p) 0 17 % r.2
      if x.2.partition == p && (postedAt s t p e).isNone then
        (x.2.feeds.filter (fun f => f.core && f.stage == .waiting && f.slot.isSome)).map (fun f => (x.1, f))
      else []
    | none => [])

/-- R520: a core-ring entry. -/
def coreEntry (id : Nat) (x : MilStream) (f : Feed) (slot dest : Nat) : List Byte :=
  let b := leBytes 2 id ++ leBytes 1 x.codec ++ [0] ++ leBytes 4 slot ++ leBytes 8 f.src ++ leBytes 4 f.len
    ++ leBytes 2 x.maxW ++ leBytes 2 x.maxH ++ leBytes 8 f.capture ++ leBytes 8 dest ++ List.replicate 20 0
  b ++ leBytes 4 (crc32c b)

/-- CORE_RING_ENTRY_POST (R520): the earliest feed of the partition that waits for its ring is posted. -/
def execCoreRingEntryPost (partition : Fin 16) (s : State) : Host.Outcome State Fault Refusal :=
  .next (
    let p := partition.val
    match earliest (postable s p) with
    | none => s
    | some (id, f) =>
      let t := streamTile id
      match coreRing s t p, findStream s id, f.slot with
      | some r, some x, some (fill, slot) =>
        let prod := getBits (getReg s .ingCoreProd t p) 0 17
        let dest := match (findBatch s x.batch).bind (fun b => b.fills.find? (fun g => g.number == fill)) with
          | some g => g.dest + slot * g.bytes
          | none => 0
        let s := storeFor s (some p) t (r.1 + 64 * (prod % r.2)) (coreEntry id x f slot dest)
        let s := setField s .ingCoreProd t p 0 17 (prod + 1)
        modFeed s id f.number (fun g => { g with stage := .posted (prod % r.2) })
      | _, _, _ => s)

/-- R521: how a core-side feed ends: the row of R507's table it is treated as, and the completion. -/
def coreOutcome (s : State) (x : MilStream) (f : Feed) (bad : Bool) (result w h : Nat) : Nat × Done :=
  if bad then (6, { status := .streamCorrupt, detail := 0x2F15 })
  else if result = 3 ∨ x.maxW < w ∨ x.maxH < h then (2, { status := .declaredSizeRejected, detail := 0x2F10 })
  else if result = 4 then (3, { status := .noResource, detail := 0x2F20 })
  else if result = 2 then (6, { status := .streamCorrupt, detail := 0x2F11 })
  else if isStale s x f then (8, { status := .staleDropped, detail := 0x2F30 })
  else (9, { status := .ok })

/-- R521: a core-side feed's entry is checked and the feed ends. -/
def coreDone (s : State) (t p e : Nat) (id : Nat) (x : MilStream) (f : Feed) : State :=
  match coreRing s t p with
  | none => s
  | some r =>
    let rd := readBytes s (waysOf s (some p)) (r.1 + 64 * e) 64
    let d := rd.1
    let s := rd.2.2
    let result := fieldLe d 40 1 % 8
    let bad := rd.2.1.isSome || fieldLe d 60 4 != crc32c (d.take 60) || result == 0 || decide (4 < result)
    let o := coreOutcome s x f bad result (fieldLe d 44 2) (fieldLe d 46 2)
    let row := o.1
    let s := countFrame s t row false 0
    let s := if bad then raiseEvent (setFlag s .ingStatus t 0 9) (tileSrc t 29) else s
    let s := modStream s id (fun z => { z with
      corrupt := if row = 9 then z.corrupt else z.corrupt ++ [f.index]
      frames := if row = 9 then min (z.frames + 1) 0xFFFFFFFF else z.frames })
    let s := endFeed s id x f ⟨rowReason row, true, fieldLe d 44 2, fieldLe d 46 2, if bad then none else some (fieldLe d 48 4), o.2⟩
    let s := if row = 2 ∨ row = 3 then rejectStream s id else s
    closeIfDone (settleBatch s x.batch 5) id

/-- ING_CORE_DONE (R521, R530); an entry at which no feed stands changes nothing (log entry 27). -/
def execIngCoreDone (a : Agent) (tile : Fin 4) (v : Word) (s : State) : Host.Outcome State Fault Refusal :=
  .next (
    let p := getBits v 16 4
    let e := getBits v 0 16
    if s.phase != .running then s
    else if !millPresent s then refuseAccess s a (tileSrc tile.val 30)
    else if !actsFor a p then refuseAccess s a (tileSrc tile.val 30)
    else
      match postedAt s tile.val p e with
      | some (id, x, f) => answer (coreDone s tile.val p e id x f) a false 0
      | none => answer s a false 0)

/-- ING_STREAM_SIDE_WRITE (R519, R530, R13). -/
def execIngStreamSideWrite (a : Agent) (tile : Fin 4) (entry : Fin 128) (side : Bool) (s : State) :
    Host.Outcome State Fault Refusal :=
  .next (
    let id := 128 * tile.val + entry.val
    let src := tileSrc tile.val 30
    if s.phase != .running then s
    else if !millPresent s then refuseAccess s a (tileSrc tile.val 30)
    else
      match findStream s id with
      | none => refuseAccess s a src
      | some x =>
        if !actsFor a x.partition then refuseAccess s a src
        else if side && (coreRing s tile.val x.partition).isNone then reservedWrite s a src
        else
          let n := match findBatch s x.batch with
            | some b => nextSideFill b
            | none => 0
          answer (modStream s id (fun y => { y with active := activeSide s y, side := side, activeFill := n })) a false 0)

/-- ING_CORE_RING_WRITE (R530, R13): refused while a stream of the partition is decoded on the core side. That a
reserved LOG2 counts also where VALID is 0, and that a BASE which is not 64 B aligned is a reserved value, is the model's reading (DESIGN
CHOICE, log entry 59). -/
def execIngCoreRingWrite (a : Agent) (tile : Fin 4) (partition : Fin 16) (v : Word) (s : State) :
    Host.Outcome State Fault Refusal :=
  .next (
    let src := tileSrc tile.val 30
    let lg := getBits v 48 5
    if s.phase != .running then s
    else if !millPresent s then refuseAccess s a (tileSrc tile.val 30)
    else if !actsFor a partition.val then refuseAccess s a src
    else if (openStreams s).any (fun x => x.2.partition == partition.val && activeSide s x.2) then reservedWrite s a src
    else if lg = 0 ∨ 16 < lg ∨ getBits v 0 6 ≠ 0 then reservedWrite s a src
    else
      let w := setBits (setBits (setBits 0 63 1 (getBits v 63 1)) 48 5 lg) 0 44 (getBits v 0 44)
      answer (setReg s .ingCoreRing tile.val partition.val w) a false 0)

/-- MIL_POOL_WRITE (R497, R530, R13): the management controller sets a mill's pool while no stream is open on it. That a pool which leaves
the tile's HBM is a reserved value is the model's reading (DESIGN CHOICE, log entry 59): no rule says what such a write does. -/
def execMilPoolWrite (a : Agent) (tile : Fin 4) (v : Word) (s : State) : Host.Outcome State Fault Refusal :=
  .next (
    let t := tile.val
    let first := getBits v 0 16
    let n := getBits v 16 16
    let src := tileSrc t 30
    if s.phase != .running then s
    else if !millPresent s then refuseAccess s a (tileSrc tile.val 30)
    else if a ≠ .mmc || !(millStreams s t).isEmpty then refuseAccess s a src
    else if n ≠ 0 ∧ (first < 320 * t ∨ 320 * (t + 1) < first + n) then reservedWrite s a src
    else answer (setReg s .milPool t 0 (setBits (setBits 0 16 16 n) 0 16 first)) a false 0)

/-! ### Encoding -/

/-- R524: a value of a picture as the encoder takes it, and whether it was clamped or NaN. -/
def encodeSample (code : Nat) : Nat × Bool :=
  match elemDecode .fp16 code with
  | .nan => (0, true)
  | .inf neg => (if neg then 0 else 1023, true)
  | .fin neg n d =>
    let u := roundUnits n d .rne
    if neg && u != 0 then (0, true) else if 1023 < u then (1023, true) else (u, false)

/-- R496: the codes of a plane's w × h positions in a picture's bytes. -/
def planeCodes (w h : Nat) (b : List Byte) : List Nat :=
  let g := planeBlocks w h
  (List.range (w * h)).map (fun i =>
    let r := i / w
    let c := i % w
    fieldLe b (2048 * (r / 32 * g.1 + c / 32) + 2 * (32 * (r % 32) + c % 32)) 2)

/-- R524: the codes of a picture's three planes. -/
def pictureCodes (w h : Nat) (b : List Byte) : List Nat :=
  let y := planeBlocks w h
  let c := planeBlocks (w / 2) (h / 2)
  let cb := 2048 * (y.1 * y.2)
  let cr := cb + 2048 * (c.1 * c.2)
  planeCodes w h b ++ planeCodes (w / 2) (h / 2) (b.drop cb) ++ planeCodes (w / 2) (h / 2) (b.drop cr)

/-- R524: how many values of a picture are clamped. -/
def clampCount (w h : Nat) (b : List Byte) : Nat := countWhere (fun k => (encodeSample k).2) (pictureCodes w h b)

/-- R526: qp one block row further: `r` the row, `bits` the bits so far, `t` the bits for the picture, `n` its rows. -/
def nextQp (qmin qmax t n r bits qp : Nat) : Nat :=
  let target := t * (r + 1) / n
  if target * 9 / 8 < bits then min (qp + 1) qmax else if bits < target * 7 / 8 then max (qp - 1) qmin else qp

/-- R526: the qps of the block rows from the next one on, `k` of them, and qp after the last; `cost` gives the bits of the last of a list of
rows. -/
def rateRows (qmin qmax t n : Nat) (cost : List Nat → Nat) : Nat → Nat → Nat → List Nat → Nat × List Nat
  | 0, qp, _, qps => (qp, qps)
  | k + 1, qp, bits, qps =>
    let bits := bits + cost (qps ++ [qp])
    rateRows qmin qmax t n cost k (nextQp qmin qmax t n qps.length bits qp) bits (qps ++ [qp])

/-- R525, R526: what an encoder's output depends on beside its pictures. -/
def encodeSetup (x : MilStream) : List Nat := [x.codec, x.maxW, x.maxH, boolNat x.subframe]

/-- R526: qp after a picture of the given values, and the qps of its block rows. -/
def rateControl (x : MilStream) (capture : Nat) (values : List Nat) : Nat × List Nat :=
  let dt := match x.lastCapture with
    | some p => if capture ≤ p then 33333 else capture - p
    | none => 33333
  let n := (x.maxH + 63) / 64
  let qp := if x.lastCapture.isNone then x.initQp else x.qp
  let av1 := x.codec == 0
  rateRows (if av1 then 1 else 0) (if av1 then 255 else 51) (x.rate * dt / 1000) n
    (Config.rowBits (encodeSetup x) x.coded values) n qp 0 []

/-- R525: the latency mode that emits units within a picture. -/
def subPicture (x : MilStream) : Bool := x.subframe && decide (x.maxW ≤ 1920 ∧ x.maxH ≤ 1080)

/-- R525: a picture is a key frame. -/
def isKey (x : MilStream) : Bool := if x.subframe && !subPicture x then x.pictures == 0 else x.pictures % 256 == 0

/-- R525: the number of units of a picture: one for each pair of block rows, or one for the whole frame. -/
def unitCount (x : MilStream) : Nat := if subPicture x then ((x.maxH + 63) / 64 + 1) / 2 else 1

/-- R525, R526: the bytes of the units of a picture. -/
def pictureUnits (x : MilStream) (values qps : List Nat) : List (List Byte) :=
  (List.range (unitCount x)).map (Config.unitBytes (encodeSetup x) x.coded values qps)

/-- PICTURE_ENCODE (R504, R524 to R526): the encode pipeline takes the next picture, which the row names by its stream and its number there.
It holds one picture until its last unit is written. -/
def execPictureEncode (tile : Fin 4) (stream : BitVec 16) (picture : BitVec 32) (s : State) : Host.Outcome State Fault Refusal :=
  .next (
    let t := tile.val
    let m := millOf s t
    match bestFeed (waitingFeeds s t true) with
    | none => s
    | some (id, x, f) =>
      if s.phase != .running || !m.units.isEmpty || id != stream.toNat || x.pictures % 2 ^ 32 != picture.toNat then s
      else
        let src := readBytes s (waysOf s (some x.partition)) f.src (needBytes x.maxW x.maxH)
        let s := src.2.2
        match src.2.1 with
        | some a =>
          closeIfDone (endFeed s id x f (unparsed f 4 { status := .poisoned, detail := poisonDetail s a })) id
        | none =>
          let n := clampCount x.maxW x.maxH src.1
          let s := if n = 0 then s else count s .milEncClamps t 0 n
          let values := (pictureCodes x.maxW x.maxH src.1).map (fun k => (encodeSample k).1)
          let q := rateControl x f.capture values
          let us := pictureUnits x values q.2
          let us := us.mapIdx (fun i b => (⟨id, f.number, i, i + 1 == us.length, isKey x, x.pictures % 2 ^ 32, f.capture, b⟩ : EncUnit))
          let s := setMill (count s .milEncFrames t 0) t { m with units := us }
          let s := modFeed s id f.number (fun g => { g with stage := .started false })
          modStream s id (fun y => { y with
            qp := q.1, pictures := y.pictures + 1, lastCapture := some f.capture, coded := y.coded ++ [(values, q.2)] }))

/-- R528: a unit's record. -/
def unitRecord (u : EncUnit) : List Byte :=
  let h := leBytes 2 u.stream ++ leBytes 2 u.unit ++ leBytes 1 (boolNat u.last + 2 * boolNat u.key) ++ leBytes 3 0
    ++ leBytes 4 u.picture ++ leBytes 4 u.bytes.length ++ leBytes 8 u.capture ++ leBytes 4 0
  h ++ leBytes 4 (crc32c h) ++ u.bytes ++ List.replicate ((32 - u.bytes.length % 32) % 32) 0

/-- R528: bytes written for a partition into a ring from an offset on, wrapping at its end; what lies outside the partition's memory is
refused (log entry 67). -/
def writeRing (s : State) (part tile base size off : Nat) (b : List Byte) : State :=
  let s := storeFor s (some part) tile (base + off) (b.take (size - off))
  if b.length ≤ size - off then s else storeFor s (some part) tile base (b.drop (size - off))

/-- ENCODE_UNIT_EMIT (R528): the oldest unit is written once its record fits the free bytes of the ring. -/
def execEncodeUnitEmit (tile : Fin 4) (s : State) : Host.Outcome State Fault Refusal :=
  .next (
    let t := tile.val
    let m := millOf s t
    match m.units with
    | [] => s
    | u :: rest =>
      match findStream s u.stream with
      | none => s
      | some x =>
        let ways := waysOf s (some x.partition)
        let d := readBytes s ways x.outRing 64
        let base := fieldLe d.1 0 8 % 2 ^ 44
        let size := 2 ^ (fieldLe d.1 8 1 % 32)
        let prod := fieldLe d.1 16 8
        let used := (prod + 2 ^ 64 - fieldLe d.1 24 8) % 2 ^ 64
        let r := unitRecord u
        if size < used + r.length then d.2.2
        else
          let s := writeRing d.2.2 x.partition t base size (prod % size) r
          let s := writeRange s ways (x.outRing + 16) (leBytes 8 (prod + r.length))
          let s := setMill s t { m with units := rest }
          if u.last then
            match x.feeds.find? (fun f => f.number == u.feed) with
            | some f =>
              let s := endFeed s u.stream x f (unparsed f 0 { status := .ok })
              closeIfDone (modStream s u.stream (fun y => { y with frames := min (y.frames + 1) 0xFFFFFFFF })) u.stream
            | none => s
          else s)

/-- WORT_PEAK_READ: a 64-bit read of `MIL_WORT` returns USED and PEAK and clears PEAK (R10). -/
def execWortPeakRead (a : Agent) (tile : Fin 4) (s : State) : Host.Outcome State Fault Refusal :=
  .next (
    let m := millOf s tile.val
    if s.phase != .running then s
    else if !millPresent s then refuseAccess s a (tileSrc tile.val 30)
    else
      answer (setMill s tile.val { m with peak := 0 }) a false (BitVec.ofNat 64 (m.wort % 2 ^ 25 + 2 ^ 32 * (m.peak % 2 ^ 25))))

end Sys2Proof.Machine
end

