-- ==== Sys2Proof/Machine/Context.lean ====
section
/-!
DEFINITION. How a context ends (R456, R442, R443).
-/
namespace Sys2Proof.Machine

/-- R456: the context that a command names. -/
def cmdContext : Instr → Option Nat
  | .run _ x _ _ => some x.val
  | .runStep _ x _ _ _ _ => some x.val
  | .caskFlush _ x => some x.val
  | .setSeed _ x _ => some x.val
  | .contextClose _ x => some x.val
  | .auditArm _ x _ _ _ => some x.val
  | .auditDisarm _ x _ _ _ => some x.val
  | .auditRead _ x _ => some x.val
  | .jobOpen _ p => some p.ctx.val
  | .bucketContribute _ _ _ x _ _ _ => some x.val
  | .streamOpen _ p => some p.ctx.val
  | .encodeOpen _ p => some p.ctx.val
  | _ => none

/-- The commands of a context in flight, but for the CONTEXT_CLOSE that waits for its end; a command of another partition's queue
that names the context is none of its commands (R441). -/
def cmdsOfContext (s : State) (x : Nat) : List Nat :=
  (s.cmds.filter (fun c => cmdContext c.instr == some x && c.wait != .contextStop x
    && queueWho s c.queue == some (ctxOf s x).partition)).map (·.id)

/-- R456: the clusters of a context that ends have stopped. -/
def contextQuiet (s : State) (x : Nat) : Bool :=
  (List.range 64).all (fun c =>
    let v := cluster s c
    v.ctx != x || clusterQuiet v)

/-- R443: the partition has no open context left. -/
def lastContext (s : State) (p : Nat) : Bool :=
  (List.range 256).all (fun i => !((ctxOf s i).valid && (ctxOf s i).partition == p))

/-- A cluster's program store holds a program of a partition no longer. -/
def forgetLoaded (p : Nat) (s : State) (c : Nat) : State :=
  modCluster s c (fun v => if v.loaded.any (fun h => h.1 == p) then { v with loaded := none } else v)

/-- R443: a partition's program handles and program area are released. -/
def releasePrograms (s : State) (p : Nat) : State :=
  { (List.range 64).foldl (forgetLoaded p) s with programs := s.programs.filter (fun g => g.partition != p) }

/-- R442, R443: a context that is ending closes once its clusters have stopped. -/
def finishContext (s : State) (x : Nat) : State :=
  let k := ctxOf s x
  if k.valid && k.ending && contextQuiet s x then
    let s := setCtx s x Context.closed
    let s := if lastContext s k.partition then releasePrograms s k.partition else s
    completeAll s ((s.cmds.filter (fun c => c.wait == .contextStop x)).map (·.id)) { status := .ok }
  else s

/-- R456: a run of a context that ends. -/
def killRun (detail : Nat) (s : State) (r : Run) : State :=
  let d := dropRun s r
  complete d.2 r.cmd { status := .contextKilled, detail := detail, value := d.1, seed := r.defaultSeed }

/-- R456: a cluster that held a context's state holds none. -/
def forgetContext (x : Nat) (s : State) (c : Nat) : State :=
  modCluster s c (fun v => if v.holds.any (fun h => h.1 == x) then { v with holds := none, spoiled := false } else v)

/-- R456: every context end but CONTEXT_CLOSE is counted and raises an event (log entry 28). -/
def countKill (s : State) : State :=
  raiseEvent (setFlag (count s .prtKills 4 0) .prtStatus 4 0 8) (coreSrc 4 10)

/-- R456: a context ends with the detail given: its slices stop, its commands complete, its jobs and streams close, and its
saved state is discarded. -/
def endContext (s : State) (x detail : Nat) (kill : Bool) : State :=
  let k := ctxOf s x
  if !k.valid || k.ending then s
  else
    let s := setCtx s x { k with ending := true, savedRanks := [], stash := [] }
    let s := (s.runs.filter (fun r => r.ctx == x)).foldl (killRun detail) s
    let s := completeAll s (cmdsOfContext s x) { status := .contextKilled, detail := detail }
    let s := (List.range 64).foldl (forgetContext x) s
    let s := ((s.clr.filter (fun j => j.ctx == x)).map (·.id)).foldl forceJob s
    let s := endStreams s x detail
    finishContext (if kill then countKill s else s) x

end Sys2Proof.Machine
end

