-- ==== Sys2Proof/Machine/Peers.lean ====
section
/-!
DEFINITION. Inbound paths and settle counts (R333, R336, R338, R425, R426), and how a path, a peer, a queue pair or a controller is lost
(R337, R343, R356, R430).
-/
namespace Sys2Proof.Machine

/-! ### Inbound paths -/

/-- R338: the key of entry `e` of the inbound path table of a tile. -/
def inKey (tile e : Nat) : Nat := 4096 * tile + e

/-- The inbound path that an entry holds. -/
def inPath (s : State) (k : Nat) : Option InPath := mapGet (fun _ => none) s.inPaths k

/-- An inbound path entry replaced. -/
def setInPath (s : State) (k : Nat) (p : Option InPath) : State :=
  { s with inPaths := mapSet (fun _ => none) s.inPaths k p }

/-- R333: the entry of the inbound path (SRC_PKG, PATH), and the path. -/
def findIn (s : State) (pkg path : Nat) : Option (Nat × InPath) :=
  s.inPaths.findSome? (fun e => match e.2 with
    | some p => if p.srcPkg = pkg ∧ p.path = path then some (e.1, p) else none
    | none => none)

/-- R338: the lowest free entry of a tile's table. -/
def freeIn (s : State) (tile : Nat) : Option Nat :=
  ((List.range 4096).find? (fun e => (inPath s (inKey tile e)).isNone)).map (inKey tile)

/-! ### Settle counts -/

/-- R426: the settle count of an Icrun path (kind 1) or of a queue pair; a path with no entry counts as 0. -/
def settleCount (s : State) (kind pkg path : Nat) : Nat :=
  if kind = 1 then (match findIn s pkg path with
    | some p => p.2.settle
    | none => 0)
  else (qpair s (path % 1024)).settle

/-- R426: the SETTLE commands whose count is reached, with it. -/
def settledCmds (s : State) : List (Nat × Nat) :=
  s.cmds.filterMap (fun c => match c.wait with
    | .settle kind pkg path stamp _ _ =>
      let n := settleCount s kind pkg path
      if stamp ≤ n then some (c.id, n) else none
    | _ => none)

/-- R426: SETTLE commands whose count is reached complete OK with the count. -/
def settleReached (s : State) : State := (settledCmds s).foldl (fun s p => succeed s p.1 p.2) s

/-! ### Losses -/

/-- A command waits for the acknowledgement of what it wrote outside the module. -/
def writesOut (c : Cmd) : Bool :=
  match c.wait with
  | .remoteWrite _ _ _ => true
  | _ => false

/-- R343: no completion is posted for an abandoned write. -/
def quietWrite (c : Cmd) : Cmd := if writesOut c then { c with posts := false } else c

/-- R337: a packet with OPEN set. -/
def opened (p : Packet) : Packet :=
  let b := (p.hdr.getD 1 0).toNat
  ⟨sealHeader (splice p.hdr 1 [BitVec.ofNat 8 (b / 16 * 16 + 8 + b % 8)]), p.payload⟩

/-- R337: a path's unacknowledged packets without those of the given commands: the packet that follows a dropped one opens the path
again. The second component says whether the next packet sent must. -/
def dropPackets (ids : List Nat) : Bool → List OutPkt → List OutPkt × Bool
  | gap, [] => ([], gap)
  | gap, u :: t =>
    if u.cmd.any ids.contains then dropPackets ids true t
    else
      let r := dropPackets ids false t
      ((if gap then { u with pkt := opened u.pkt } else u) :: r.1, r.2)

/-- A path's packets of the given commands dropped; `gap` when the receiver does not hold the path. -/
def dropFromPath (s : State) (ids : List Nat) (gap : Bool) (k : Nat) : State :=
  let o := outPath s k
  let r := dropPackets ids gap o.unacked
  setOutPath s k { o with unacked := r.1, open_ := o.open_ || r.2 }

/-- Requests that end without their answer; `quiet` when their writes post no completion (R343). -/
def endRequests (s : State) (ids : List Nat) (quiet : Bool) (detail : Nat) : State :=
  let s := { s with reads := s.reads.filter (fun r => !ids.contains r.cmd) }
  ids.foldl (fun s id => fail (if quiet then setCmd s id quietWrite else s) id .peerLost detail) s

/-- R337: an outbound path is abandoned: its requests with unacknowledged packets end, and its next packet carries OPEN. -/
def abandonPath (s : State) (pkg path : Nat) (quiet : Bool) : State :=
  let k := pathKey pkg path
  let o := outPath s k
  let ids := (o.unacked.filterMap (·.cmd)).eraseDups
  let s := setOutPath s k { o with unacked := [], open_ := true, resends := 0, since := s.beat.waits }
  let s := endRequests s ids quiet 0x2A01
  if 0xFFC ≤ path then clrPathLost s (path % 4) pkg else s

/-- R429, R430: a queue posts no record of a command accepted before the one numbered `before`, and drops the records it holds. -/
def silenceQueue (s : State) (q before : Nat) : State :=
  let s := { s with cmds := s.cmds.map (fun c => if c.queue = q ∧ c.id < before then { c with posts := false } else c) }
  setQueue s q { queue s q with heldRecords := [] }

/-- R430: the network has detected a reset of a queue's controller. -/
def controllerReset (s : State) (q : Nat) : State :=
  let s := silenceQueue s q s.nextCmd
  setQueue s q { queue s q with barred := true }

/-- The queues whose controller satisfies a test. -/
def queuesWith (s : State) (ok : Queue → Bool) : List Nat :=
  (List.range 256).filter (fun q => (queue s q).valid && ok (queue s q))

/-- R426: SETTLE commands that wait on a path of a source whose entries are freed. -/
def settleLost (s : State) (pkg : Nat) : List Nat :=
  (s.cmds.filter (fun c => match c.wait with
    | .settle 1 p path _ _ _ => p == pkg && (findIn s pkg path).isSome
    | _ => false)).map (·.id)

/-- R343: a peer reset: the inbound paths of the source are freed, the outbound paths to it abandoned, and its controllers'
queues silenced (R430). A read that still waits for its data ends too (log entry 32). -/
def peerReset (s : State) (pkg : Nat) : State :=
  let lost := settleLost s pkg
  let s := { s with inPaths := s.inPaths.filter (fun e => match e.2 with
    | some p => p.srcPkg != pkg
    | none => false) }
  let s := completeAll s lost { status := .peerLost, detail := 0x2C31 }
  let s := (queuesWith s (fun v => v.ctrlKind == 1 && v.pkg == pkg)).foldl controllerReset s
  let s := ((s.outPaths.filter (fun e => e.1 / 4096 == pkg)).map (·.1)).foldl (fun s k => abandonPath s pkg (k % 4096) true) s
  endRequests s ((s.reads.filter (fun r => r.pkg == pkg && r.path < 4096)).map (·.cmd)) false 0x2A01

/-- R356: a queue pair's peer is treated as reset: its epoch rises, its outstanding operations end, and its command queue is
silenced (R430). -/
def qpReset (s : State) (n : Nat) : State :=
  let v := qpair s n
  let ids := ((v.out.filterMap (·.cmd)) ++ (s.reads.filter (fun r => r.path == 4096 + n)).map (·.cmd)).eraseDups
  let s := setQpair s n { v with epoch := v.epoch + 1, out := [], retries := 0, rnrHeld := false }
  let s := match v.queue with
    | some q => controllerReset s q
    | none => s
  endRequests s ids true 0x2A03

end Sys2Proof.Machine
end

