-- ==== Sys2Proof/Machine/Commands.lean ====
section
/-!
DEFINITION. The system commands on queues and results (R417 to R431).
-/
namespace Sys2Proof.Machine

/-- NOP. -/
def startNop (s : State) (c : Cmd) : State := succeed s c.id 0

/-- NOP. -/
def execNop (h : Hdr) (s : State) : Host.Outcome State Fault Refusal :=
  .next (command s h (.nop h) .any none startNop)

/-- FENCE: it starts once every earlier command of its queue has completed (R404). -/
def startFence (s : State) (c : Cmd) : State := succeed s c.id 0

/-- FENCE. -/
def execFence (h : Hdr) (s : State) : Host.Outcome State Fault Refusal :=
  .next (command s h (.fence h) .any none startFence)

/-! ### ATTACH and DETACH -/

/-- R427: the offset of the lowest parameter of an ATTACH that holds a reserved value. -/
def attachBad (p : AttachParams) : Option Nat :=
  firstBad [(p.alloc && p.queue.val != 0, 0), (p.ctrlKind.val == 3, 1), (decide (16 < p.ringLog2.val), 3),
    (p.ringBase.toNat % 64 != 0, 8), (p.cplAddr.toNat % 32 != 0 || (p.ctrlKind.val == 0 && decide (2 ^ 44 ≤ p.cplAddr.toNat))
      || (p.ctrlKind.val == 1 && spaceBad p.cplAddr.toNat), 16),
    (p.ctrlKind.val == 2 && decide (1024 ≤ p.path.toNat), 27)]

/-- R427: a queue as an ATTACH describes it, bound to its controller. -/
def attachedQueue (p : AttachParams) (part : Nat) (system : Bool) (head tail : Nat) : Queue :=
  ⟨true, true, p.ctrlKind.val, part, system, p.ringLog2.val, p.ringBase.toNat, p.cplAddr.toNat, p.epoch.toNat, p.pkg.toNat,
    p.path.toNat, p.rkey.toNat, p.retain.toNat, head, tail, 0, 0, false, []⟩

/-- R401, R425: a queue's queue pair bound to it. -/
def bindQp (s : State) (q : Nat) : State :=
  let v := queue s q
  if v.ctrlKind = 2 then
    let x := qpair s (v.path % 1024)
    setQpair s (v.path % 1024) { x with queue := some q, everBound := true }
  else s

/-- A queue pair bound to a queue is bound to none. -/
def unbindQp (s : State) (q : Nat) : State :=
  let v := queue s q
  if v.ctrlKind = 2 then
    let x := qpair s (v.path % 1024)
    if x.queue = some q then setQpair s (v.path % 1024) { x with queue := none } else s
  else s

/-- The commands that have outstanding writes toward a queue's controller. -/
def writesToward (s : State) (v : Queue) : List Nat :=
  match v.ctrlKind with
  | 1 => ((s.outPaths.filter (fun e => e.1 / 4096 == v.pkg)).flatMap (fun e => e.2.unacked.filterMap (·.cmd))).eraseDups
  | 2 => ((qpair s (v.path % 1024)).out.filterMap (·.cmd)).eraseDups
  | _ => []

/-- R429: the writes of a queue's commands toward its previous controller end. -/
def abandonWrites (s : State) (q : Nat) : State :=
  let v := queue s q
  let ids := (writesToward s v).filter (fun id => (findCmd s id).any (fun c => c.queue == q && writesOut c))
  let s := match v.ctrlKind with
    | 1 => ((s.outPaths.filter (fun e => e.1 / 4096 == v.pkg)).map (·.1)).foldl (fun s k => dropFromPath s ids false k) s
    | 2 =>
      let x := qpair s (v.path % 1024)
      setQpair s (v.path % 1024) { x with out := x.out.filter (fun m => !m.cmd.any ids.contains) }
    | _ => s
  ids.foldl (fun s id => fail s id .peerLost 0x2C50) s

/-- R356, R427: an ATTACH that names a queue pair bound before resets its peer. -/
def attachQp (s : State) (p : AttachParams) : State :=
  let n := p.path.toNat % 1024
  if p.ctrlKind.val = 2 ∧ (qpair s n).everBound then qpReset s n else s

/-- R429: an existing queue taken over by a controller with a new EPOCH or CTRL_KIND; the ATTACH itself, `id`, posts its
record. -/
def reattach (s : State) (q id : Nat) (p : AttachParams) : State :=
  let s := abandonWrites (silenceQueue s q id) q
  let s := attachQp (unbindQp s q) p
  let v := queue s q
  let s := setQueue s q (attachedQueue p v.partition v.system v.head v.tail)
  bindQp (setCmd s id (fun c => { c with posts := true })) q

/-- ATTACH's VALUE: the queue's HEAD, and the commands of the queue in flight beside the ATTACH. -/
def attachValue (s : State) (q id : Nat) : Nat :=
  (queue s q).head % 2 ^ 17 + 2 ^ 32 * ((s.cmds.filter (fun c => c.queue == q && c.id != id)).length % 65536)

/-- The lowest queue that does not exist. -/
def freeQueue (s : State) : Option Nat := (List.range 256).find? (fun q => !(queue s q).valid)

/-- ATTACH with ALLOC (R427, R428): a queue created for a partition. -/
def attachNew (p : AttachParams) (s : State) (c : Cmd) : State :=
  let part' := p.partition.val
  if (queueWho s c.queue).any (fun x => x != part') then fail s c.id .denied 0
  else if !partActive s part' then fail s c.id .badParam 0
  else if !inPartition s part' p.ringBase.toNat (64 * 2 ^ p.ringLog2.val) then fail s c.id .badParam (0x2C80 + 16 + 8)
  else
    match freeQueue s with
    | none => fail s c.id .limitReached 0x2C21
    | some q =>
      let s := attachQp s p
      let s := bindQp (setQueue s q (attachedQueue p part' false 0 0)) q
      succeed s c.id (attachValue s q c.id)

/-- Held records are posted once a queue may post again. -/
def resumePosting (s : State) (q : Nat) : State := postHeld s q (queue s q).heldRecords.length

/-- ATTACH (R427 to R429). -/
def startAttach (p : AttachParams) (s : State) (c : Cmd) : State :=
  if p.alloc then attachNew p s c
  else
    let q := p.queue.val
    let v := queue s q
    if (queueWho s c.queue).any (fun x => q = 0 ∨ (v.valid ∧ v.partition ≠ x)) then fail s c.id .denied 0
    else if !v.valid then fail s c.id .badParam 0
    else if v.ringBase ≠ p.ringBase.toNat ∨ v.ringLog2 ≠ p.ringLog2.val then fail s c.id .badParam 0x2C0A
    else if v.epoch = p.epoch.toNat ∧ v.ctrlKind = p.ctrlKind.val then
      let s := bindQp (setQueue s q { v with attached := true }) q
      resumePosting (succeed s c.id (attachValue s q c.id)) q
    else
      let s := reattach s q c.id p
      succeed s c.id (attachValue s q c.id)

/-- ATTACH. -/
def execAttach (h : Hdr) (p : AttachParams) (s : State) : Host.Outcome State Fault Refusal :=
  .next (command s h (.attach h p) .any (attachBad p) (startAttach p))

/-- R431: whether a queue's command may detach a queue: the refusal when it may not. -/
def detachError (s : State) (c : Cmd) (q : Nat) : Option (Status × Nat) :=
  let v := queue s q
  match queueWho s c.queue with
  | some p => if !v.valid || q == 0 || v.partition != p then some (.denied, 0) else none
  | none => if v.valid then none else some (.badParam, 0)

/-- R431: a queue's controller is unbound; the queue posts nothing from then on. -/
def unbindQueue (s : State) (q : Nat) : State :=
  let s := unbindQp s q
  setQueue s q { queue s q with attached := false }

/-- DETACH (R431). -/
def startDetach (q : Nat) (s : State) (c : Cmd) : State :=
  orFail s c (detachError s c q) (succeed (unbindQueue s q) c.id 0)

/-- DETACH. -/
def execDetach (h : Hdr) (q : Fin 256) (s : State) : Host.Outcome State Fault Refusal :=
  .next (command s h (.detach h q) .any none (startDetach q.val))

/-- R431: a queue has no command in flight beside a given one. -/
def queueIdle (s : State) (q id : Nat) : Bool := s.cmds.all (fun c => c.queue != q || c.id == id)

/-- R537: a source's route loses its ENABLE when it names a freed queue. -/
def dropRoute (q : Nat) (s : State) (src : Nat) : State :=
  let w := getReg s .evtSrcRoute (src / 256) (src % 256)
  if getBits w 12 2 = 1 ∧ getBits w 0 8 = q then setReg s .evtSrcRoute (src / 256) (src % 256) (setBits w 24 1 0) else s

/-- R431, R537: a queue freed with its kept results; the events routed to it lose their target. -/
def freeQueueNow (s : State) (q : Nat) : State :=
  let s := setQueue (unbindQp s q) q Queue.free
  (List.range 1024).foldl (dropRoute q) { s with results := s.results.filter (fun r => r.queue != q) }

/-- R431: a DETACH with FREE whose queue has no other command in flight frees it. -/
def finishDetach (s : State) (c : Cmd) (q : Nat) : State :=
  if queueIdle s q c.id then freeQueueNow (succeed s c.id 0) q else s

/-- DETACH with FREE (R431). -/
def startDetachFree (q : Nat) (s : State) (c : Cmd) : State :=
  orFail s c (detachError s c q) (finishDetach (setWait (unbindQueue s q) c.id (.queueIdle q)) c q)

/-- DETACH with FREE. -/
def execDetachFree (h : Hdr) (q : Fin 256) (s : State) : Host.Outcome State Fault Refusal :=
  .next (command s h (.detachFree h q) .any (firstBad [(q.val == 0, 1)]) (startDetachFree q.val))

/-! ### SETTLE -/

/-- SETTLE (R426). -/
def startSettle (kind pkg path stamp limit : Nat) (s : State) (c : Cmd) : State :=
  settleReached (setWait s c.id (.settle kind pkg path stamp limit s.beat.waits))

/-- SETTLE. -/
def execSettle (h : Hdr) (kind : Fin 4) (srcPkg : BitVec 16) (path : BitVec 12) (stamp : BitVec 64) (limit : BitVec 32)
    (s : State) : Host.Outcome State Fault Refusal :=
  .next (command s h (.settle h kind srcPkg path stamp limit) .any
    (firstBad [(kind.val == 0 || kind.val == 3, 0), (kind.val == 2 && decide (1024 ≤ path.toNat), 5)])
    (startSettle kind.val srcPkg.toNat path.toNat stamp.toNat limit.toNat))

/-- SETTLE_LIMIT_EXPIRE (R426): LIMIT beats have passed before the count was reached. -/
def execSettleLimitExpire (cmd : Nat) (s : State) : Host.Outcome State Fault Refusal :=
  .next (
    match findCmd s cmd with
    | some c =>
      match c.wait with
      | .settle _ _ _ _ limit since =>
        if limit ≠ 0 ∧ since + limit ≤ s.beat.waits then fail s cmd .deadlineMissed 0x2C30 else s
      | _ => s
    | none => s)

/-! ### Results -/

/-- R418: a ticket's state. -/
inductive TicketState where
  | busy
  | kept (r : Record)
  | unknown
  deriving DecidableEq, Repr

/-- R418: the state of a queue's ticket. -/
def ticketState (s : State) (q t : Nat) : TicketState :=
  if t = 0 then .unknown
  else if s.cmds.any (fun c => c.queue == q && c.ticket == t) then .busy
  else
    match s.results.find? (fun r => r.queue == q && r.ticket == t) with
    | some r => .kept r.record
    | none => .unknown

/-- R418, R419: the named queue is not one of the issuer's. -/
def resultDenied (s : State) (c : Cmd) (q : Nat) : Bool :=
  (queueWho s c.queue).any (fun p => !(queue s q).valid || q == 0 || (queue s q).partition != p)

/-- READ_RESULT (R418). -/
def startReadResult (q ticket dest : Nat) (s : State) (c : Cmd) : State :=
  if resultDenied s c q then fail s c.id .denied 0x2C41
  else
    match ticketState s q ticket with
    | .busy => fail s c.id .notReady 0
    | .unknown => fail s c.id .badParam 0x2C0B
    | .kept r => deliver s c dest (recordBytes r)

/-- READ_RESULT. -/
def execReadResult (h : Hdr) (q : Fin 256) (ticket : BitVec 32) (dest : BitVec 64) (s : State) : Host.Outcome State Fault Refusal :=
  .next (command s h (.readResult h q ticket dest) .any none (startReadResult q.val ticket.toNat dest.toNat))

/-- A kept result freed. -/
def dropResult (s : State) (q t : Nat) : State :=
  { s with results := s.results.filter (fun r => !(r.queue == q && r.ticket == t)) }

/-- RELEASE_RESULT (R419). -/
def startReleaseResult (q ticket : Nat) (s : State) (c : Cmd) : State :=
  if resultDenied s c q then fail s c.id .denied 0x2C41
  else
    match ticketState s q ticket with
    | .busy => fail s c.id .notReady 0
    | .unknown => fail s c.id .badParam 0x2C0B
    | .kept _ => succeed (dropResult s q ticket) c.id 0

/-- RELEASE_RESULT. -/
def execReleaseResult (h : Hdr) (q : Fin 256) (ticket : BitVec 32) (s : State) : Host.Outcome State Fault Refusal :=
  .next (command s h (.releaseResult h q ticket) .any none (startReleaseResult q.val ticket.toNat))

/-- RESULT_EXPIRE (R420): a result kept for RETAIN beats is released. -/
def execResultExpire (q : Fin 256) (ticket : BitVec 32) (s : State) : Host.Outcome State Fault Refusal :=
  .next (
    let retain := (queue s q.val).retain
    match s.results.find? (fun r => r.queue == q.val && r.ticket == ticket.toNat) with
    | none => s
    | some r =>
      if retain ≠ 0 ∧ r.since + retain ≤ s.beat.waits then
        count (dropResult s q.val ticket.toNat) .cmdExpired (queueSite q.val) 0
      else s)

/-- CPL_HEAD_WRITE (R407): the controller has consumed records; held ones are posted while the ring has room. -/
def execCplHeadWrite (q : Fin 256) (head : BitVec 17) (s : State) : Host.Outcome State Fault Refusal :=
  .next (
    if s.phase != .running || !(queue s q.val).valid then s
    else resumePosting (setQueue s q.val { queue s q.val with cplHead := head.toNat }) q.val)

end Sys2Proof.Machine
end

