-- ==== Sys2Proof/Machine/Identity.lean ====
section
/-!
DEFINITION. The module's identity (01_composition_identity.md): the composition check (R29 to R34), the `MOD_` registers (R44 to
R47), failed joins (R25, R26), and QUERY_CAPS (R411).
-/
namespace Sys2Proof.Machine

/-! ### Strap words -/

/-- The die at a position of the sideband chain (R29). -/
def dieAt (s : State) (pos : Nat) : Die := s.dies.getD pos ⟨false, 0, 0⟩

/-- R27: the SITE field of a strap word. -/
def strapSite (w : BitVec 16) : Nat := w.toNat % 8

/-- R27: the KIND field of a strap word. -/
def strapKind (w : BitVec 16) : Nat := w.toNat / 8 % 4

/-- R27: the SKU field of a strap word. -/
def strapSku (w : BitVec 16) : Nat := w.toNat / 32 % 64

/-- R27: the SUBSTRATE_REV field of a strap word. -/
def strapRev (w : BitVec 16) : Nat := w.toNat / 2048

/-- R29: the site that a position expects. -/
def wantSite (pos : Nat) : Nat := if pos < 8 then pos % 4 else pos - 4

/-- R29: the kind that a position expects. -/
def wantKind (pos : Nat) : Nat := if pos < 4 then 0 else if pos < 8 then 1 else 2

/-- R39: the baseline stepping of a kind. -/
def baseline (kind : Nat) : Nat := if kind = 2 then 0 else 1

/-- R30: the tests of one die alone, 0x01 to 0x06. -/
def ownTests (d : Die) (pos : Nat) : Option Nat :=
  if !d.responds then some 1
  else if 6 ≤ strapSite d.strap then some 2
  else if strapKind d.strap = 3 then some 3
  else if strapSite d.strap ≠ wantSite pos then some 4
  else if strapKind d.strap ≠ wantKind pos then some 5
  else if strapSku d.strap ≠ 0x11 ∧ strapSku d.strap ≠ 0x12 ∧ strapSku d.strap ≠ 0x13 then some 6
  else none

/-- R30, R31: the first test that a position fails. -/
def positionFault (s : State) (pos : Nat) : Option Nat :=
  let d := dieAt s pos
  let ref := dieAt s 8
  let compare := pos ≠ 8 ∧ (ownTests ref 8).isNone
  match ownTests d pos with
  | some c => some c
  | none =>
    if compare ∧ strapSku d.strap ≠ strapSku ref.strap then some 7
    else if compare ∧ strapRev d.strap ≠ strapRev ref.strap then some 8
    else if 9 < d.stepping.toNat % 16 ∨ d.stepping.toNat < baseline (wantKind pos) then some 9
    else none

/-- R30, R33: the faults of the composition check, as (position, code) in ascending position order. -/
def compositionFaults (s : State) : List (Nat × Nat) :=
  (List.range 10).filterMap (fun p => (positionFault s p).map (fun c => (p, c)))

/-! ### The `MOD_` registers -/

/-- R40: the older of two steppings. -/
def older (a b : Nat) : Nat := if b < a then b else a

/-- R40: the feature floor of the dies of `n` positions from one on. -/
def floorOf (s : State) (pos : Nat) : Nat → Nat
  | 0 => 0
  | 1 => (dieAt s pos).stepping.toNat
  | n + 1 => older (floorOf s pos n) (dieAt s (pos + n)).stepping.toNat

/-- R44: `MOD_ID` of a die. -/
def dieId (d : Die) : Nat := d.strap.toNat + 2 ^ 16 * d.stepping.toNat

/-- R44: the position of the die that a site's `MOD_ID` names. -/
def sitePos (site : Nat) : Nat := site + 4

/-- `MOD_FLOOR`. -/
def modFloorValue (s : State) : Nat :=
  floorOf s 0 4 + 2 ^ 8 * floorOf s 4 4 + 2 ^ 16 * floorOf s 8 2 + 2 ^ 24 * skuOf s + 2 ^ 32 * strapRev (dieAt s 8).strap

/-- R46: `MOD_UNIT_PRESENT`. -/
def unitPresentValue (s : State) : Nat := (if millPresent s then 15 else 0) + (if capPresent s then 16 else 0)

/-- R44, R45: the value of a `MOD_` register at a site; the join registers, at site 4 only, are kept. -/
def modValue (s : State) (site : Nat) : RegKind → Word
  | .modId => BitVec.ofNat 64 (dieId (dieAt s (sitePos site)))
  | .modIdCompute => BitVec.ofNat 64 (if site < 4 then dieId (dieAt s site) else 0)
  | .modFloor => BitVec.ofNat 64 (modFloorValue s)
  | .modUnitPresent => BitVec.ofNat 64 (unitPresentValue s)
  | .modFeatEnCompute => 1
  | .modFeatEnBase => 1
  | .modFeatEnCore => 1
  | .modDieFeat => 1
  | .modDieFeatCompute => if site < 4 then 1 else 0
  | .modJoinStatus => if site = 4 then getReg s .modJoinStatus 4 0 else 0
  | _ => 0

/-! ### Joins -/

/-- A join is in service. -/
def joinUp (s : State) (j : Nat) : Bool := natBit (getReg s .modJoinStatus 4 0).toNat j

/-- R25: the event source of a join. -/
def joinSrc (j : Nat) : Nat := tileSrc 0 (36 + j)

/-- R25, R456: every open context ends by a failed join. -/
def endAllContexts (s : State) (detail : Nat) : State :=
  (List.range 256).foldl (fun s x => endContext s x detail true) s

/-- R25, R26: a join is declared failed: its bit in UP falls, FAILED shows it, a fatal event is raised, and every open context
ends. The first one since reset is the one that later refusals name. -/
def joinFailed (s : State) (j : Nat) : State :=
  let s := setFlag (setField s .modJoinStatus 4 0 j 1 0) .modJoinStatus 4 0 (16 + j)
  let s := { s with failedJoin := some (s.failedJoin.getD j), joinRuns := mapSet (fun _ => 0) s.joinRuns j 0 }
  endAllContexts (raiseEvent s (joinSrc j)) (0x4000 + s.failedJoin.getD j)

/-- A module that runs, so that its parts act. -/
def isRunning (s : State) : Bool := s.phase == .running

/-- JOIN_FAIL (R25): a join that replays one flit 16 times in succession fails. -/
def execJoinFail (j : Fin 14) (s : State) : Host.Outcome State Fault Refusal :=
  .next (if isRunning s && joinUp s j.val && decide (16 ≤ mapGet (fun _ => 0) s.joinRuns j.val) then joinFailed s j.val else s)

/-- JOIN_FLIT_REPLAY (R24): a flit that fails its check is replayed, and counted; `again` when it is the flit replayed last, so
that the replays of one flit in succession are known (R25). -/
def execJoinFlitReplay (j : Fin 14) (again : Bool) (s : State) : Host.Outcome State Fault Refusal :=
  .next (
    if isRunning s && joinUp s j.val then
      let w := getReg s .modJoinReplay 4 j.val
      let s := setReg s .modJoinReplay 4 j.val (countWord 32 w 1)
      { s with
        joinRuns := mapSet (fun _ => 0) s.joinRuns j.val (if again then mapGet (fun _ => 0) s.joinRuns j.val + 1 else 1) }
    else s)

/-! ### QUERY_CAPS -/

/-- The queues in use. -/
def queuesInUse (s : State) : Nat := ((List.range 256).filter (fun q => (queue s q).valid)).length

/-- The contexts in use. -/
def contextsInUse (s : State) : Nat := ((List.range 256).filter (fun x => (ctxOf s x).valid)).length

/-- The partition numbers that are not free: active, being destroyed, or proposed. -/
def partitionsInUse (s : State) : Nat := ((List.range 16).filter (fun p => (part s p).state != .free)).length

/-- R411: the `MOD_` registers that QUERY_CAPS writes, in the order of their offsets from 0; none at 0x48. -/
def capsRegs : List (Option RegKind) :=
  [some .modId, some .modIdCompute, some .modFloor, some .modUnitPresent, some .modFeatEnCompute, some .modFeatEnBase,
   some .modFeatEnCore, some .modDieFeat, some .modDieFeatCompute, none, some .modJoinStatus]

/-- R411: one of the registers' 8 bytes. -/
def capsWord (s : State) : Option RegKind → List Byte
  | some k => leBytes 8 (modValue s 4 k).toNat
  | none => leBytes 8 0

/-- R411: the 128 bytes of QUERY_CAPS. -/
def capsBytes (s : State) : List Byte :=
  capsRegs.flatMap (capsWord s)
    ++ leBytes 2 (queuesInUse s) ++ leBytes 2 (contextsInUse s) ++ leBytes 1 (partitionsInUse s) ++ leBytes 1 0
    ++ leBytes 2 (ownPkg s) ++ leBytes 4 s.results.length ++ leBytes 4 (getReg s .netEpoch 0 0).toNat
    ++ leBytes 8 s.beat.count ++ leBytes 16 0

/-- QUERY_CAPS (R411). -/
def startQueryCaps (dest : Nat) (s : State) (c : Cmd) : State := deliver s c dest (capsBytes s)

/-- QUERY_CAPS. -/
def execQueryCaps (h : Hdr) (dest : BitVec 64) (s : State) : Host.Outcome State Fault Refusal :=
  .next (command s h (.queryCaps h dest) .any none (startQueryCaps dest.toNat))

end Sys2Proof.Machine
end

