-- ==== Sys2Proof/Machine/EventRows.lean ====
section
/-!
DEFINITION. Routing and delivering events (17_events_audit.md): routes, hold-off groups, deliveries, and the package event controller.
-/
namespace Sys2Proof.Machine

/-! ### Routes -/

/-- R531: the forwarded offsets of a core die that are assigned. -/
def assignedOffset (site o : Nat) : Bool := if site = 4 then decide (o ≤ 22) else decide (o ≤ 10)

/-- R531: a source is assigned. -/
def assignedSource (src : Nat) : Bool :=
  let t := src / 256
  let n := src % 256
  decide (n ≤ 30) || (t == 0 && decide (36 ≤ n ∧ n ≤ 49)) || decide (64 ≤ n ∧ n ≤ 191)
    || (t % 2 == 0 && decide (192 ≤ n) && assignedOffset (4 + t / 2) (n - 192))

/-- R531, R536: a source belongs to a partition: a cluster of its clusters, or the audit source of one of its contexts. -/
def sourceOf (s : State) (p src : Nat) : Bool :=
  let t := src / 256
  let n := src % 256
  if n < 16 then natBit (part s p).desc.clusters (16 * t + n)
  else if 64 ≤ n ∧ n < 128 then
    let x := ctxOf s (4 * (n - 64) + t)
    x.valid && x.partition == p
  else false

/-- The route of a source as SET_EVENT_ROUTE writes it. -/
def routeWord (prio group kind target : Nat) (enable : Bool) : Word :=
  BitVec.ofNat 64 (target + 2 ^ 12 * kind + 2 ^ 14 * group + 2 ^ 20 * prio + 2 ^ 24 * boolNat enable)

/-- R536: the checks of SET_EVENT_ROUTE in order. -/
def routeError (s : State) (c : Cmd) (src kind target : Nat) : Option (Status × Nat) :=
  firstError
    [(!assignedSource src, .badParam, 0x3001),
     (kind == 3 || (kind == 0 && decide (127 < target)) || (kind == 1 && !(queue s target).valid), .badParam, 0x3002),
     ((queueWho s c.queue).any (fun p => !sourceOf s p src || kind != 1 || (queue s target).partition != p || target == 0),
       .denied, 0x3040)]

/-- SET_EVENT_ROUTE (R536). -/
def startSetEventRoute (src prio group kind target : Nat) (enable : Bool) (s : State) (c : Cmd) : State :=
  orFail s c (routeError s c src kind target)
    (succeed (setReg s .evtSrcRoute (src / 256) (src % 256) (routeWord prio group kind target enable)) c.id 0)

/-- SET_EVENT_ROUTE. -/
def execSetEventRoute (h : Hdr) (source : Fin 1024) (prio : Fin 16) (group : Fin 64) (targetKind : Fin 4) (target : Fin 256)
    (enable : Bool) (s : State) : Host.Outcome State Fault Refusal :=
  .next (command s h (.setEventRoute h source prio group targetKind target enable) .any none
    (startSetEventRoute source.val prio.val group.val targetKind.val target.val enable))

/-! ### Offer and delivery -/

/-- The route of a source. -/
def eventRoute (s : State) (src : Nat) : Word := getReg s .evtSrcRoute (src / 256) (src % 256)

/-- The hold-off group of a source. -/
def groupOf (s : State) (src : Nat) : Nat := getBits (eventRoute s src) 14 6

/-- R539: LEFT of a hold-off group. -/
def holdLeft (s : State) (g : Nat) : Nat := getBits (getReg s .evtHoldoff 0 g) 32 32

/-- R538: a source is offered. -/
def offered (s : State) (src : Nat) : Bool :=
  let r := eventRoute s src
  isPending s src && natBit r.toNat 24 && holdLeft s (groupOf s src) == 0
    && (getBits r 12 2 != 1 || posting (queue s (getBits r 0 8)))

/-- R538, R539: a delivery clears PENDING, and its group's LEFT becomes PERIOD at the next counted beat. -/
def delivered (s : State) (src : Nat) : State :=
  let s := setPending s src false
  let g := groupOf s src
  if s.holdPending.contains g then s else { s with holdPending := s.holdPending ++ [g] }

/-- R538: the record of an event on its target queue. -/
def eventRecord (s : State) (q src : Nat) (w : Word) : Record :=
  doneRecord q 0 false { status := .ok, detail := 0x3400 + src, value := getBits w 0 8 * 2 ^ 56 + s.beat.count % 2 ^ 56 }

/-- R538: an offered source is delivered by queue record or to the management port; a core claims the others itself (R542). -/
def deliverEvent (s : State) (src : Nat) : State :=
  let r := eventRoute s src
  let k := getBits r 12 2
  if !offered s src || k = 0 then s
  else
    let w := takeCount s src
    let s := delivered w.2 src
    if k = 1 then postRecord s (getBits r 0 8) (eventRecord s (getBits r 0 8) src w.1)
    else
      postMgmt s (mgmtMsg s "Freldo.1.0.EventSource" (isFatal src)
        [toString src, counterArg (getBits w.1 0 8) (natBit w.1.toNat 8), toString s.beat.count])

/-- EVENT_DELIVERY (R538). -/
def execEventDelivery (source : Fin 1024) (s : State) : Host.Outcome State Fault Refusal :=
  .next (if isRunning s then deliverEvent s source.val else s)

/-- HOLDOFF_EXPIRE (R539, R540): with a group's LEFT at 0, its offered sources are delivered. -/
def execHoldoffExpire (group : Fin 64) (s : State) : Host.Outcome State Fault Refusal :=
  .next (
    if isRunning s && holdLeft s group.val == 0 then
      ((List.range 1024).filter (fun src => groupOf s src == group.val)).foldl deliverEvent s
    else s)

/-! ### Registers of the event units -/

/-- EVT_PEND_CLEAR (R534): a 1 clears its source's PENDING. -/
def execEvtPendClear (a : Agent) (tile : Fin 4) (word : Fin 4) (v : Word) (s : State) : Host.Outcome State Fault Refusal :=
  .next (
    if !isRunning s then s
    else answer (setReg s .evtPend tile.val word.val (getReg s .evtPend tile.val word.val &&& ~~~v)) a false 0)

/-- R535: an agent may set PENDING of every source. -/
def mayPend : Agent → Bool
  | .mmc => true
  | .teller _ => true
  | _ => false

/-- EVT_PEND_SET (R535): a 1 sets its source's PENDING; outside the software sources only the management controller and the teller
may. -/
def execEvtPendSet (a : Agent) (tile : Fin 4) (word : Fin 4) (v : Word) (s : State) : Host.Outcome State Fault Refusal :=
  .next (
    if !isRunning s then s
    else if word.val = 2 ∨ mayPend a then
      answer (setReg s .evtPend tile.val word.val (getReg s .evtPend tile.val word.val ||| v)) a false 0
    else if v = 0 then answer s a false 0
    else reservedWrite s a (tileSrc tile.val 30))

/-- EVT_SRC_COUNT_READ (R533): a 64-bit read returns a source's counter and clears it. -/
def execEvtSrcCountRead (a : Agent) (source : Fin 1024) (s : State) : Host.Outcome State Fault Refusal :=
  .next (
    if !isRunning s then s
    else
      let w := takeCount s source.val
      answer w.2 a false w.1)

/-- EVT_HOLDOFF_WRITE (R539, R540): a group's PERIOD, the same in all four tiles. -/
def execEvtHoldoffWrite (a : Agent) (group : Fin 64) (period : BitVec 32) (s : State) : Host.Outcome State Fault Refusal :=
  .next (
    if !isRunning s then s
    else answer (setField s .evtHoldoff 0 group.val 0 32 period.toNat) a false 0)

/-! ### The package event controller -/

/-- A core's event controller registers lie at its site. -/
def coreSite (core : Nat) : Nat := 4 + core / 64

/-- R541: the priorities on a core's stack, as a mask. -/
def coreStack (s : State) (core : Nat) : Nat := getBits (getReg s .evtCoreStack (coreSite core) (core % 64)) 0 16

/-- R541: the priorities that a core is shown lie below this. -/
def coreLimit (s : State) (core : Nat) : Nat :=
  min (getBits (getReg s .evtCoreCfg (coreSite core) (core % 64)) 0 5) ((bitsSet (coreStack s core) 16).headD 16)

/-- The PRIORITY of a source. -/
def prioOf (s : State) (src : Nat) : Nat := getBits (eventRoute s src) 20 4

/-- R541: a source is presented to a core. -/
def presentedTo (s : State) (core src : Nat) : Bool :=
  let r := eventRoute s src
  getBits r 12 2 == 0 && getBits r 0 8 == core && offered s src && decide (prioOf s src < coreLimit s core)

/-- R542: the presented source that a claim returns: of the lowest PRIORITY, then of the lowest number. -/
def presented (s : State) (core : Nat) : Option Nat :=
  let all := (List.range 1024).filter (presentedTo s core)
  (List.range 16).findSome? (fun p => all.find? (fun src => prioOf s src == p))

/-- R541: the interrupts that a core's event controller can assert. -/
inductive CoreIntr where
  | machine | supervisor
  | guest (n : Nat)
  deriving DecidableEq, Repr

/-- R541: the interrupt asserted at a core: while a source is presented, the one that MODE and GUEST select. -/
def coreIntr (s : State) (core : Nat) : Option CoreIntr :=
  let w := getReg s .evtCoreCfg (coreSite core) (core % 64)
  if (presented s core).isNone then none
  else match getBits w 8 2 with
    | 0 => some .machine
    | 2 => some (.guest (getBits w 12 4))
    | _ => some .supervisor

/-- EVT_CORE_CLAIM (R542): a 64-bit read claims the most urgent presented source and pushes its priority. -/
def execEvtCoreClaim (a : Agent) (core : Fin 128) (s : State) : Host.Outcome State Fault Refusal :=
  .next (
    if !isRunning s then s
    else
      match presented s core.val with
      | none => answer s a false 0
      | some src =>
        let p := prioOf s src
        let s := setField s .evtCoreStack (coreSite core.val) (core.val % 64) p 1 1
        answer (delivered s src) a false (BitVec.ofNat 64 (2 ^ 63 + 2 ^ 16 * p + src)))

/-- EVT_CORE_EOI (R543): the most urgent priority on the stack is popped when the write names it. -/
def execEvtCoreEoi (a : Agent) (core : Fin 128) (prio : Fin 16) (s : State) : Host.Outcome State Fault Refusal :=
  .next (
    if !isRunning s then s
    else if (bitsSet (coreStack s core.val) 16).head? = some prio.val then
      answer (setField s .evtCoreStack (coreSite core.val) (core.val % 64) prio.val 1 0) a false 0
    else reservedWrite s a (coreSrc (coreSite core.val) 0))

end Sys2Proof.Machine
end

