-- ==== Sys2Proof/Machine/Beat.lean ====
section
/-!
DEFINITION. The cluster beat (15_beat_power.md): the beat counter (R459 to R462), resynchronisation (R465 to R467) and beat loss (R468 to
R470).
-/
namespace Sys2Proof.Machine

/-- The beat unit's state changed. -/
def modBeat (s : State) (f : Beat → Beat) : State := { s with beat := f s.beat }

/-- The ledger's state changed. -/
def modPower (s : State) (f : Power → Power) : State := { s with power := f s.power }

/-! ### What a beat moves -/

/-- R539: LEFT of a hold-off group at a counted beat. -/
def tickGroup (s : State) (g : Nat) : State :=
  let w := getReg s .evtHoldoff 0 g
  if s.holdPending.contains g then setReg s .evtHoldoff 0 g (setBits w 32 32 (getBits w 0 32))
  else if getBits w 32 32 = 0 then s
  else setReg s .evtHoldoff 0 g (setBits w 32 32 (getBits w 32 32 - 1))

/-- R539, R540: the hold-off groups at a counted beat. -/
def tickHoldoff (s : State) : State := { (List.range 64).foldl tickGroup s with holdPending := [] }

/-- R475: the allowance window at a counted beat: a close falls due after 1,024. -/
def tickWindow (p : Power) : Power :=
  if p.windowBeats + 1 = 1024 then { p with windowBeats := 0, closeDue := true } else { p with windowBeats := p.windowBeats + 1 }

/-- R462: a counted beat: every wait is one beat older. -/
def countBeat (s : State) : State :=
  let s := modPower (tickHoldoff (modBeat s (fun b => { b with waits := b.waits + 1 }))) tickWindow
  if s.power.hold then count s .pwrHoldBeats 4 0 else s

/-! ### The transport after the first resynchronisation -/

/-- A packet with the module's package ID and epoch as they stand now, in its header (R329) and in a READ_REQ's return address (R330,
R350). -/
def restamp (s : State) (p : Packet) : Packet :=
  let own := beBytes 2 (ownPkg s)
  ⟨sealHeader (splice (splice p.hdr 4 own) 8 (beBytes 4 (getReg s .netEpoch 0 0).toNat)),
    if fieldBe p.hdr 0 1 % 16 = 1 then splice p.payload 0 own else p.payload⟩

/-- A path whose packets have waited for the transport sends the first 1,024 of them. -/
def wakePath (s : State) (k : Nat) : State :=
  let o := outPath s k
  let l := o.unacked.map (fun u => { u with pkt := restamp s u.pkt })
  (l.take 1024).foldl (fun s u => emitPacket s (k % 4096 % 4) u.pkt) (setOutPath s k { o with unacked := l, since := s.beat.waits })

/-- R341, R351: the transport may send from now on. -/
def wakeTransport (s : State) : State :=
  if transportOn s then
    let s := ((s.outPaths.filter (fun e => !e.2.unacked.isEmpty)).map (·.1)).foldl wakePath s
    { s with exchOut := s.exchOut ++ s.exchWait, exchWait := [] }
  else s

/-! ### Resynchronisation -/

/-- R465: a difference applied to the counter; what it passes fires at once. -/
def correct (s : State) (x : Nat) : State :=
  if s.beat.count < x then passBeats (modBeat s (fun b => { b with count := x, holdLeft := 0 }))
  else modBeat s (fun b => { b with holdLeft := b.count - x })

/-- R467: `BEAT_LAST_SYNC` after a correction by `d`. -/
def lastSync (d : Int) : Word :=
  let v := max (-(2 ^ 31)) (min (2 ^ 31 - 1) d)
  BitVec.ofNat 64 (2 ^ 63 + (v % 2 ^ 32).toNat)

/-- R467: a later correction that passes `BEAT_STEP_LIMIT` is recorded and raises an event. -/
def checkStep (s : State) (d : Int) : State :=
  if getBits (getReg s .beatStepLimit 4 0) 0 32 < d.natAbs then
    raiseEvent (setFlag (setReg s .beatLastSync 4 0 (lastSync d)) .beatStatus 4 0 9) (coreSrc 4 11)
  else s

/-- R465, R467: a resynchronisation point at an edge whose PTP time is `x`: a correction while PTP is locked, a miss otherwise. -/
def resync (s : State) (x : Nat) : State :=
  let s := modBeat s (fun b => { b with resyncDue := false })
  if !s.beat.ptpLock then
    raiseEvent (setFlag (count s .beatPtpMisses 4 0) .beatStatus 4 0 10) (coreSrc 4 11)
  else
    let d : Int := (x : Int) - (s.beat.count : Int)
    let s := correct (count s .beatSyncs 4 0) x
    if s.beat.synced then checkStep s d
    else
      let s := modBeat s (fun b => { b with synced := true })
      wakeTransport (setReg s .netEpoch 0 0 (BitVec.ofNat 64 (x / 1024 % 2 ^ 32)))

/-! ### Edges -/

/-- R460, R465: an edge accepted outside beat loss. -/
def countEdge (s : State) (x : Nat) : State :=
  let held := decide (0 < s.beat.holdLeft)
  let s := modBeat s (fun b => if held then { b with holdLeft := b.holdLeft - 1 } else { b with count := (b.count + 1) % 2 ^ 64 })
  let s := passBeats (countBeat s)
  if s.beat.resyncDue || (!held && s.beat.count % 1048576 == 0) then resync s x else s

/-- R470: an edge of the spacing that qualifies, 0.9 to 1.1 µs. -/
def qualifies (spacing : Nat) : Bool := decide (1530 ≤ spacing ∧ spacing ≤ 1870)

/-- R470, R475: BEAT_LOST ends: the counter resynchronises and a ledger close falls due that starts a new window. -/
def endLoss (s : State) (x : Nat) : State :=
  let s := modBeat s (fun b => { b with lost := false, qualifying := 0 })
  let s := modPower (resync s x) (fun p => { p with windowBeats := 0, closeDue := true })
  raiseEvent s (coreSrc 4 13)

/-- R470: an edge accepted during beat loss. -/
def qualifyEdge (s : State) (spacing x : Nat) : State :=
  let n := if qualifies spacing ∧ 0 < s.beat.qualifying then s.beat.qualifying + 1 else 1
  if n = 16 then endLoss s x else modBeat s (fun b => { b with qualifying := n })

/-- BEAT_EDGE (R459, R460): a rising edge `spacing` fabric cycles after the last accepted one, at PTP time `ptp`; one that comes too
soon is a glitch. -/
def execBeatEdge (spacing : BitVec 32) (ptp : BitVec 64) (s : State) : Host.Outcome State Fault Refusal :=
  .next (
    if !isRunning s then s
    else if s.beat.anyEdge ∧ spacing.toNat < 850 then count s .beatGlitches 4 0
    else
      let s := modBeat s (fun b => { b with anyEdge := true, missing := 0 })
      if s.beat.lost then qualifyEdge s spacing.toNat ptp.toNat else countEdge s ptp.toNat)

/-- R468, R475: BEAT_LOST comes into force. -/
def enterLoss (s : State) : State :=
  let s := modBeat s (fun b => { b with lost := true, qualifying := 0 })
  let s := modPower (setFlag (count s .beatLosses 4 0) .beatStatus 4 0 8) (fun p => { p with closeDue := true })
  raiseEvent s (coreSrc 4 12)

/-- BEAT_PULSE_MISSING (R468): the fourth missing pulse brings BEAT_LOST into force. -/
def execBeatPulseMissing (s : State) : Host.Outcome State Fault Refusal :=
  .next (
    if !isRunning s || s.beat.lost then s
    else
      let s := modBeat s (fun b => { b with missing := b.missing + 1 })
      if 4 ≤ s.beat.missing then enterLoss s else s)

/-- PTP_LOCK (R465): the management controller reports PTP lock; the next accepted edge resynchronises. -/
def execPtpLock (s : State) : Host.Outcome State Fault Refusal :=
  .next (if !isRunning s || s.beat.ptpLock then s else modBeat s (fun b => { b with ptpLock := true, resyncDue := true }))

/-- PTP_LOCK_LOSS (R465): the management controller reports loss of PTP lock. -/
def execPtpLockLoss (s : State) : Host.Outcome State Fault Refusal :=
  .next (if !isRunning s then s else modBeat s (fun b => { b with ptpLock := false }))

end Sys2Proof.Machine
end

