-- ==== Sys2Proof/Machine/Order.lean ====
section
/-!
DEFINITION. The order of the engines' accesses to shared areas: what a stream, an operation or a token knows to be done, which areas
engines have touched without an order between them, and what becomes of those (R184, R212, R219; log entry 16).
-/
namespace Sys2Proof.Machine

/-- The engine of a cluster's stream: the vector engine of stream 1, the MOVE stream of stream 3; and the stream's own knowledge. -/
def streamKey (c st : Nat) : Nat := 16 * c + st

/-- A cluster's row engine. -/
def rowKey (c : Nat) : Nat := 16 * c + 4

/-- A vat of a cluster. -/
def vatKey (c v : Nat) : Nat := 16 * c + 8 + v

/-- A token of a cluster. -/
def tokenKey (c tok : Nat) : Nat := 1024 + 64 * c + tok

/-- The accesses that an engine, a stream or a token knows to be done. -/
def knownTo (s : State) (key : Nat) : List Nat := mapGet (fun _ => []) s.order.known key

/-- Two sets of accesses together. -/
def joinKnown (a b : List Nat) : List Nat := a ++ b.filter (fun n => !a.contains n)

/-- An engine, a stream or a token comes to know that accesses are done. -/
def learn (s : State) (key : Nat) (l : List Nat) : State :=
  { s with order := { s.order with known := mapSet (fun _ => []) s.order.known key (joinKnown (knownTo s key) l) } }

/-- What the tokens of a take know. -/
def knownToTokens (s : State) (c : Nat) (needs : List (Nat × Nat)) : List Nat :=
  needs.foldl (fun l p => joinKnown l (knownTo s (tokenKey c p.1))) []

/-- R204: a count added to a token by what knows `l`. -/
def signalToken (s : State) (c tok n stream : Nat) (l : List Nat) : State := addToken (learn s (tokenKey c tok) l) c tok n stream

/-- An access of an engine: its own number, its engine, and the accesses it comes after. -/
structure StoreUse where
  op     : Nat
  engine : Nat
  after  : List Nat
  deriving DecidableEq, Repr

/-- A new access of an engine, after `l`. -/
def newUse (s : State) (engine : Nat) (l : List Nat) : StoreUse × State :=
  (⟨s.order.next, engine, l⟩, { s with order := { s.order with next := s.order.next + 1 } })

/-- What is known once an access is done. -/
def StoreUse.done (a : StoreUse) : List Nat := joinKnown a.after [a.op]

/-- The addresses of `n` bytes of a cluster's own store from an offset, as (address, length). -/
def storeAreas (c off n : Nat) : List (Nat × Nat) :=
  let o := off % 2 ^ 24
  [(storeBase c + o, min n (2 ^ 24 - o)), (storeBase c, n - (2 ^ 24 - o))]

/-- What two areas (address, length) have in common. -/
def commonPart (a b : Nat × Nat) : Nat × Nat :=
  let lo := max a.1 b.1
  (lo, min (a.1 + a.2) (b.1 + b.2) - lo)

/-- R184: the parts of an area in which an access meets an earlier one of another engine, one of them a write, that it is not known to
come after. -/
def clashes (s : State) (a : StoreUse) (write : Bool) (area : Nat × Nat) : List (Nat × Nat) :=
  ((s.order.touches.filter (fun t => t.engine != a.engine && (write || t.write) && !a.after.contains t.op)).map
    (fun t => commonPart area (t.addr, t.len))).filter (fun p => p.2 != 0)

/-- R184: an access reads or writes areas of cluster stores: the contents of those it shares without an order are undefined from here
on. A read calls this before it takes its bytes, and a write after it has put its own. -/
def touchStore (s : State) (a : StoreUse) (write : Bool) (areas : List (Nat × Nat)) : State :=
  let s := (areas.flatMap (clashes s a write)).foldl (fun s p => undefineRange s p.1 p.2) s
  { s with order := { s.order with
      touches := s.order.touches ++ (areas.filter (fun p => p.2 != 0)).map (fun p => ⟨a.op, a.engine, p.1, p.2, write⟩) } }

/-- R201: an engine's descriptor is read as the stream issues it, and the stream knows it. -/
def readDesc (s : State) (c st engine off n : Nat) : StoreUse × State :=
  let u := newUse s engine (knownTo s (streamKey c st))
  (u.1, learn (touchStore u.2 u.1 false (storeAreas c off n)) (streamKey c st) [u.1.op])

/-- The areas of writes to a cluster's own store. -/
def writeAreas (c : Nat) (l : List (Nat × List Byte)) : List (Nat × Nat) := l.flatMap (fun p => storeAreas c p.1 p.2.length)

/-- R192: a cluster takes a new slice: what was touched in its store, or by its engines, stands in no slice that runs, and its streams
and tokens know nothing. -/
def forgetOrder (s : State) (c : Nat) : State :=
  { s with order := { s.order with
      touches := s.order.touches.filter (fun t => t.engine / 16 != c && !decide (storeBase c ≤ t.addr ∧ t.addr < storeBase (c + 1)))
      known := s.order.known.filter (fun e => if e.1 < 1024 then e.1 / 16 != c else (e.1 - 1024) / 64 != c) } }

/-! ### Slices -/

/-- The slices that a list of slices waits for, directly or through others: `n` bounds the length of a chain. -/
def slicesBefore (g : Program) : Nat → List Nat → List Nat
  | 0, l => l
  | n + 1, l => slicesBefore g n (l ++ (l.flatMap (fun i => sliceDeps (sliceDesc g i) i)).filter (fun j => !l.contains j)).eraseDups

/-- R219: two slices of a program are ordered through PRED entries or the fold rule. -/
def slicesOrdered (g : Program) (i j : Nat) : Bool :=
  i == j || (slicesBefore g g.slices.length [i]).contains j || (slicesBefore g g.slices.length [j]).contains i

/-- R219: the parts of an area of memory that a slice of a run shares, one of the two writing, with slices that are not ordered
against it. -/
def unorderedParts (r : Run) (g : Program) (i : Nat) (write : Bool) (area : Nat × Nat) : List (Nat × Nat) :=
  ((r.areas.filter (fun t => (write || t.write) && !slicesOrdered g i t.slice)).map
    (fun t => commonPart area (t.addr, t.len))).filter (fun p => p.2 != 0)

end Sys2Proof.Machine
end

