-- ==== Sys2Proof/Machine/Sequencer.lean ====
section
/-!
DEFINITION. The streams of the cluster sequencer (06_cluster_sequencer.md): how an instruction of a stream issues, the control
instructions of R195, counted loops (R198) and tokens (R204). A stream row carries the word that the stream issues; a row
whose word is not the stream's next one, or that the cluster cannot issue, changes nothing (log entry 12).
-/
namespace Sys2Proof.Machine

/-- The opcode of an instruction word (R195). -/
def opOf (w : Word) : Nat := getBits w 56 8

/-- Every bit of a word outside its opcode and the named fields (high bit, low bit) is 0. -/
def reservedZero (w : Word) (fields : List (Nat × Nat)) : Bool :=
  (fields.foldl (fun (w : Word) f => setBits w f.2 (f.1 + 1 - f.2) 0) (setBits w 56 8 0)) == 0

/-- R154, R163: an opcode of the vector engine. -/
def vecOpcode (op : Nat) : Bool :=
  decide (op ≤ 0x09 ∨ (0x10 ≤ op ∧ op ≤ 0x2A) ∨ (0x30 ≤ op ∧ op ≤ 0x33))

/-- R195, R201: an opcode defined in a stream. -/
def opcodeDefined (st op : Nat) : Bool :=
  decide (0xE0 ≤ op ∧ op ≤ 0xE8) || (if st = 1 then vecOpcode op else op == 1)

/-- A stream of a cluster. -/
def stream (v : Cluster) (st : Nat) : Stream := v.streams.getD st Stream.reset

/-- A stream of a cluster replaced. -/
def setStream (v : Cluster) (st : Nat) (t : Stream) : Cluster := { v with streams := v.streams.set st t }

/-- A scalar of a stream. -/
def scalar (t : Stream) (n : Nat) : Word := t.scalars.getD n 0

/-- R198, R199: the word after `pc`, and the loops still active: from the last word of its body a loop returns to the first
until its passes are done. -/
def advanceLoops (pc : Nat) : List LoopFrame → Nat × List LoopFrame
  | [] => (pc + 1, [])
  | f :: t =>
    if pc = f.last then
      (if 1 < f.left then (f.first, { f with left := f.left - 1 } :: t) else advanceLoops pc t)
    else (pc + 1, f :: t)

/-- A stream past the word at `pc`. -/
def Stream.past (t : Stream) (pc : Nat) : Stream :=
  let a := advanceLoops pc t.loops
  { t with pc := a.1, loops := a.2, waiting := none }

/-- A stream past its current word. -/
def Stream.next (t : Stream) : Stream := t.past t.pc

/-- A cluster's stream moved past its current word. -/
def passWord (s : State) (c st : Nat) : State :=
  modCluster s c (fun v => setStream v st (stream v st).next)

/-- R187, R200: the code words of the program a cluster runs. -/
def codeWords (s : State) (v : Cluster) : Nat :=
  match findRun s v.run with
  | none => 0
  | some r =>
    match findProgram s r.partition r.program with
    | none => 0
    | some g => g.code.length

/-- R192, R480: a stream may issue its next instruction. -/
def issues (s : State) (v : Cluster) (st : Nat) : Bool :=
  v.state == .running && !s.power.hold && !(stream v st).ended && (stream v st).waiting.isNone

/-- The next word of a stream in the program store. -/
def nextWord (v : Cluster) (st : Nat) : Word := mapGet (fun _ => 0) v.store (stream v st).pc

/-- A stream issues the word `w`, which is its next one: past the end of the code (R200) and with an opcode that is reserved
in the stream (R156, R213) it faults, whichever row brings the word; an opcode of this row is carried out. -/
def issue (s : State) (c st : Nat) (w : Word) (mine : Nat → Bool) (act : State → State) : State :=
  let v := cluster s c
  if !issues s v st then s
  else if codeWords s v ≤ (stream v st).pc then streamFault s c st
  else if nextWord v st ≠ w then s
  else if !opcodeDefined st (opOf w) then
    (if st = 1 ∧ opOf w < 0xE0 then vecFault s c 8 0x2100 else streamFault s c st)
  else if mine (opOf w) then act s else s

/-- A control instruction: its reserved fields are checked (R195, R213), then it acts. -/
def control (s : State) (c : Fin 64) (st : Fin 4) (w : Word) (op : Nat) (ok : Bool) (act : State → State) : State :=
  issue s c.val st.val w (fun o => o == op) (fun s => if ok then act s else streamFault s c.val st.val)

/-- R197: a scalar of a stream written, and the stream moved on. -/
def writeScalar (s : State) (c st d : Nat) (v : Word) : State :=
  modCluster s c (fun k =>
    let t := stream k st
    setStream k st { t with scalars := t.scalars.set d v }.next)

/-- The 32-bit immediate sign-extended (R195). -/
def immSext (w : Word) : Word := (BitVec.ofNat 32 (getBits w 0 32)).signExtend 64

/-- R196: the SALU functions. -/
def saluOp (f : Nat) (a b : Word) : Word :=
  let sh := b.toNat % 64
  match f with
  | 0 => a + b
  | 1 => a - b
  | 2 => a * b
  | 3 => if b.toInt < a.toInt then b else a
  | 4 => if a.toInt < b.toInt then b else a
  | 5 => a &&& b
  | 6 => a ||| b
  | 7 => a ^^^ b
  | 8 => a <<< sh
  | 9 => a >>> sh
  | _ => a.sshiftRight sh

/-- CNOP (R195). -/
def execCnop (c : Fin 64) (st : Fin 4) (w : Word) (s : State) : Host.Outcome State Fault Refusal :=
  .next (control s c st w 0xE0 (reservedZero w []) (fun s => passWord s c.val st.val))

/-- R193: the stream has executed END; once all four have, the cluster is finishing. -/
def endStream (s : State) (c st : Nat) : State :=
  modCluster s c (fun v =>
    let t := stream v st
    let v := setStream v st { t with ended := true, pc := t.pc + 1 }
    if v.streams.all (fun t => t.ended) then { v with state := .finishing } else v)

/-- END (R193, R195). -/
def execEndStream (c : Fin 64) (st : Fin 4) (w : Word) (s : State) : Host.Outcome State Fault Refusal :=
  .next (control s c st w 0xE1 (reservedZero w []) (fun s => endStream s c.val st.val))

/-- The loops active at a LOOP word that is the last word of their bodies: one in its last pass is done, and the pass of another also
runs the new loop, so it ends with that loop's body (R195; DEDUCED, log entry 45). -/
def loopsAt (t : Stream) (body : Nat) : List LoopFrame :=
  t.loops.filterMap (fun f =>
    if f.last ≠ t.pc then some f
    else if 1 < f.left then some { f with last := t.pc + body } else none)

/-- R198: a loop entered with a count, or its body skipped. -/
def enterLoop (t : Stream) (body n : Nat) : Stream :=
  let k := loopsAt t body
  if n = 0 then ({ t with loops := k }).past (t.pc + body)
  else { t with pc := t.pc + 1, loops := ⟨t.pc + 1, t.pc + body, n⟩ :: k }

/-- R198: a count that no loop has, or a fifth active loop. -/
def loopFault (t : Stream) (body n : Nat) : Bool := decide (0xFFFFFFFF < n ∨ (n ≠ 0 ∧ 4 ≤ (loopsAt t body).length))

/-- LOOP (R195, R198): a scalar count above 0xFFFF_FFFF, or a fifth active loop, is a stream fault. -/
def execLoop (c : Fin 64) (st : Fin 4) (w : Word) (s : State) : Host.Outcome State Fault Refusal :=
  .next (
    let body := getBits w 33 15
    let src := natBit w.toNat 55
    let ok := decide (body ≠ 0) &&
      (if src then reservedZero w [(55, 55), (47, 33), (32, 28)] && decide (getBits w 28 5 ≤ 15)
       else reservedZero w [(47, 33), (31, 0)])
    control s c st w 0xE2 ok (fun s =>
      let v := cluster s c.val
      let t := stream v st.val
      let n := if src then (scalar t (getBits w 28 5)).toNat else getBits w 0 32
      if loopFault t body n then streamFault s c.val st.val
      else setCluster s c.val (setStream v st.val (enterLoop t body n))))

/-- R195: the fields of TWAIT and TSIGNAL are well formed. -/
def tokenFieldsOk (w : Word) : Bool := reservedZero w [(53, 48), (15, 0)] && decide (getBits w 0 16 ≠ 0)

/-! ### Takes of tokens -/

/-- R114: the fill counts that a vat's operation takes for its next slice, as (token, count). -/
def fillNeeds (o : VatOp) : List (Nat × Nat) :=
  let a := fieldLe o.desc 54 1 % 64
  let b := fieldLe o.desc 70 1 % 64
  if o.took then [] else if a = b then [(a, 2)] else [(a, 1), (b, 1)]

/-- R110, R130: the bank of an operation is free for it. -/
def bankFree (t : Vat) (o : VatOp) : Bool := o.loaded || t.finished.all (fun f => f.bank != o.bank)

/-- R195: the count that the TWAIT at a stream's next word takes. -/
def twaitNeeds (v : Cluster) (st : Nat) : List (Nat × Nat) :=
  let w := nextWord v st
  [(getBits w 48 6, getBits w 0 16)]

/-- What a waiter takes: streams 0 to 3 in TWAIT, or 4 + v, vat v, which takes nothing under power hold (R480). -/
def waiterNeeds (hold : Bool) (v : Cluster) (n : Nat) : Option (List (Nat × Nat)) :=
  if n < 4 then if (stream v n).waiting.isSome then some (twaitNeeds v n) else none
  else
    let t := vatOf v (n - 4)
    match t.acc with
    | some o => if t.waiting.isSome && !hold && bankFree t o then some (fillNeeds o) else none
    | none => none

/-- A cluster's tokens hold the counts of a take. -/
def tokensHold (v : Cluster) (needs : List (Nat × Nat)) : Bool := needs.all (fun p => decide (p.2 ≤ tokenOf v p.1))

/-- R204: the order in which waiters are served: vats 0 to 3, then the MOVE, VAT, VEC and ROW streams. -/
def takeOrder : List Nat := [4, 5, 6, 7, 3, 0, 1, 2]

/-- R204: a waiter may take its counts: the tokens hold them, and no waiter that is served before it finds its own there and takes from
the same token. -/
def mayTake (hold : Bool) (v : Cluster) (n : Nat) (needs : List (Nat × Nat)) : Bool :=
  tokensHold v needs && (takeOrder.takeWhile (fun u => u != n)).all (fun u =>
    match waiterNeeds hold v u with
    | some ns => !(tokensHold v ns && ns.any (fun p => needs.any (fun q => q.1 == p.1)))
    | none => true)

/-- The counts of a take taken. -/
def takeTokens (s : State) (c : Nat) (needs : List (Nat × Nat)) : State :=
  needs.foldl (fun s p => takeToken s c p.1 p.2) s

/-- A stream's TWAIT takes its counts, and comes after what the tokens know (R184). -/
def takeForStream (s : State) (c st : Nat) (needs : List (Nat × Nat)) : State :=
  learn (takeTokens s c needs) (streamKey c st) (knownToTokens s c needs)

/-- TWAIT (R204): takes its count, or waits. -/
def execTwait (c : Fin 64) (st : Fin 4) (w : Word) (s : State) : Host.Outcome State Fault Refusal :=
  .next (control s c st w 0xE3 (tokenFieldsOk w) (fun s =>
    let v := cluster s c.val
    let needs := [(getBits w 48 6, getBits w 0 16)]
    if mayTake s.power.hold v st.val needs then passWord (takeForStream s c.val st.val needs) c.val st.val
    else setCluster s c.val (setStream v st.val { stream v st.val with waiting := some s.beat.waits })))

/-- R114: a vat takes the fill counts of its next slice, and comes after what the tokens know (R184). -/
def tookFill (s : State) (c v : Nat) (needs : List (Nat × Nat)) : State :=
  let l := knownToTokens s c needs
  modCluster (takeTokens s c needs) c (fun k =>
    let t := vatOf k v
    let t := { t with waiting := none, acc := t.acc.map (fun o => { o with took := true, knows := joinKnown o.knows l }) }
    { k with vats := k.vats.set v t })

/-- TWAIT_SATISFIED (R204): a waiting TWAIT of streams 0 to 3 finds its count and proceeds, or waiter 4 + v, vat v, finds the
fill counts of its next slice and takes them. -/
def execTwaitSatisfied (c : Fin 64) (waiter : Fin 8) (s : State) : Host.Outcome State Fault Refusal :=
  .next (
    let v := cluster s c.val
    match waiterNeeds s.power.hold v waiter.val with
    | none => s
    | some needs =>
      if !clusterActive v || !mayTake s.power.hold v waiter.val needs then s
      else if waiter.val < 4 then passWord (takeForStream s c.val waiter.val needs) c.val waiter.val
      else tookFill s c.val (waiter.val - 4) needs)

/-- TOKEN_TIMEOUT (R204): a TWAIT has waited `SEQ_WAIT_LIMIT` beats. -/
def execTokenTimeout (c : Fin 64) (st : Fin 4) (s : State) : Host.Outcome State Fault Refusal :=
  .next (
    let v := cluster s c.val
    match (stream v st.val).waiting with
    | some since =>
      let limit := (getReg s .seqWaitLimit (c.val / 16) (c.val % 16)).toNat
      if clusterActive v && decide (since + limit ≤ s.beat.waits) then seqFault s c.val st.val 5 .badParam 0x2392 else s
    | none => s)

/-- TSIGNAL (R204): the token comes to know what the stream knows. -/
def execTsignal (c : Fin 64) (st : Fin 4) (w : Word) (s : State) : Host.Outcome State Fault Refusal :=
  .next (control s c st w 0xE4 (tokenFieldsOk w) (fun s =>
    let n := getBits w 0 16
    let tok := getBits w 48 6
    let l := knownTo s (streamKey c.val st.val)
    if 0xFFFFFF < tokenOf (cluster s c.val) tok + n then signalToken s c.val tok n st.val l
    else signalToken (passWord s c.val st.val) c.val tok n st.val l))

/-- SLI (R195). -/
def execSli (c : Fin 64) (st : Fin 4) (w : Word) (s : State) : Host.Outcome State Fault Refusal :=
  .next (control s c st w 0xE5 (reservedZero w [(47, 43), (31, 0)] && decide (getBits w 43 5 ≤ 15)) (fun s =>
    writeScalar s c.val st.val (getBits w 43 5) (immSext w)))

/-- SLUI (R195). -/
def execSlui (c : Fin 64) (st : Fin 4) (w : Word) (s : State) : Host.Outcome State Fault Refusal :=
  .next (control s c st w 0xE6 (reservedZero w [(47, 43), (31, 0)] && decide (getBits w 43 5 ≤ 15)) (fun s =>
    let d := getBits w 43 5
    writeScalar s c.val st.val d (setBits (scalar (stream (cluster s c.val) st.val) d) 32 32 (getBits w 0 32))))

/-- R195, R196: the fields of SALU are well formed. -/
def saluFieldsOk (w : Word) : Bool :=
  decide (getBits w 48 4 ≤ 10 ∧ getBits w 43 5 ≤ 15 ∧ getBits w 38 5 ≤ 15) &&
    (if natBit w.toNat 55 then reservedZero w [(55, 55), (51, 48), (47, 43), (42, 38), (31, 0)]
     else reservedZero w [(51, 48), (47, 43), (42, 38), (37, 33)] && decide (getBits w 33 5 ≤ 15))

/-- SALU (R196). -/
def execSalu (c : Fin 64) (st : Fin 4) (w : Word) (s : State) : Host.Outcome State Fault Refusal :=
  .next (control s c st w 0xE7 (saluFieldsOk w) (fun s =>
    let t := stream (cluster s c.val) st.val
    let b := if natBit w.toNat 55 then immSext w else scalar t (getBits w 33 5)
    writeScalar s c.val st.val (getBits w 43 5) (saluOp (getBits w 48 4) (scalar t (getBits w 38 5)) b)))

/-- SID (R191, R195). -/
def execSid (c : Fin 64) (st : Fin 4) (w : Word) (s : State) : Host.Outcome State Fault Refusal :=
  .next (control s c st w 0xE8 (reservedZero w [(47, 43), (1, 0)] && decide (getBits w 43 5 ≤ 15 ∧ getBits w 0 2 ≤ 1))
    (fun s =>
      let v := cluster s c.val
      writeScalar s c.val st.val (getBits w 43 5) (BitVec.ofNat 64 (if getBits w 0 2 = 0 then v.rank else v.count))))

/-- R201: the descriptor address of VOP, ROP and MV: (S[A] + IMM[23:0]) mod 2^24. -/
def descAddr (t : Stream) (w : Word) : Nat := ((scalar t (getBits w 38 5)).toNat + getBits w 0 24) % 2 ^ 24

end Sys2Proof.Machine
end

