-- ==== Sys2Proof/Machine/Vat.lean ====
section
/-!
DEFINITION. The vats (03_dot_product.md, 04_vat.md): the operation descriptor and its checks, operand slots, the sums of one
slice, and the drain with its epilogue and tally. One VAT_SLICE row reads a whole slice (log entry 14).
-/
namespace Sys2Proof.Machine

/-! ### The descriptor -/

/-- R132: the ring fields of one operand. -/
structure RingDesc where
  base  : Nat
  slots : Nat
  fill  : Nat
  free  : Nat
  trans : Bool
  saxis : Bool
  deriving DecidableEq, Repr

/-- R132: a vat operation descriptor's fields; `m` and `n` count row and column blocks. -/
structure VatDesc where
  aFmt      : Nat
  bFmt      : Nat
  outFmt    : Nat
  savedFmt  : Nat
  m         : Nat
  n         : Nat
  pt600     : Bool
  dotSr     : Bool
  outSr     : Bool
  outSat    : Bool
  sparse    : Nat
  init      : Bool
  biasMode  : Nat
  scaleMode : Nat
  deriv     : Nat
  outSaxis  : Bool
  supplied  : Bool
  scaleCode : Nat
  tallyEn   : Bool
  tallySlot : Nat
  tallyElo  : Int
  k         : Nat
  k0        : Nat
  tensor    : Nat
  i0        : Nat
  j0        : Nat
  alpha     : F32
  scaleValue : F32
  done      : Nat
  a         : RingDesc
  b         : RingDesc
  outAddr   : Nat
  outScaleAddr : Nat
  initAddr  : Nat
  biasAddr  : Nat
  scaleAddr : Nat
  savedAddr : Nat
  deriving DecidableEq, Repr

/-- Bits `[lo + n - 1 : lo]` of the 64-bit word at byte `at_` of a descriptor. -/
def descBits (d : List Byte) (at_ lo n : Nat) : Nat := natBits (fieldLe d at_ 8) lo n

/-- R132: the ring fields at byte `o`. -/
def ringDesc (d : List Byte) (o : Nat) : RingDesc :=
  ⟨descBits d o 0 24, fieldLe d (o + 4) 2, fieldLe d (o + 6) 1 % 64, fieldLe d (o + 7) 1 % 64,
    natBit (fieldLe d (o + 8) 1) 0, natBit (fieldLe d (o + 8) 1) 1⟩

/-- An 8-bit two's complement number. -/
def signed8 (x : Nat) : Int := if 128 ≤ x then (x : Int) - 256 else x

/-- R132: a descriptor read. -/
def vatDesc (d : List Byte) : VatDesc :=
  let f := fun lo n => descBits d 0 lo n
  let addr := fun o => fieldLe d o 3
  { aFmt := f 0 4, bFmt := f 4 4, outFmt := f 8 4, savedFmt := f 12 4, m := f 16 2 + 1, n := f 18 2 + 1
    pt600 := f 20 1 == 1, dotSr := f 21 1 == 1, outSr := f 22 1 == 1, outSat := f 23 1 == 1, sparse := f 24 2
    init := f 26 1 == 1, biasMode := f 27 2, scaleMode := f 29 2, deriv := f 32 4, outSaxis := f 36 1 == 1
    supplied := f 37 1 == 1, scaleCode := f 40 8, tallyEn := f 48 1 == 1, tallySlot := f 49 6
    tallyElo := signed8 (f 56 8), k := descBits d 8 0 34, k0 := descBits d 16 0 34
    tensor := fieldLe d 24 4, i0 := fieldLe d 28 4, j0 := fieldLe d 32 4
    alpha := BitVec.ofNat 32 (fieldLe d 36 4), scaleValue := BitVec.ofNat 32 (fieldLe d 40 4)
    done := fieldLe d 44 1 % 64, a := ringDesc d 48, b := ringDesc d 64, outAddr := addr 80, outScaleAddr := addr 84
    initAddr := addr 88, biasAddr := addr 92, scaleAddr := addr 96, savedAddr := addr 100 }

/-- A format code's format; a descriptor that passed its checks names one. -/
def fmtOf (n : Nat) : Fmt := (fmtOfCode n).getD .fp32

/-- A format code is reserved. -/
def fmtReserved (n : Nat) : Bool := (fmtOfCode n).isNone

/-- The least of the offsets whose check fails (R136). -/
def lowestBad : List (Bool × Nat) → Option Nat
  | [] => none
  | (b, o) :: t =>
    match lowestBad t with
    | none => if b then some o else none
    | some x => if b && decide (o < x) then some o else some x

/-- R132: the reserved bits of one ring's bytes. -/
def ringReserved (d : List Byte) (o : Nat) : List (Bool × Nat) :=
  [(fieldLe d (o + 3) 1 != 0, o + 3), (decide (64 ≤ fieldLe d (o + 6) 1), o + 6),
    (decide (64 ≤ fieldLe d (o + 7) 1), o + 7), (decide (4 ≤ fieldLe d (o + 8) 1), o + 8), (!zeroBytes d (o + 9) 7, o + 9)]

/-- R132: the reserved fields of a descriptor. -/
def vatReserved (d : List Byte) : List (Bool × Nat) :=
  [(descBits d 0 31 1 != 0, 3), (descBits d 0 38 2 != 0, 4), (descBits d 0 55 1 != 0, 6), (descBits d 8 34 30 != 0, 12),
    (descBits d 16 34 30 != 0, 20), (decide (64 ≤ fieldLe d 44 1), 44), (!zeroBytes d 45 3, 45)]
  ++ ringReserved d 48 ++ ringReserved d 64
  ++ [83, 87, 91, 95, 99, 103].map (fun o => (fieldLe d o 1 != 0, o)) ++ [(!zeroBytes d 104 24, 104)]

/-- R85, R104, R123, R135, R136: the lowest faulty byte offset of a descriptor; fields that the settings leave unused are
not checked. The SAXIS of a sparse operand is checked whatever its format (DESIGN CHOICE, log entry 74). -/
def vatFault (d : List Byte) : Option Nat :=
  let x := vatDesc d
  let scaled := !fmtReserved x.outFmt && fmtScaled (fmtOf x.outFmt)
  lowestBad (vatReserved d ++
    [(fmtReserved x.aFmt || fmtReserved x.bFmt, 0), (fmtReserved x.outFmt, 1),
      (x.deriv != 0 && decide (2 < x.savedFmt), 1), (x.pt600 && x.dotSr, 2), (x.pt600 && x.k0 % 64 != 0, 2),
      (x.sparse == 3, 3), (x.biasMode == 3, 3), (x.sparse == 1 && (x.a.trans || x.a.saxis), 3),
      (x.sparse == 2 && (!x.b.trans || x.b.saxis), 3), (decide (5 < x.deriv), 4),
      (scaled && x.supplied && x.scaleCode == 255, 5), (x.k == 0 || decide (0x3FFFFFFFC < x.k0 + x.k), 8),
      (x.k0 % 4 != 0, 16), (x.a.base % 256 != 0, 48), (x.a.slots == 0, 52), (x.b.base % 256 != 0, 64),
      (x.b.slots == 0, 68), (x.outAddr % 256 != 0, 80), (scaled && x.outScaleAddr % 32 != 0, 84),
      (x.init && x.initAddr % 256 != 0, 88), (x.biasMode != 0 && x.biasAddr % 4 != 0, 92),
      (decide (2 ≤ x.scaleMode) && x.scaleAddr % 4 != 0, 96), (x.deriv != 0 && x.savedAddr % 256 != 0, 100)])

/-! ### Registers -/

/-- A vat status flag set, where the block shows it. -/
def flagVat (s : State) (c v bit : Nat) : State :=
  match vatIndex c v with
  | some i => setFlag s .vatStatus (c / 16) i bit
  | none => s

/-- R135: a descriptor fault recorded. -/
def vatDescFault (s : State) (c v o : Nat) : State :=
  faultWith s c .badParam (0x2000 + o) (fun s =>
    let s := flagVat s c v 8
    match vatIndex c v with
    | some i => setField s .vatStatus (c / 16) i 16 8 o
    | none => s)

/-! ### Issue -/

/-- A vat of a cluster replaced. -/
def setVat (s : State) (c v : Nat) (x : Vat) : State := modCluster s c (fun k => { k with vats := k.vats.set v x })

/-- R110, R202: an operation that comes after the accesses `l` enters a vat. -/
def enterVat (t : Vat) (desc : List Byte) (addr : Nat) (seed : BitVec 64) (l : List Nat) : Vat :=
  let o : VatOp := ⟨desc, addr, seed, t.bank, (vatDesc desc).k0, false, false, l⟩
  let t := { t with bank := !t.bank }
  if t.acc.isNone then { t with acc := some o } else { t with queued := some o }

/-- VOP (R201, R202, R135): the stream is held while the vat holds two operations; `stall` counts the cycles of that hold. -/
def execVop (c : Fin 64) (w : Word) (stall : BitVec 32) (s : State) : Host.Outcome State Fault Refusal :=
  .next (issue s c.val 0 w (fun o => o == 1) (fun s =>
    let k := cluster s c.val
    let v := getBits w 43 2
    let addr := descAddr (stream k 0) w
    if !reservedZero w [(44, 43), (42, 38), (23, 0)] || decide (15 < getBits w 38 5) || addr % 128 != 0 then
      streamFault s c.val 0
    else
      let t := vatOf k v
      if t.acc.isSome && t.queued.isSome then s
      else
        let u := readDesc s c.val 0 (vatKey c.val v) addr 128
        let d := storeBytes u.2 c.val addr 128
        let s := countVat u.2 .vatStall c.val v stall.toNat
        match vatFault d with
        | some o => vatDescFault s c.val v o
        | none => passWord (setVat s c.val v (enterVat t d addr (clusterSeed s c.val) u.1.done)) c.val 0))

/-! ### Operand slots -/

/-- One operand of an operation: its format, blocks, whether it is sparse, its ring, whether its rows run along stored p. -/
structure Side where
  fmt    : Fmt
  blocks : Nat
  sparse : Bool
  ring   : RingDesc
  lineP  : Bool
  deriving DecidableEq, Repr

/-- The A operand: line r is row r. -/
def sideA (d : VatDesc) : Side := ⟨fmtOf d.aFmt, d.m, d.sparse == 1, d.a, !d.a.trans⟩

/-- The B operand: line c is column c. -/
def sideB (d : VatDesc) : Side := ⟨fmtOf d.bFmt, d.n, d.sparse == 2, d.b, d.b.trans⟩

/-- R116: the bytes of an element block. -/
def Side.elem (x : Side) : Nat := if x.sparse then blockBytes x.fmt / 2 else blockBytes x.fmt

/-- R115: the offset of the companion scale blocks in a slot. -/
def Side.scaleAt (x : Side) : Nat := x.blocks * x.elem

/-- R115: the offset of the metadata blocks. -/
def Side.metaAt (x : Side) : Nat := x.scaleAt + (if fmtScaled x.fmt then 32 * x.blocks else 0)

/-- R115: the offset of the trailer. -/
def Side.trailerAt (x : Side) : Nat := x.metaAt + (if x.sparse then 128 * x.blocks else 0)

/-- R115: the size of a slot. -/
def Side.slotSize (x : Side) : Nat := 256 * ((x.trailerAt + 32 + 255) / 256)

/-- R113, R116: the store offset of the slot of slice σ of an operation whose first position is k0. -/
def Side.slotAt (x : Side) (k0 sigma : Nat) : Nat := x.ring.base + (sigma - k0 / 32) % x.ring.slots * x.slotSize

/-- A grid's transpose, 32 × 32. -/
def transpose32 (g : List (List Ext)) : List (List Ext) :=
  (List.range 32).map (fun q => g.map (fun row => row.getD q extZero))

/-- R63, R118, R119: the values of a dense element block at stored (p, q), and its malformed elements (R57): each stored element once,
whatever position it has (DESIGN CHOICE, log entry 73). -/
def denseBlock (f : Fmt) (saxis : Bool) (data scales : List Byte) : List (List Ext) × Nat :=
  let codes := (List.range 32).map (fun p =>
    let g := fieldLe data (p * groupBytes f) (groupBytes f)
    (List.range 32).map (unpackElem f g))
  (codes.mapIdx (fun p row => row.mapIdx (fun q c => elemValue f (scales.getD (if saxis then q else p) 0).toNat c)),
    codes.foldl (fun n row => n + countWhere (elemMalformed f) row) 0)

/-- R120 to R125: one group of four positions of a sparse row: its four values and its malformed elements. A malformed nibble counts once
and its elements, which enter as +0, not at all (DESIGN CHOICE, log entry 73). -/
def sparseGroup (f : Fmt) (scale nibble c0 c1 : Nat) : List Ext × Nat :=
  let i0 := nibble % 4
  let i1 := nibble / 4
  if i1 ≤ i0 then ([extZero, extZero, extZero, extZero], 1)
  else
    ((List.range 4).map (fun i => if i = i0 then elemValue f scale c0 else if i = i1 then elemValue f scale c1 else extZero),
      boolNat (elemMalformed f c0) + boolNat (elemMalformed f c1))

/-- R120 to R125: the values of a sparse element block at stored row p and position, and its malformed elements. -/
def sparseBlock (f : Fmt) (data scales meta_ : List Byte) : List (List Ext) × Nat :=
  let rows := (List.range 32).map (fun p =>
    let g := fieldLe data (p * (groupBytes f / 2)) (groupBytes f / 2)
    let word := fieldLe meta_ (4 * p) 4
    (List.range 8).map (fun k =>
      sparseGroup f (scales.getD p 0).toNat (natBits word (4 * k) 4) (unpackElem f g (2 * k)) (unpackElem f g (2 * k + 1))))
  (rows.map (fun r => r.flatMap (·.1)), rows.foldl (fun n r => r.foldl (fun n x => n + x.2) n) 0)

/-- The lines of one present block of a slot: 32 lines of 32 positions, and the malformed elements read. -/
def blockLines (s : State) (c slot b : Nat) (x : Side) : List (List Ext) × Nat :=
  let data := storeBytes s c (slot + b * x.elem) x.elem
  let scales := if fmtScaled x.fmt then storeBytes s c (slot + x.scaleAt + 32 * b) 32 else []
  if x.sparse then sparseBlock x.fmt data scales (storeBytes s c (slot + x.metaAt + 128 * b) 128)
  else
    let g := denseBlock x.fmt x.ring.saxis data scales
    (if x.lineP then g.1 else transpose32 g.1, g.2)

/-- R117: a slot's block presence mask. -/
def presence (s : State) (c slot : Nat) (x : Side) : Nat :=
  fieldLe (storeBytes s c (slot + x.trailerAt) 1) 0 1 % 2 ^ x.blocks

/-- R126: the lines of an operand in a slot; an absent block is +0. -/
def operandLines (s : State) (c slot : Nat) (x : Side) : List (List Ext) × Nat :=
  let mask := presence s c slot x
  (List.range x.blocks).foldl (fun acc b =>
    if natBit mask b then
      let r := blockLines s c slot b x
      (acc.1 ++ r.1, acc.2 + r.2)
    else (acc.1 ++ List.replicate 32 (List.replicate 32 extZero), acc.2)) ([], 0)

/-! ### Sums -/

/-- A list in groups of four (R90). -/
def groups4 : List Ext → List (List Ext)
  | a :: b :: c :: d :: t => [a, b, c, d] :: groups4 t
  | [] => []
  | l => [l]

/-- R91, R92: the groups of a slice from group `g` on added to a running sum, the rounding of each given by `mode`. -/
def nativeSums (mode : Nat → Rounding) : Nat → Nat → List (List Ext) → Nat
  | sum, _, [] => sum
  | sum, g, ps :: t => nativeSums mode (groupStep layFp32 (mode g) sum ps) (g + 1) t

/-- R102, R103: the products from position `pos` on added to the (A32, A22) sums; a chunk ends at a multiple of 64 and at
position `last`. -/
def ptSums (last : Nat) : Nat × Nat → Nat → List Ext → Nat × Nat
  | acc, _, [] => acc
  | acc, pos, p :: t =>
    let c := groupStep layA22 .rne acc.2 [p]
    if pos % 64 = 63 ∨ pos = last then
      ptSums last (groupStep layFp32 .rne acc.1 [decodeIeee layFp32 (widenA22 c)], 0) (pos + 1) t
    else ptSums last (acc.1, c) (pos + 1) t

/-- R92, R97, R98: the rounding of a group of element (i, j). -/
def dotMode (d : VatDesc) (seed : BitVec 64) (i j g : Nat) : Rounding :=
  if d.dotSr then .sr (coin seed d.tensor i j g) else .rne

/-- R89 to R92, R102, R103: the (A32, A22) sums of element (i, j) after the positions `lo` to `hi - 1` of a slice whose
products `ps` begin at `lo`. -/
def cellSums (d : VatDesc) (seed : BitVec 64) (i j lo hi : Nat) (ps : List Ext) (acc : Nat × Nat) : Nat × Nat :=
  if d.pt600 then ptSums (d.k0 + d.k - 1) acc lo (ps.take (hi - lo))
  else
    let ps := ps.take (hi - lo) ++ List.replicate (32 - (hi - lo)) extZero
    (nativeSums (dotMode d seed i j) acc.1 (lo / 4) (groups4 ps), 0)

/-- The accumulator bank of an operation. -/
def bankOf (t : Vat) (b : Bool) : SMap F32 := if b then t.bank1 else t.bank0

/-- The chunk accumulators of a bank. -/
def chunkOf (t : Vat) (b : Bool) : SMap (BitVec 22) := if b then t.chunk1 else t.chunk0

/-- A bank's sums and chunk accumulators replaced. -/
def setBank (t : Vat) (b : Bool) (x : SMap F32) (y : SMap (BitVec 22)) : Vat :=
  if b then { t with bank1 := x, chunk1 := y } else { t with bank0 := x, chunk0 := y }

/-- The cells of an operation, row by row, as (r, c). -/
def cellsOf (d : VatDesc) : List (Nat × Nat) :=
  (List.range (32 * d.m)).flatMap (fun r => (List.range (32 * d.n)).map (fun c => (r, c)))

/-- A table over cells: cell (r, c) at key 128r + c, zeros not listed. -/
def cellTable {n : Nat} (d : VatDesc) (f : Nat → Nat → BitVec n) : SMap (BitVec n) :=
  (cellsOf d).filterMap (fun p => let v := f p.1 p.2; if v = 0 then none else some (128 * p.1 + p.2, v))

/-- R133: the store offset of element (r, c) of a blocked area of a format of whole bytes. -/
def cellAt (d : VatDesc) (base bytes r c : Nat) : Nat :=
  base + (r / 32 * d.n + c / 32) * (1024 * bytes) + bytes * (32 * (r % 32) + c % 32)

/-- An FP32 word of a cluster store. -/
def storeF32 (s : State) (c off : Nat) : F32 := BitVec.ofNat 32 (fieldLe (storeBytes s c off 4) 0 4)

/-- R86: an operation's bank before its first slice: +0, or the loaded initial values. -/
def initBank (s : State) (c : Nat) (t : Vat) (o : VatOp) : Vat :=
  let d := vatDesc o.desc
  setBank t o.bank
    (if d.init then cellTable d (fun r k => canonNan32 (storeF32 s c (cellAt d d.initAddr 4 r k))) else []) []

/-- R91, R102: an operation's bank after the positions `lo` to `hi - 1`; skipped slices (R127) have no lines, so an infinity or NaN opposite
them leaves the sums, while opposite an absent block of a slice that is read it makes the NaN of R89 (DESIGN CHOICE, log
entry 74). -/
def addSlice (t : Vat) (o : VatOp) (lo hi : Nat) (lines : Option (List (List Ext) × List (List Ext))) : Vat :=
  let d := vatDesc o.desc
  let off := lo % 32
  let sums := bankOf t o.bank
  let chunks := chunkOf t o.bank
  let cell := fun r c =>
    let ps := match lines with
      | some (a, b) => List.zipWith extMul ((a.getD r []).drop off) ((b.getD c []).drop off)
      | none => List.replicate (hi - lo) extZero
    let key := 128 * r + c
    cellSums d o.seed ((d.i0 + r) % 2 ^ 32) ((d.j0 + c) % 2 ^ 32) lo hi ps
      ((mapGet (fun _ => 0) sums key).toNat, (mapGet (fun _ => 0) chunks key).toNat)
  setBank t o.bank (cellTable d (fun r c => BitVec.ofNat 32 (cell r c).1))
    (if d.pt600 then cellTable d (fun r c => BitVec.ofNat 22 (cell r c).2) else [])

/-- R128: the cycles of a dense slice of a format. -/
def sliceCycles : Fmt → Nat
  | .fp32 => 64
  | .bf16 => 32
  | .fp16 => 32
  | .e4m3 => 16
  | .e5m2 => 16
  | .e3m2 => 16
  | .e2m3 => 16
  | .int8 => 16
  | .e2m1 => 8
  | .int4 => 8
  | .s2 => 4

/-- R127, R128, R608: the cycles of a slice, `n` of whose 32 positions are still to be read (fewer only after a suspension within it). -/
def opCycles (d : VatDesc) (n : Nat) : Nat :=
  let c := max (sliceCycles (fmtOf d.aFmt)) (sliceCycles (fmtOf d.bFmt))
  let c := if d.sparse = 0 then c else c / 2
  max 1 ((c * n + 31) / 32)

/-- R113, R114, R127: an operation after the positions below `hi`: it waits for the next slice, stands inside one whose fill counts it
has taken (R608), or is summed and the queued one takes its place, after all its reads. -/
def advanceOp (t : Vat) (o : VatOp) (hi : Nat) : Vat :=
  let d := vatDesc o.desc
  let o := { o with nextPos := hi, loaded := true, took := decide (hi % 32 ≠ 0) }
  if hi = d.k0 + d.k then
    { t with
      acc := t.queued.map (fun q => { q with knows := joinKnown q.knows o.knows }), queued := none
      finished := t.finished ++ [{ o with took := false }] }
  else { t with acc := some o }

/-- The position after the last one of the slice that an operation reads next. -/
def sliceEnd (o : VatOp) : Nat :=
  let d := vatDesc o.desc
  min (32 * (o.nextPos / 32) + 32) (d.k0 + d.k)

/-- R114: an operation has read nothing of its next slice. -/
def sliceFresh (o : VatOp) : Bool := o.nextPos % 32 == 0 || o.nextPos == (vatDesc o.desc).k0

/-- R117, R127: the slice that an operation reads next is skipped. -/
def skips (s : State) (c : Nat) (o : VatOp) : Bool :=
  let d := vatDesc o.desc
  let sigma := o.nextPos / 32
  presence s c ((sideA d).slotAt d.k0 sigma) (sideA d) == 0 || presence s c ((sideB d).slotAt d.k0 sigma) (sideB d) == 0

/-- R86, R133: the store areas of the initial values that an operation has still to read. -/
def initAreas (c : Nat) (o : VatOp) : List (Nat × Nat) :=
  let d := vatDesc o.desc
  if d.init && !o.loaded then storeAreas c d.initAddr (d.m * d.n * 4096) else []

/-- R113, R115: the store areas that an operation reads for its next slice. -/
def sliceAreas (c : Nat) (o : VatOp) : List (Nat × Nat) :=
  let d := vatDesc o.desc
  let sigma := o.nextPos / 32
  storeAreas c ((sideA d).slotAt d.k0 sigma) (sideA d).slotSize ++ storeAreas c ((sideB d).slotAt d.k0 sigma) (sideB d).slotSize
    ++ initAreas c o

/-- R113 to R127: the positions below `hi` of the next slice of a vat's operation summed, its fill counts taken, and its free counts
added after the last read of the slots. The malformed elements count where the slots are first read (log entry 73). -/
def sumPart (s : State) (c v : Nat) (o : VatOp) (hi stall : Nat) : State :=
  let d := vatDesc o.desc
  let u := newUse (takeTokens s c (fillNeeds o)) (vatKey c v) (joinKnown o.knows (knownToTokens s c (fillNeeds o)))
  let s := touchStore u.2 u.1 false (sliceAreas c o)
  let l := u.1.done
  let o := { o with knows := l }
  let sigma := o.nextPos / 32
  let t := vatOf (cluster s c) v
  let t := if o.loaded then t else initBank s c t o
  let a := operandLines s c ((sideA d).slotAt d.k0 sigma) (sideA d)
  let b := operandLines s c ((sideB d).slotAt d.k0 sigma) (sideB d)
  let skip := skips s c o
  let whole := decide (hi = sliceEnd o)
  let t := addSlice t o o.nextPos hi (if skip then none else some (a.1, b.1))
  let s := setVat s c v (advanceOp t o hi)
  let n := if !whole then hi - o.nextPos else if sliceFresh o then 32 else 32 - o.nextPos % 32
  let s := countVat (countVat s .vatStall c v stall) .vatActive c v (if skip then 1 else opCycles d n)
  let s := if skip then countVat s .vatSkipped c v 1 else if sliceFresh o then countMalformed s c (a.2 + b.2) else s
  if whole then signalToken (signalToken s c d.a.free 1 0 l) c d.b.free 1 0 l else s

/-- R113 to R127: the rest of the next slice of a vat's operation read and summed. -/
def runSlice (s : State) (c v : Nat) (o : VatOp) (stall : Nat) : State := sumPart s c v o (sliceEnd o) stall

/-- A vat can read the next slice of its accumulating operation: no power hold (R480), its bank free, its fill counts there. -/
def canSum (s : State) (c v : Nat) (o : VatOp) : Bool :=
  let k := cluster s c
  clusterActive k && !s.power.hold && bankFree (vatOf k v) o && mayTake s.power.hold k (v + 4) (fillNeeds o)

/-- R95, R608: a suspend request meets a vat inside a slice: it has summed some groups of it, in PT-600 mode some products. How many
is timing, a free value (log entry 75). -/
def stopInSlice (c : Nat) (s : State) (v : Nat) : State :=
  let t := vatOf (cluster s c) v
  match t.acc with
  | none => s
  | some o =>
    if canSum s c v o && !skips s c o then
      let f := takeFreeNat s
      let unit := if (vatDesc o.desc).pt600 then 1 else 4
      let n := f.1 % ((sliceEnd o - o.nextPos + unit - 1) / unit)
      if n = 0 then f.2 else sumPart f.2 c v o (o.nextPos + n * unit) 0
    else s

/-- R95: an accumulating operation that has read nothing yet holds its initial values when it is dumped. -/
def loadInit (c : Nat) (s : State) (v : Nat) : State :=
  let t := vatOf (cluster s c) v
  match t.acc with
  | none => s
  | some o =>
    if o.loaded then s
    else
      let u := newUse s (vatKey c v) o.knows
      let s := touchStore u.2 u.1 false (initAreas c o)
      setVat s c v { initBank s c t o with acc := some { o with loaded := true, knows := u.1.done } }

/-- VAT_SLICE (R113, R114, R127): the accumulating operation of a vat reads its next slice, or starts to wait for its fill
counts; `stall` counts the cycles of R131. -/
def execVatSlice (c : Fin 64) (v : Fin 4) (stall : BitVec 32) (s : State) : Host.Outcome State Fault Refusal :=
  .next (
    let k := cluster s c.val
    let t := vatOf k v.val
    match t.acc with
    | none => s
    | some o =>
      if !clusterActive k || s.power.hold || t.waiting.isSome || !bankFree t o then s
      else if canSum s c.val v.val o then runSlice s c.val v.val o stall.toNat
      else setVat (countVat s .vatStall c.val v.val stall.toNat) c.val v.val { t with waiting := some s.beat.waits })

/-! ### The drain -/

/-- R140: the derivative step from s2 and y. -/
def derivStep (d : VatDesc) (s2 y : F32) : F32 :=
  let ye := decode32 y
  if d.deriv = 0 then s2
  else if extIsNan ye then nan32
  else
    let pos := extLt extZero ye
    match d.deriv with
    | 1 => if pos then s2 else 0
    | 2 => if pos then s2 else f32Mul s2 d.alpha
    | 3 => f32Mul s2 (f32Mul y (f32OneMinus y))
    | 4 => f32Mul s2 (f32OneMinus (f32Mul y y))
    | _ => if pos then s2 else f32Mul s2 (f32Add y d.alpha)

/-- R132: the saved forward value of cell (r, k), decoded exactly into FP32. -/
def savedValue (s : State) (c : Nat) (d : VatDesc) (r k : Nat) : F32 :=
  if d.deriv = 0 then 0
  else
    let f := fmtOf d.savedFmt
    let n := fmtBits f / 8
    rndFp32 (elemDecode f (fieldLe (storeBytes s c (cellAt d d.savedAddr n r k) n) 0 n))

/-- R138: the epilogue of cell (r, k) up to s3. -/
def epilogue (s : State) (c : Nat) (d : VatDesc) (sum : F32) (r k : Nat) : F32 :=
  let s1 := match d.biasMode with
    | 1 => f32Add sum (storeF32 s c (d.biasAddr + 4 * r))
    | 2 => f32Add sum (storeF32 s c (d.biasAddr + 4 * k))
    | _ => sum
  let s2 := match d.scaleMode with
    | 1 => f32Mul s1 d.scaleValue
    | 2 => f32Mul s1 (storeF32 s c (d.scaleAddr + 4 * r))
    | 3 => f32Mul s1 (storeF32 s c (d.scaleAddr + 4 * k))
    | _ => s1
  derivStep d s2 (savedValue s c d r k)

/-- R145: the tally bin of a value. -/
def tallyBin (elo : Int) (v : Ext) : Nat :=
  match v with
  | .nan => 63
  | .inf _ => 63
  | .fin _ n d =>
    if n = 0 then 0
    else
      let e := floorLog2 n d
      if e ≤ elo then 1 else if elo + 61 ≤ e then 62 else (e - elo + 1).toNat

/-- R146: counts added to one bin of a tile's slot copy. -/
def addBin (s : State) (tile slot bin n : Nat) : State :=
  if n = 0 then s
  else
    let w := getReg s .vatTallyBin tile slot bin
    let t := getBits w 0 32 + n
    setReg s .vatTallyBin tile slot
      (if 0xFFFFFFFF ≤ t then setBits (setBits w 0 32 0xFFFFFFFF) 63 1 1 else setBits w 0 32 t) bin

/-- R145 to R148: the tally of a drained operation; without an owner of the running partition it counts nothing and says
so once. -/
def tallyDrain (s : State) (c v : Nat) (d : VatDesc) (vals : List F32) : State :=
  if !d.tallyEn then s
  else
    let own := (getReg s .vatTallyOwner 0 d.tallySlot).toNat
    if natBit own 5 && own % 16 == (cluster s c).partition then
      let bins := vals.map (fun x => tallyBin d.tallyElo (decode32 x))
      (List.range 64).foldl (fun s b => addBin s (c / 16) d.tallySlot b (countWhere (fun x => x == b) bins)) s
    else raiseEvent (flagVat s c v 9) (clusterSrc c)

/-- The bytes of a row of 32 element codes (R63). -/
def rowBytes (f : Fmt) (codes : List Nat) : List Byte := leBytes (groupBytes f) (packElems f codes)

/-- R141: the output of block (bm, bn): its writes and the saturations counted. `val` gives s3 by (r, c). -/
def outBlock (d : VatDesc) (seed : BitVec 64) (val : Nat → Nat → F32) (bm bn : Nat) : List (Nat × List Byte) × Nat :=
  let f := fmtOf d.outFmt
  let at_ := d.outAddr + (bm * d.n + bn) * blockBytes f
  let sat := d.outScaleAddr + (bm * d.n + bn) * 32
  let mode := fun p q => convMode d.outSr seed d.tensor ((d.i0 + 32 * bm + p) % 2 ^ 32) ((d.j0 + 32 * bn + q) % 2 ^ 32)
  let v := fun p q => decode32 (val (32 * bm + p) (32 * bn + q))
  let ix := List.range 32
  if !fmtScaled f then
    ([(at_, ix.flatMap (fun p => rowBytes f (ix.map (fun q => encodePlain f (mode p q) d.outSat (v p q)))))], 0)
  else
    let sup := if d.supplied then some d.scaleCode else none
    let gs := ix.map (fun g =>
      if d.outSaxis then convGroup f (fun p => mode p g) sup (ix.map (fun p => v p g))
      else convGroup f (fun q => mode g q) sup (ix.map (fun q => v g q)))
    let code := fun p q => if d.outSaxis then (gs.map (fun g => g.codes.getD p 0)).getD q 0
      else (gs.map (fun g => g.codes.getD q 0)).getD p 0
    ([(at_, ix.flatMap (fun p => rowBytes f (ix.map (code p)))), (sat, gs.map (fun g => BitVec.ofNat 8 g.scale))],
      gs.foldl (fun n g => n + g.counts.saturated) 0)

/-- Two areas (address, size) of a store overlap; an area past the top of the store goes on at address 0 (log entry 13). -/
def overlaps (a b : Nat × Nat) : Bool :=
  a.2 != 0 && b.2 != 0 && (decide ((b.1 + (2 ^ 24 - a.1 % 2 ^ 24)) % 2 ^ 24 < a.2)
    || decide ((a.1 + (2 ^ 24 - b.1 % 2 ^ 24)) % 2 ^ 24 < b.2))

/-- R104: the slots of a ring of `slots` that the operation's slices use. -/
def ringSlotsRead (d : VatDesc) (slots : Nat) : Nat := min slots ((d.k0 + d.k + 31) / 32 - d.k0 / 32)

/-- R64, R133: blocks of two formats lie alike. -/
def sameLayout (f g : Fmt) : Bool := groupBytes f == groupBytes g && fmtScaled f == fmtScaled g

/-- R137: an operation's output area overlaps an area it reads, in-place initial and saved values apart. -/
def outOverlaps (o : VatOp) : Bool :=
  let d := vatDesc o.desc
  let n := d.m * d.n
  let f := fmtOf d.outFmt
  let outs := (d.outAddr, n * blockBytes f) :: (if fmtScaled f then [(d.outScaleAddr, 32 * n)] else [])
  let sv := fmtOf d.savedFmt
  let reads := [(o.addr, 128), (d.a.base, ringSlotsRead d d.a.slots * (sideA d).slotSize),
      (d.b.base, ringSlotsRead d d.b.slots * (sideB d).slotSize)]
    ++ (if d.init && !(d.initAddr == d.outAddr && f == .fp32) then [(d.initAddr, n * 4096)] else [])
    ++ (if d.biasMode = 0 then [] else [(d.biasAddr, 128 * (if d.biasMode = 1 then d.m else d.n))])
    ++ (if d.scaleMode < 2 then [] else [(d.scaleAddr, 128 * (if d.scaleMode = 2 then d.m else d.n))])
    ++ (if d.deriv ≠ 0 ∧ ¬(d.savedAddr = d.outAddr ∧ sameLayout sv f) then [(d.savedAddr, n * blockBytes sv)] else [])
  outs.any (fun o => reads.any (overlaps o))

/-- Free bytes in place of the undefined contents of written areas. -/
def undefinedWrites (s : State) : List (Nat × List Byte) → List (Nat × List Byte) × State
  | [] => ([], s)
  | (a, b) :: t =>
    let bytes := (List.range b.length).map (fun i => Config.freeByte (s.free + i))
    let r := undefinedWrites { s with free := s.free + b.length } t
    ((a, bytes) :: r.1, r.2)

/-- R138, R140: the store areas that a drain reads. -/
def drainAreas (c : Nat) (d : VatDesc) : List (Nat × Nat) :=
  (if d.biasMode = 0 then [] else storeAreas c d.biasAddr (128 * (if d.biasMode = 1 then d.m else d.n)))
    ++ (if d.scaleMode < 2 then [] else storeAreas c d.scaleAddr (128 * (if d.scaleMode = 2 then d.m else d.n)))
    ++ (if d.deriv = 0 then [] else storeAreas c d.savedAddr (d.m * d.n * blockBytes (fmtOf d.savedFmt)))

/-- R138 to R148: a summed operation drained: its counts, its tally, and the bytes it will write. The counts of all its rows are added
here in one update, so that a TALLY_READ before the operation has completed sees all of them or none, one of the subsets that R148
allows (DESIGN CHOICE, log entry 37). -/
def drainOp (s : State) (c v : Nat) (t : Vat) (o : VatOp) : State :=
  let d := vatDesc o.desc
  let u := newUse s (vatKey c v) o.knows
  let s := touchStore u.2 u.1 false (drainAreas c d)
  let sums := bankOf t o.bank
  let vals := cellTable d (fun r k => epilogue s c d (mapGet (fun _ => 0) sums (128 * r + k)) r k)
  let val := fun r k => mapGet (fun _ => 0) vals (128 * r + k)
  let all := (cellsOf d).map (fun p => val p.1 p.2)
  let blocks := (List.range d.m).flatMap (fun bm => (List.range d.n).map (fun bn => outBlock d o.seed val bm bn))
  let s := countSaturated (countNonFinite s c (countWhere f32NonFinite all)) c (blocks.foldl (fun n b => n + b.2) 0)
  let s := tallyDrain s c v d all
  let w := blocks.flatMap (·.1)
  let w := if outOverlaps o then undefinedWrites s w else (w, s)
  countVat (setVat w.2 c v { t with finished := t.finished.drop 1, draining := t.draining ++ [⟨w.1, d.done, u.1.done⟩] })
    .vatOps c v 1

/-- VAT_DRAIN (R130, R138): the oldest summed operation of a vat drains; its bank is free afterwards. -/
def execVatDrain (c : Fin 64) (v : Fin 4) (s : State) : Host.Outcome State Fault Refusal :=
  .next (
    let t := vatOf (cluster s c.val) v.val
    match t.finished with
    | [] => s
    | o :: _ => drainOp s c.val v.val t o)

/-- VAT_DRAIN_COMPLETE (R130): the oldest drain writes its output and adds its DONE_TOKEN count. -/
def execVatDrainComplete (c : Fin 64) (v : Fin 4) (s : State) : Host.Outcome State Fault Refusal :=
  .next (
    let t := vatOf (cluster s c.val) v.val
    match t.draining with
    | [] => s
    | d :: rest =>
      let u := newUse (setVat s c.val v.val { t with draining := rest }) (vatKey c.val v.val)
        (joinKnown d.knows (knownTo s (vatKey c.val v.val)))
      let s := touchStore (d.writes.foldl (fun s p => putStore s c.val p.1 p.2) u.2) u.1 true (writeAreas c.val d.writes)
      settleCluster (signalToken (learn s (vatKey c.val v.val) u.1.done) c.val d.token 1 0 u.1.done) c.val)

end Sys2Proof.Machine
end

