-- ==== Sys2Proof/Machine/Vector.lean ====
section
/-!
DEFINITION. The vector engine (R150 to R168): its registers, the checks of an instruction word, and its instructions. Each row
carries the word the VEC stream issues and the cycles it was held under R164.
-/
namespace Sys2Proof.Machine

/-! ### Registers -/

/-- T[n](r, c). -/
def tileAt (v : VecRegs) (n r c : Nat) : F32 := mapGet (fun _ => 0) v.t (1024 * n + 32 * r + c)

/-- T[n](r, c) replaced. -/
def setTile (v : VecRegs) (n r c : Nat) (x : F32) : VecRegs :=
  { v with t := mapSet (fun _ => 0) v.t (1024 * n + 32 * r + c) x }

/-- U[n][c]. -/
def rowVec (v : VecRegs) (n c : Nat) : F32 := mapGet (fun _ => 0) v.u (32 * n + c)

/-- U[n][c] replaced. -/
def setRowVec (v : VecRegs) (n c : Nat) (x : F32) : VecRegs := { v with u := mapSet (fun _ => 0) v.u (32 * n + c) x }

/-- V[n][r]. -/
def colVec (v : VecRegs) (n r : Nat) : F32 := mapGet (fun _ => 0) v.v (32 * n + r)

/-- V[n][r] replaced. -/
def setColVec (v : VecRegs) (n r : Nat) (x : F32) : VecRegs := { v with v := mapSet (fun _ => 0) v.v (32 * n + r) x }

/-- M[n](r, c). -/
def maskAt (v : VecRegs) (n r c : Nat) : Bool := mapGet (fun _ => false) v.m (1024 * n + 32 * r + c)

/-- M[n](r, c) replaced. -/
def setMask (v : VecRegs) (n r c : Nat) (x : Bool) : VecRegs :=
  { v with m := mapSet (fun _ => false) v.m (1024 * n + 32 * r + c) x }

/-- R152: the active elements. -/
def activeCells (v : VecRegs) : List (Nat × Nat) :=
  (List.range v.rows).flatMap (fun r => (List.range v.cols).map (fun c => (r, c)))

/-! ### The instruction word (R154) -/

/-- PREC. -/
def insPrec (w : Word) : Bool := natBit w.toNat 55
/-- BK. -/
def insBk (w : Word) : Nat := getBits w 53 2
/-- CK. -/
def insCk (w : Word) : Nat := getBits w 51 2
/-- WM. -/
def insWm (w : Word) : Bool := natBit w.toNat 50
/-- WMR. -/
def insWmr (w : Word) : Nat := getBits w 48 2
/-- D. -/
def insD (w : Word) : Nat := getBits w 43 5
/-- A. -/
def insA (w : Word) : Nat := getBits w 38 5
/-- B. -/
def insB (w : Word) : Nat := getBits w 33 5
/-- C. -/
def insC (w : Word) : Nat := getBits w 28 5
/-- IMM. -/
def insImm (w : Word) : Nat := getBits w 0 32

/-- What an instruction's operands are: whether it may take a pair (R155), whether it reads tile A, operand B, operand C by
their classes, and a mask register in C. -/
structure VecForm where
  pair  : Bool
  a     : Bool
  b     : Bool
  c     : Bool
  maskC : Bool
  deriving DecidableEq, Repr

/-- R154: the register of a class is in its range. -/
def classOk (k n : Nat) : Bool := k == 0 || k == 3 || decide (n ≤ 7)

/-- R154, R155: the word of an instruction with tile operands holds no reserved value. -/
def formOk (f : VecForm) (w : Word) : Bool :=
  let imm := (f.b && insBk w == 3) || (f.c && insCk w == 3)
  let needC := f.maskC || (f.c && insCk w != 3)
  (if imm then !needC && getBits w 32 1 == 0 else getBits w 0 28 == 0)
    && (!f.b || classOk (insBk w) (insB w)) && (!f.c || classOk (insCk w) (insC w)) && (!f.maskC || decide (insC w ≤ 3))
    && (!insPrec w || (f.pair && insD w % 2 == 0 && (!f.a || insA w % 2 == 0)
      && (!(f.b && insBk w == 0) || insB w % 2 == 0) && (!(f.c && insCk w == 0) || insC w % 2 == 0)))

/-- R154: the value operand B or C supplies at element (r, c); `off` picks the tile of a pair. -/
def classValue (v : VecRegs) (k n imm off r c : Nat) : F32 :=
  match k with
  | 0 => tileAt v (n + off) r c
  | 1 => rowVec v n c
  | 2 => colVec v n r
  | _ => BitVec.ofNat 32 imm

/-! ### Issue -/

/-- R156, R163, R164: a vector instruction issues: a word with a reserved value faults; otherwise it acts, is counted, and the
stream moves on. -/
def vecIssue (s : State) (c : Fin 64) (w : Word) (stall : BitVec 32) (op : Nat) (ok : State → Bool)
    (act : State → State) : State :=
  issue s c.val 1 w (fun o => o == op) (fun s =>
    if !ok s then vecFault s c.val 8 0x2100
    else
      let s := count s .vecInsns (c.val / 16) (c.val % 16)
      let s := if stall = 0 then s else count s .vecStall (c.val / 16) (c.val % 16) stall.toNat
      passWord (act s) c.val 1)

/-- A cluster's vector registers replaced. -/
def setVec (s : State) (c : Nat) (v : VecRegs) : State := modCluster s c (fun k => { k with vec := v })

/-- R162: arisen non-finite elements counted. -/
def countArisen (s : State) (k : RegKind) (c n : Nat) : State :=
  if n = 0 then s else count (countNonFinite s c n) k (c / 16) (c % 16) n

/-- The registers after an instruction, and the non-finite elements that arose. -/
structure VecResult where
  regs   : VecRegs
  arisen : Nat
  deriving DecidableEq, Repr

/-- A result that is not finite although every operand is (R162). -/
def arises (x : F32) (ops : List F32) : Bool := f32NonFinite x && ops.all (fun o => !f32NonFinite o)

/-- R152, R153, R155: a tile instruction: at every active element that the write mask admits, of both tiles of a pair, the
destination takes `g` of the operands that `ops` lists. -/
def tileResult (v : VecRegs) (w : Word) (ops : Nat → Nat → Nat → List F32) (g : Nat → Nat → List F32 → F32) : VecResult :=
  let cells := (activeCells v).filter (fun p => !insWm w || maskAt v (insWmr w) p.1 p.2)
  (List.range (if insPrec w then 2 else 1)).foldl (fun a off =>
    cells.foldl (fun a p =>
      let o := ops off p.1 p.2
      let x := g p.1 p.2 o
      ⟨setTile a.regs (insD w + off) p.1 p.2 x, a.arisen + boolNat (arises x o)⟩) a) ⟨v, 0⟩

/-- A tile instruction issues. -/
def tileInsn (s : State) (c : Fin 64) (w : Word) (stall : BitVec 32) (op : Nat) (f : VecForm)
    (ops : VecRegs → Nat → Nat → Nat → List F32) (g : VecRegs → Nat → Nat → List F32 → F32) : State :=
  vecIssue s c w stall op (fun _ => formOk f w) (fun s =>
    let v := (cluster s c.val).vec
    let r := tileResult v w (ops v) (g v)
    countArisen (setVec s c.val r.regs) .vecNonfinite c.val r.arisen)

/-- Operand A of a tile instruction. -/
def opA (w : Word) (v : VecRegs) (off r c : Nat) : F32 := tileAt v (insA w + off) r c
/-- Operand B. -/
def opB (w : Word) (v : VecRegs) (off r c : Nat) : F32 := classValue v (insBk w) (insB w) (insImm w) off r c
/-- Operand C. -/
def opC (w : Word) (v : VecRegs) (off r c : Nat) : F32 := classValue v (insCk w) (insC w) (insImm w) off r c

/-- An instruction of one tile operand: `g` of the value of A, rounded by PREC. -/
def unaryInsn (s : State) (c : Fin 64) (w : Word) (stall : BitVec 32) (op : Nat) (g : (Ext → F32) → F32 → F32) : State :=
  tileInsn s c w stall op ⟨true, true, false, false, false⟩ (fun v o r k => [opA w v o r k])
    (fun _ _ _ l => g (rndPrec (insPrec w)) (l.getD 0 0))

/-- An instruction of operands A and B: the exact `g` of their values, rounded once. -/
def binaryInsn (s : State) (c : Fin 64) (w : Word) (stall : BitVec 32) (op : Nat) (g : Ext → Ext → Ext) : State :=
  tileInsn s c w stall op ⟨true, true, true, false, false⟩ (fun v o r k => [opA w v o r k, opB w v o r k])
    (fun _ _ _ l => rndPrec (insPrec w) (g (decode32 (l.getD 0 0)) (decode32 (l.getD 1 0))))

/-- An instruction of operands A, B and C. -/
def ternaryInsn (s : State) (c : Fin 64) (w : Word) (stall : BitVec 32) (op : Nat) (g : Ext → Ext → Ext → Ext) : State :=
  tileInsn s c w stall op ⟨true, true, true, true, false⟩
    (fun v o r k => [opA w v o r k, opB w v o r k, opC w v o r k])
    (fun _ _ _ l => rndPrec (insPrec w) (g (decode32 (l.getD 0 0)) (decode32 (l.getD 1 0)) (decode32 (l.getD 2 0))))

/-! ### Control of the active area, loads and stores -/

/-- VNOP. -/
def execVnop (c : Fin 64) (w : Word) (stall : BitVec 32) (s : State) : Host.Outcome State Fault Refusal :=
  .next (vecIssue s c w stall 0x00 (fun _ => getBits w 0 28 == 0 && !insPrec w) (fun s => s))

/-- R165: the active area replaced. -/
def setVlen (s : State) (c rows cols : Nat) : State :=
  modCluster s c (fun k => { k with vec := { k.vec with rows := rows, cols := cols } })

/-- VSETVL (R165). -/
def execVsetvl (c : Fin 64) (w : Word) (stall : BitVec 32) (s : State) : Host.Outcome State Fault Refusal :=
  .next (
    let byScalar := natBit w.toNat 16
    let rows := getBits w 0 6
    let cols := getBits w 8 6
    let ok := !insPrec w && getBits w 32 1 == 0 &&
      (if byScalar then decide (insA w ≤ 15 ∧ insB w ≤ 15) else decide (1 ≤ rows ∧ rows ≤ 32 ∧ 1 ≤ cols ∧ cols ≤ 32))
    issue s c.val 1 w (fun o => o == 0x01) (fun s =>
      let t := stream (cluster s c.val) 1
      let a := (scalar t (insA w)).toNat
      let b := (scalar t (insB w)).toNat
      if ok && byScalar && (a == 0 || b == 0) then vecFault s c.val 9 0x2101
      else
        vecIssue s c w stall 0x01 (fun _ => ok) (fun s =>
          if byScalar then setVlen s c.val (min a 32) (min b 32) else setVlen s c.val rows cols)))

/-- R166: the block address of a load or store. -/
def blockAddr (s : State) (c : Nat) (w : Word) : Nat :=
  ((scalar (stream (cluster s c) 1) (insA w)).toNat + getBits w 0 24) % 2 ^ 24

/-- R166: the address of the companion scale block. -/
def scaleBlockAddr (s : State) (c : Nat) (w : Word) : Nat := (scalar (stream (cluster s c) 1) (insB w)).toNat % 2 ^ 24

/-- R156, R166, R168: the word and the addresses of VLD or VST are well formed. -/
def blockOk (s : State) (c : Nat) (w : Word) : Bool :=
  let f := getBits w 24 4
  !insPrec w && getBits w 32 1 == 0 && !fmtReserved f && decide (insA w ≤ 15) && blockAddr s c w % 256 == 0
    && (!fmtScaled (fmtOf f) || (decide (insB w ≤ 15) && scaleBlockAddr s c w % 32 == 0))

/-- R118: the stored coordinates of element (r, c). -/
def storedAt (trans : Bool) (r c : Nat) : Nat × Nat := if trans then (c, r) else (r, c)

/-- R184: the vector engine reads or writes areas of its cluster's store, in the order of its stream. -/
def vecTouch (s : State) (c : Nat) (write : Bool) (areas : List (Nat × Nat)) : State :=
  let u := newUse s (streamKey c 1) (knownTo s (streamKey c 1))
  learn (touchStore u.2 u.1 write areas) (streamKey c 1) [u.1.op]

/-- R166, R167: the store areas of VLD and VST. -/
def blockAreas (s : State) (c : Nat) (w : Word) : List (Nat × Nat) :=
  let f := fmtOf (getBits w 24 4)
  storeAreas c (blockAddr s c w) (blockBytes f) ++ (if fmtScaled f then storeAreas c (scaleBlockAddr s c w) 32 else [])

/-- R166: VLD's element at (r, c): its value and whether its code is malformed (R57). -/
def loadElem (f : Fmt) (trans saxis : Bool) (data scales : List Byte) (r c : Nat) : Ext × Bool :=
  let p := storedAt trans r c
  let code := unpackElem f (fieldLe data (p.1 * groupBytes f) (groupBytes f)) p.2
  (elemValue f (scales.getD (if saxis then p.2 else p.1) 0).toNat code, elemMalformed f code)

/-- Every element of a tile, row by row. -/
def allCells : List (Nat × Nat) := (List.range 32).flatMap (fun r => (List.range 32).map (fun c => (r, c)))

/-- R163, R166: a block loaded into T[D] where the write mask admits it; inactive elements become +0 where it does (DESIGN CHOICE, log
entry 38: R166 writes them all and R154's WM admits no write where its bit is 0). A conversion counts no non-finite value (R83; log
entry 73). -/
def loadTile (s : State) (c : Nat) (w : Word) : State :=
  let f := fmtOf (getBits w 24 4)
  let s := vecTouch s c false (blockAreas s c w)
  let v := (cluster s c).vec
  let data := storeBytes s c (blockAddr s c w) (blockBytes f)
  let scales := if fmtScaled f then storeBytes s c (scaleBlockAddr s c w) 32 else []
  let elem := loadElem f (natBit w.toNat 28) (natBit w.toNat 29) data scales
  let out := fun (p : Nat × Nat) => if p.1 < v.rows ∧ p.2 < v.cols then rndFp32 (elem p.1 p.2).1 else 0
  let wr := fun (p : Nat × Nat) => !insWm w || maskAt v (insWmr w) p.1 p.2
  let regs := (allCells.filter wr).foldl (fun v p => setTile v (insD w) p.1 p.2 (out p)) v
  let read := activeCells v
  countMalformed (setVec s c regs) c (countWhere (fun p => (elem p.1 p.2).2) read)

/-- VLD (R166). -/
def execVld (c : Fin 64) (w : Word) (stall : BitVec 32) (s : State) : Host.Outcome State Fault Refusal :=
  .next (vecIssue s c w stall 0x02 (fun s => blockOk s c.val w) (fun s => loadTile s c.val w))

/-- R167: the values VST writes, by stored coordinates; inactive elements are +0. -/
def storeElem (v : VecRegs) (n : Nat) (trans : Bool) (p q : Nat) : Ext :=
  let a := storedAt trans p q
  if a.1 < v.rows ∧ a.2 < v.cols then decode32 (tileAt v n a.1 a.2) else extZero

/-- R167: T[D] stored as one whole block. -/
def storeTile (s : State) (c : Nat) (w : Word) : State :=
  let f := fmtOf (getBits w 24 4)
  let areas := blockAreas s c w
  let v := (cluster s c).vec
  let t := stream (cluster s c) 1
  let trans := natBit w.toNat 28
  let saxis := natBit w.toNat 29
  let low := fun n => (scalar t n).toNat % 2 ^ 32
  let mode := fun p q =>
    let a := storedAt trans p q
    convMode (natBit w.toNat 30) (clusterSeed s c) (low 15) ((low 13 + a.1) % 2 ^ 32) ((low 14 + a.2) % 2 ^ 32)
  let x := storeElem v (insD w) trans
  let ix := List.range 32
  if !fmtScaled f then
    vecTouch (putStore s c (blockAddr s c w)
      (ix.flatMap (fun p => rowBytes f (ix.map (fun q => encodePlain f (mode p q) (natBit w.toNat 31) (x p q)))))) c true areas
  else
    let gs := ix.map (fun g =>
      if saxis then convGroup f (fun p => mode p g) none (ix.map (fun p => x p g))
      else convGroup f (fun q => mode g q) none (ix.map (fun q => x g q)))
    let code := fun p q => if saxis then (gs.map (fun g => g.codes.getD p 0)).getD q 0
      else (gs.map (fun g => g.codes.getD q 0)).getD p 0
    let s := putStore s c (blockAddr s c w) (ix.flatMap (fun p => rowBytes f (ix.map (code p))))
    let s := vecTouch (putStore s c (scaleBlockAddr s c w) (gs.map (fun g => BitVec.ofNat 8 g.scale))) c true areas
    countNonFinite (countSaturated s c (gs.foldl (fun n g => n + g.counts.saturated) 0)) c
      (gs.foldl (fun n g => n + g.counts.nonFinite) 0)

/-- VST (R167). -/
def execVst (c : Fin 64) (w : Word) (stall : BitVec 32) (s : State) : Host.Outcome State Fault Refusal :=
  .next (vecIssue s c w stall 0x03 (fun s => blockOk s c.val w) (fun s => storeTile s c.val w))

/-- R156, R167, R168: the word and the address of a vector load or store are well formed. -/
def vectorOk (s : State) (c : Nat) (w : Word) : Bool :=
  !insPrec w && getBits w 24 9 == 0 && decide (insA w ≤ 15 ∧ insD w ≤ 7) && blockAddr s c w % 128 == 0

/-- VLDU (R163, R166). -/
def execVldu (c : Fin 64) (w : Word) (stall : BitVec 32) (s : State) : Host.Outcome State Fault Refusal :=
  .next (vecIssue s c w stall 0x04 (fun s => vectorOk s c.val w) (fun s =>
    let v := (cluster s c.val).vec
    let a := blockAddr s c.val w
    let s := vecTouch s c.val false (storeAreas c.val a 128)
    setVec s c.val ((List.range 32).foldl (fun x i =>
      setRowVec x (insD w) i (if i < v.cols then storeF32 s c.val (a + 4 * i) else 0)) v)))

/-- VLDV (R163, R166). -/
def execVldv (c : Fin 64) (w : Word) (stall : BitVec 32) (s : State) : Host.Outcome State Fault Refusal :=
  .next (vecIssue s c w stall 0x05 (fun s => vectorOk s c.val w) (fun s =>
    let v := (cluster s c.val).vec
    let a := blockAddr s c.val w
    let s := vecTouch s c.val false (storeAreas c.val a 128)
    setVec s c.val ((List.range 32).foldl (fun x i =>
      setColVec x (insD w) i (if i < v.rows then storeF32 s c.val (a + 4 * i) else 0)) v)))

/-- VSTU (R163, R167). -/
def execVstu (c : Fin 64) (w : Word) (stall : BitVec 32) (s : State) : Host.Outcome State Fault Refusal :=
  .next (vecIssue s c w stall 0x06 (fun s => vectorOk s c.val w) (fun s =>
    let v := (cluster s c.val).vec
    vecTouch (putStore s c.val (blockAddr s c.val w) ((List.range 32).flatMap (fun i =>
      leBytes 4 (if i < v.cols then (rowVec v (insD w) i).toNat else 0)))) c.val true (storeAreas c.val (blockAddr s c.val w) 128)))

/-- VSTV (R163, R167). -/
def execVstv (c : Fin 64) (w : Word) (stall : BitVec 32) (s : State) : Host.Outcome State Fault Refusal :=
  .next (vecIssue s c w stall 0x07 (fun s => vectorOk s c.val w) (fun s =>
    let v := (cluster s c.val).vec
    vecTouch (putStore s c.val (blockAddr s c.val w) ((List.range 32).flatMap (fun i =>
      leBytes 4 (if i < v.rows then (colVec v (insD w) i).toNat else 0)))) c.val true (storeAreas c.val (blockAddr s c.val w) 128)))

/-! ### Moves and arithmetic -/

/-- VMOV (R155, R163): the bits of B; a pair rounds to BF16. -/
def execVmov (c : Fin 64) (w : Word) (stall : BitVec 32) (s : State) : Host.Outcome State Fault Refusal :=
  .next (tileInsn s c w stall 0x08 ⟨true, false, true, false, false⟩ (fun v o r k => [opB w v o r k])
    (fun _ _ _ l => if insPrec w then rndBf16 (decode32 (l.getD 0 0)) else l.getD 0 0))

/-- VTRN (R152, R163): no instruction reads an inactive element, so an element whose mirror image is inactive gets a free value, the same on
every run (DESIGN CHOICE, log entry 38). -/
def execVtrn (c : Fin 64) (w : Word) (stall : BitVec 32) (s : State) : Host.Outcome State Fault Refusal :=
  .next (tileInsn s c w stall 0x09 ⟨false, true, false, false, false⟩ (fun v o r k =>
      [if k < v.rows ∧ r < v.cols then opA w v o k r else Config.vtrnInactive v.rows v.cols r k (opA w v o k r)])
    (fun _ _ _ l => l.getD 0 0))

/-- VADD (R157). -/
def execVadd (c : Fin 64) (w : Word) (stall : BitVec 32) (s : State) : Host.Outcome State Fault Refusal :=
  .next (binaryInsn s c w stall 0x10 extAdd)

/-- VSUB (R157). -/
def execVsub (c : Fin 64) (w : Word) (stall : BitVec 32) (s : State) : Host.Outcome State Fault Refusal :=
  .next (binaryInsn s c w stall 0x11 (fun a b => extAdd a (extNeg b)))

/-- VMUL (R157). -/
def execVmul (c : Fin 64) (w : Word) (stall : BitVec 32) (s : State) : Host.Outcome State Fault Refusal :=
  .next (binaryInsn s c w stall 0x12 extMul)

/-- VFMA (R157). -/
def execVfma (c : Fin 64) (w : Word) (stall : BitVec 32) (s : State) : Host.Outcome State Fault Refusal :=
  .next (ternaryInsn s c w stall 0x13 (fun a b x => extAdd (extMul a b) x))

/-- VFNMA (R157). -/
def execVfnma (c : Fin 64) (w : Word) (stall : BitVec 32) (s : State) : Host.Outcome State Fault Refusal :=
  .next (ternaryInsn s c w stall 0x14 (fun a b x => extAdd x (extNeg (extMul a b))))

/-- VMAX (R158). -/
def execVmax (c : Fin 64) (w : Word) (stall : BitVec 32) (s : State) : Host.Outcome State Fault Refusal :=
  .next (binaryInsn s c w stall 0x15 extMax)

/-- VMIN (R158). -/
def execVmin (c : Fin 64) (w : Word) (stall : BitVec 32) (s : State) : Host.Outcome State Fault Refusal :=
  .next (binaryInsn s c w stall 0x16 extMin)

/-- VABS (R158). -/
def execVabs (c : Fin 64) (w : Word) (stall : BitVec 32) (s : State) : Host.Outcome State Fault Refusal :=
  .next (unaryInsn s c w stall 0x17 (fun rnd x => rnd (extAbs (decode32 x))))

/-- VRCP (R159). -/
def execVrcp (c : Fin 64) (w : Word) (stall : BitVec 32) (s : State) : Host.Outcome State Fault Refusal :=
  .next (unaryInsn s c w stall 0x18 (fun rnd x => elemFn rnd .rcp x))

/-- VSQRT (R159). -/
def execVsqrt (c : Fin 64) (w : Word) (stall : BitVec 32) (s : State) : Host.Outcome State Fault Refusal :=
  .next (unaryInsn s c w stall 0x19 (fun rnd x => elemFn rnd .sqrt x))

/-- VRSQRT (R159). -/
def execVrsqrt (c : Fin 64) (w : Word) (stall : BitVec 32) (s : State) : Host.Outcome State Fault Refusal :=
  .next (unaryInsn s c w stall 0x1A (fun rnd x => elemFn rnd .rsqrt x))

/-- VEXP (R159). -/
def execVexp (c : Fin 64) (w : Word) (stall : BitVec 32) (s : State) : Host.Outcome State Fault Refusal :=
  .next (unaryInsn s c w stall 0x1B (fun rnd x => elemFn rnd .exp x))

/-- VEXP2 (R159). -/
def execVexp2 (c : Fin 64) (w : Word) (stall : BitVec 32) (s : State) : Host.Outcome State Fault Refusal :=
  .next (unaryInsn s c w stall 0x1C (fun rnd x => elemFn rnd .exp2 x))

/-- VLOG2 (R159). -/
def execVlog2 (c : Fin 64) (w : Word) (stall : BitVec 32) (s : State) : Host.Outcome State Fault Refusal :=
  .next (unaryInsn s c w stall 0x1D (fun rnd x => elemFn rnd .log2 x))

/-- VTANH (R159). -/
def execVtanh (c : Fin 64) (w : Word) (stall : BitVec 32) (s : State) : Host.Outcome State Fault Refusal :=
  .next (unaryInsn s c w stall 0x1E (fun rnd x => elemFn rnd .tanh x))

/-- VERF (R159). -/
def execVerf (c : Fin 64) (w : Word) (stall : BitVec 32) (s : State) : Host.Outcome State Fault Refusal :=
  .next (unaryInsn s c w stall 0x1F (fun rnd x => elemFn rnd .erf x))

/-- VSEL (R163): the chosen operand's bits; a pair rounds to BF16. Whether an infinity arises in that rounding (R162) is decided by the
chosen operand alone (DESIGN CHOICE, log entry 38). -/
def execVsel (c : Fin 64) (w : Word) (stall : BitVec 32) (s : State) : Host.Outcome State Fault Refusal :=
  .next (tileInsn s c w stall 0x29 ⟨true, true, true, false, true⟩
    (fun v o r k => [if maskAt v (insC w) r k then opA w v o r k else opB w v o r k])
    (fun _ _ _ l => if insPrec w then rndBf16 (decode32 (l.getD 0 0)) else l.getD 0 0))

/-- VMASKF (R163). -/
def execVmaskf (c : Fin 64) (w : Word) (stall : BitVec 32) (s : State) : Host.Outcome State Fault Refusal :=
  .next (vecIssue s c w stall 0x2A
    (fun _ => formOk ⟨false, false, false, false, false⟩ w && decide (insA w ≤ 3)) (fun s =>
      let v := (cluster s c.val).vec
      setVec s c.val (tileResult v w (fun _ _ _ => [])
        (fun r k _ => if maskAt v (insA w) r k then 0x3F800000#32 else 0)).regs))

/-! ### Comparisons and masks -/

/-- R152, R153: a mask register written at the active elements. -/
def writeMask (s : State) (c d : Nat) (f : VecRegs → Nat → Nat → Bool) : State :=
  let v := (cluster s c).vec
  setVec s c ((activeCells v).foldl (fun x p => setMask x d p.1 p.2 (f v p.1 p.2)) v)

/-- A comparison of A and B (R160). -/
def compareInsn (s : State) (c : Fin 64) (w : Word) (stall : BitVec 32) (op : Nat) (rel : Ext → Ext → Bool) : State :=
  vecIssue s c w stall op (fun _ => formOk ⟨false, true, true, false, false⟩ w && decide (insD w ≤ 3)) (fun s =>
    writeMask s c.val (insD w) (fun v r k => rel (decode32 (opA w v 0 r k)) (decode32 (opB w v 0 r k))))

/-- VCMPLT (R160). -/
def execVcmplt (c : Fin 64) (w : Word) (stall : BitVec 32) (s : State) : Host.Outcome State Fault Refusal :=
  .next (compareInsn s c w stall 0x20 extLt)

/-- VCMPLE (R160). -/
def execVcmple (c : Fin 64) (w : Word) (stall : BitVec 32) (s : State) : Host.Outcome State Fault Refusal :=
  .next (compareInsn s c w stall 0x21 (fun a b => extLt a b || extEq a b))

/-- VCMPEQ (R160). -/
def execVcmpeq (c : Fin 64) (w : Word) (stall : BitVec 32) (s : State) : Host.Outcome State Fault Refusal :=
  .next (compareInsn s c w stall 0x22 extEq)

/-- VCMPUN (R160). -/
def execVcmpun (c : Fin 64) (w : Word) (stall : BitVec 32) (s : State) : Host.Outcome State Fault Refusal :=
  .next (compareInsn s c w stall 0x23 (fun a b => extIsNan a || extIsNan b))

/-- R154: the word of a mask instruction names mask registers only and holds no reserved bit. -/
def maskOk (w : Word) (usesB : Bool) : Bool :=
  !insPrec w && getBits w 0 28 == 0 && decide (insD w ≤ 3 ∧ insA w ≤ 3) && (!usesB || decide (insB w ≤ 3))

/-- A logical instruction of two masks. -/
def maskInsn (s : State) (c : Fin 64) (w : Word) (stall : BitVec 32) (op : Nat) (f : Bool → Bool → Bool) : State :=
  vecIssue s c w stall op (fun _ => maskOk w true) (fun s =>
    writeMask s c.val (insD w) (fun v r k => f (maskAt v (insA w) r k) (maskAt v (insB w) r k)))

/-- VMAND. -/
def execVmand (c : Fin 64) (w : Word) (stall : BitVec 32) (s : State) : Host.Outcome State Fault Refusal :=
  .next (maskInsn s c w stall 0x24 (fun a b => a && b))

/-- VMOR. -/
def execVmor (c : Fin 64) (w : Word) (stall : BitVec 32) (s : State) : Host.Outcome State Fault Refusal :=
  .next (maskInsn s c w stall 0x25 (fun a b => a || b))

/-- VMXOR. -/
def execVmxor (c : Fin 64) (w : Word) (stall : BitVec 32) (s : State) : Host.Outcome State Fault Refusal :=
  .next (maskInsn s c w stall 0x26 (fun a b => a != b))

/-- VMNOT. -/
def execVmnot (c : Fin 64) (w : Word) (stall : BitVec 32) (s : State) : Host.Outcome State Fault Refusal :=
  .next (vecIssue s c w stall 0x27 (fun _ => maskOk w false) (fun s =>
    writeMask s c.val (insD w) (fun v r k => !maskAt v (insA w) r k)))

/-- VMSET. -/
def execVmset (c : Fin 64) (w : Word) (stall : BitVec 32) (s : State) : Host.Outcome State Fault Refusal :=
  .next (vecIssue s c w stall 0x28 (fun _ => !insPrec w && getBits w 32 1 == 0 && decide (insD w ≤ 3)) (fun s =>
    writeMask s c.val (insD w) (fun _ _ _ => natBit w.toNat 0)))

/-! ### Reductions (R161) -/

/-- R161: the exact sum of the selected elements, rounded once. -/
def reduceSum (l : List F32) : F32 := sumTo32 .rne (exactSum (l.map decode32))

/-- R161: the greatest of the selected elements; −∞ of none. -/
def reduceMax (l : List F32) : F32 := rndFp32 (l.foldl (fun a x => extMax a (decode32 x)) (.inf true))

/-- R161: the selected elements of row r of T[n], or of column r. -/
def selected (v : VecRegs) (w : Word) (byRow : Bool) (i : Nat) : List F32 :=
  let cells := if byRow then (List.range v.cols).map (fun k => (i, k)) else (List.range v.rows).map (fun r => (r, i))
  (cells.filter (fun p => !insWm w || maskAt v (insWmr w) p.1 p.2)).map (fun p => tileAt v (insA w) p.1 p.2)

/-- A reduction into V[D] by rows, or into U[D] by columns. -/
def reduceInsn (s : State) (c : Fin 64) (w : Word) (stall : BitVec 32) (op : Nat) (byRow : Bool)
    (g : List F32 → F32) : State :=
  vecIssue s c w stall op
    (fun _ => formOk ⟨false, true, false, false, false⟩ w && decide (insD w ≤ 7)) (fun s =>
      let v := (cluster s c.val).vec
      let ix := List.range (if byRow then v.rows else v.cols)
      let put := fun x i => if byRow then setColVec x (insD w) i (g (selected v w byRow i))
        else setRowVec x (insD w) i (g (selected v w byRow i))
      countArisen (setVec s c.val (ix.foldl put v)) .vecNonfinite c.val
        (countWhere (fun i => let l := selected v w byRow i; arises (g l) l) ix))

/-- VRSUMR. -/
def execVrsumr (c : Fin 64) (w : Word) (stall : BitVec 32) (s : State) : Host.Outcome State Fault Refusal :=
  .next (reduceInsn s c w stall 0x30 true reduceSum)

/-- VRSUMC. -/
def execVrsumc (c : Fin 64) (w : Word) (stall : BitVec 32) (s : State) : Host.Outcome State Fault Refusal :=
  .next (reduceInsn s c w stall 0x31 false reduceSum)

/-- VRMAXR. -/
def execVrmaxr (c : Fin 64) (w : Word) (stall : BitVec 32) (s : State) : Host.Outcome State Fault Refusal :=
  .next (reduceInsn s c w stall 0x32 true reduceMax)

/-- VRMAXC. -/
def execVrmaxc (c : Fin 64) (w : Word) (stall : BitVec 32) (s : State) : Host.Outcome State Fault Refusal :=
  .next (reduceInsn s c w stall 0x33 false reduceMax)

end Sys2Proof.Machine
end

