-- ==== Sys2Proof/Machine/Row.lean ====
section
/-!
DEFINITION. The row engine (R169 to R183): its descriptor, its operations and the stat memory. An operation's outputs are
computed and written when it issues; its completion adds the DONE_TOKEN count (log entry 16).
-/
namespace Sys2Proof.Machine

/-! ### The descriptor -/

/-- R169: a row engine descriptor's fields; `rows` is the count. -/
structure RowDesc where
  op     : Nat
  inFmt  : Nat
  outFmt : Nat
  sr     : Bool
  rms    : Bool
  affine : Bool
  start  : Bool
  rows   : Nat
  valid  : Nat
  smax   : Bool
  k      : Nat
  tag    : Nat
  base   : Nat
  l      : Nat
  param  : F32
  tensor : Nat
  i0     : Nat
  len0   : BitVec 32
  token  : Nat
  addr   : Nat → Nat

/-- R169: a descriptor read. -/
def rowDesc (d : List Byte) : RowDesc :=
  let f := fun lo n => descBits d 0 lo n
  { op := f 0 4, inFmt := f 4 4, outFmt := f 8 4, sr := f 12 1 == 1, rms := f 13 1 == 1, affine := f 14 1 == 1
    start := f 15 1 == 1, rows := f 16 5 + 1, valid := f 21 2, smax := f 23 1 == 1, k := f 24 3 + 1, tag := f 32 16
    base := f 48 14, l := descBits d 8 0 17, param := BitVec.ofNat 32 (fieldLe d 12 4), tensor := fieldLe d 16 4
    i0 := fieldLe d 20 4, len0 := BitVec.ofNat 32 (fieldLe d 24 4), token := fieldLe d 28 1 % 64
    addr := fun a => fieldLe d (32 + 4 * a) 3 }

/-- R180: stat entries per row; SMAX_BWD uses none. -/
def statPerRow (op : Nat) : Nat := if op = 5 then 0 else if 6 ≤ op then 4 else 1

/-- R170: the addresses an operation uses, as (a, alignment). -/
def rowAddrs (x : RowDesc) : List (Nat × Nat) :=
  let len := if x.valid = 2 then [(4, 4)] else []
  match x.op with
  | 0 => [(0, 256), (1, 256)] ++ (if x.affine then [(2, 4), (3, 4)] else []) ++ len
  | 1 => [(0, 256), (1, 256), (2, 256)] ++ (if x.affine then [(3, 4), (5, 4)] else []) ++ len
  | 2 => [(0, 256), (1, 256)] ++ len
  | 3 => [(0, 256), (1, 256), (2, 4)] ++ len
  | 4 => [(1, 4)]
  | 5 => [(0, 256), (1, 256), (2, 256)] ++ len
  | 6 => [(0, 256), (1, 4), (2, 4)] ++ len
  | _ => [(1, 256), (2, 4)]

/-- R169, R177: the lowest faulty byte offset of a descriptor. -/
def rowFault (d : List Byte) : Option Nat :=
  let x := rowDesc d
  let reads := decide (x.op ≠ 4 ∧ x.op ≠ 7)
  let writes := decide (x.op ≠ 4 ∧ x.op ≠ 6)
  lowestBad (
    [(decide (7 < x.op), 0), (reads && decide (2 < x.inFmt), 0), (writes && decide (2 < x.outFmt), 1),
      (reads && x.valid == 3, 2), (decide (16384 < x.base + x.rows * statPerRow x.op), 2), (descBits d 0 27 5 != 0, 3),
      (descBits d 0 62 2 != 0, 7), (x.op != 4 && (x.l == 0 || decide (65536 < x.l)), 8), (descBits d 8 17 15 != 0, 10),
      (decide (64 ≤ fieldLe d 28 1), 28), (!zeroBytes d 29 3, 29), (!zeroBytes d 56 8, 56)]
    ++ (List.range 6).map (fun a => (fieldLe d (35 + 4 * a) 1 != 0, 35 + 4 * a))
    ++ (rowAddrs x).map (fun p => (x.addr p.1 % p.2 != 0, 32 + 4 * p.1)))

/-! ### Exact expressions (R172) -/

/-- R172: an exact sum; a zero sum is +0. -/
def xSum (l : List Ext) : Ext :=
  match exactSum l with
  | .nan => .nan
  | .inf s => .inf s
  | .fin x => extOfFrac x

/-- R172: an exact difference. -/
def xSub (a b : Ext) : Ext := xSum [a, extNeg b]

/-- R172: an exact quotient in extended-real arithmetic. -/
def xDiv (a b : Ext) : Ext :=
  match a, b with
  | .nan, _ => .nan
  | _, .nan => .nan
  | .inf _, .inf _ => .nan
  | .inf s, .fin t _ _ => .inf (s ^^ t)
  | .fin s _ _, .inf t => .fin (s ^^ t) 0 1
  | .fin s n d, .fin t m e => if m = 0 then (if n = 0 then .nan else .inf (s ^^ t)) else .fin (s ^^ t) (n * e) (d * m)

/-- A natural number as a value. -/
def xNat (n : Nat) : Ext := .fin false n 1

/-- R172: 1 / √v, rounded once. -/
def roundRsqrt (v : Ext) : F32 :=
  match v with
  | .nan => nan32
  | .inf s => if s then nan32 else 0
  | .fin s n d =>
    if n = 0 then rndFp32 (.inf false)
    else if s then nan32
    else settle rndFp32 (fun p => sqrtBounds d n p) 8 (rndFp32 v) precisions

/-- Bounds of exp of a fraction; exactly 1 at 0. -/
def expAt (x : Frac) (p : Nat) : Frac × Frac := if x.num = 0 then (fracOfInt 1, fracOfInt 1) else expBounds x p

/-- R172: exp(v), rounded once. -/
def roundExp (v : Ext) : F32 :=
  match v with
  | .nan => nan32
  | .inf s => if s then 0 else rndFp32 (.inf false)
  | .fin s n d => settle rndFp32 (expAt (extFrac (.fin s n d))) 9 (rndFp32 v) precisions

/-- R172: a × exp(v) + b, rounded once. -/
def roundScaledExp (a v b : Ext) : F32 :=
  match a, v, b with
  | .fin _ _ _, .fin _ _ _, .fin _ _ _ =>
    if extIsZero a then rndFp32 (xSum [a, b])
    else
      let lin := fun (x : Frac) => fracAdd (fracMul (extFrac a) x) (extFrac b)
      settle rndFp32 (fun p =>
        let e := expAt (extFrac v) p
        if extNegative a then (lin e.2, lin e.1) else (lin e.1, lin e.2)) 10 (rndFp32 v) precisions
  | _, .fin _ _ _, _ => rndFp32 (xSum [a, b])
  | _, .inf s, _ => rndFp32 (xSum [extMul a (if s then extZero else .inf false), b])
  | _, .nan, _ => nan32

/-- The exact sum of the lower, and of the upper, bounds of exp over a list. -/
def expSum (l : List Frac) (p : Nat) : Frac × Frac :=
  l.foldl (fun a x => let e := expAt x p; (fracAdd a.1 e.1, fracAdd a.2 e.2)) (⟨0, 1⟩, ⟨0, 1⟩)

/-- R172: exp(v) / Σ exp over `all`, rounded once; −∞ among them counts 0. -/
def roundShare (v : Ext) (all : List Ext) : F32 :=
  if (v :: all).any (fun x => extIsNan x || (extIsInf x && !extNegative x)) then nan32
  else
    match v with
    | .fin s n d =>
      let fs := (all.filter extIsFin).map extFrac
      settle rndFp32 (fun p =>
        let e := expAt (extFrac (.fin s n d)) p
        let t := expSum fs p
        (fracDiv e.1 t.2, fracDiv e.2 t.1)) 11 (rndFp32 v) precisions
    | .inf _ => 0
    | .nan => nan32

/-! ### Inputs -/

/-- R171: the valid columns of row r. -/
def validCols (s : State) (c : Nat) (x : RowDesc) (r : Nat) : Nat :=
  let clamp := fun (n : Int) => (max 0 (min n (x.l : Int))).toNat
  match x.valid with
  | 1 => clamp (x.len0.toInt + r)
  | 2 => clamp (BitVec.ofNat 32 (fieldLe (storeBytes s c (x.addr 4 + 4 * r) 4) 0 4)).toInt
  | _ => x.l

/-- Element (r, k) of a block row of FP32, BF16 or FP16. -/
def rowElem (s : State) (c fmt base r k : Nat) : Ext :=
  let f := fmtOf fmt
  let n := fmtBits f / 8
  elemDecode f (fieldLe (storeBytes s c (base + k / 32 * blockBytes f + n * (32 * r + k % 32)) n) 0 n)

/-- The valid elements of row r of the area at an address. -/
def rowInput (s : State) (c : Nat) (x : RowDesc) (a r : Nat) : List Ext :=
  (List.range (validCols s c x r)).map (rowElem s c x.inFmt (x.addr a) r)

/-- Entry k of an FP32 vector, or a default where the operation does not use it. -/
def vecEntry (s : State) (c : Nat) (used : Bool) (dflt : Ext) (base k : Nat) : Ext :=
  if used then decode32 (storeF32 s c (base + 4 * k)) else dflt

/-- What a stat entry holds that the table does not list: 0, or free bytes after a fault (R455). -/
def unlistedStat (free : Option Nat) (i : Nat) : List Byte :=
  match free with
  | some n => (List.range 16).map (fun b => Config.freeByte (n + 16 * i + b))
  | none => List.replicate 16 0

/-- R180: a stat entry. -/
def statEntry (v : Cluster) (i : Nat) : List Byte := mapGet (unlistedStat v.statFree) v.stat i

/-- R180: a stat entry written. -/
def setStat (i : Nat) (e : List Byte) (v : Cluster) : Cluster :=
  { v with stat := if v.statFree.isSome then mapInsert v.stat i e else mapSet (fun _ => List.replicate 16 0) v.stat i e }

/-- R181: the entry's KIND and tag match. -/
def statMatches (e : List Byte) (kind tag : Nat) : Bool := fieldLe e 10 1 == kind && fieldLe e 8 2 == tag

/-- The two FP32 words of an entry. -/
def statWord (e : List Byte) (i : Nat) : F32 := BitVec.ofNat 32 (fieldLe e (4 * i) 4)

/-- R180: an entry of two words. -/
def pairEntry (kind tag : Nat) (a b : F32) : List Byte :=
  leBytes 4 a.toNat ++ leBytes 4 b.toNat ++ leBytes 2 tag ++ [BitVec.ofNat 8 kind, 0, 0, 0, 0, 0]

/-! ### Results -/

/-- What one row gives: its main outputs at the valid columns, each with whether its operands are all finite; FP32 words and
integers written at store offsets; its stat entries; and whether its entry failed the check of R181. -/
structure RowPart where
  main  : List (F32 × Bool)
  words : List (Nat × F32 × Bool)
  ints  : List (Nat × Nat)
  stats : List (Nat × List Byte)
  bad   : Bool

/-- A row that gives nothing. -/
def RowPart.empty : RowPart := ⟨[], [], [], [], false⟩

/-- Every value of a list is finite. -/
def allFinite (l : List Ext) : Bool := l.all extIsFin

/-- R181: the outputs of a row whose entry fails the check. -/
def nanRow (n : Nat) (words : List Nat) : RowPart :=
  ⟨List.replicate n (nan32, true), words.map (fun a => (a, nan32, true)), [], [], true⟩

/-- NORM_FWD of row r (R172, R173). -/
def normFwdRow (s : State) (c : Nat) (x : RowDesc) (r : Nat) : RowPart :=
  let xs := rowInput s c x 0 r
  let n := xs.length
  if n = 0 then { RowPart.empty with stats := [(x.base + r, pairEntry 1 x.tag 0 0)] }
  else
    let mu := if x.rms then 0 else rndFp32 (xDiv (xSum xs) (xNat n))
    let d := fun v => xSub v (decode32 mu)
    let var := xDiv (xSum (xs.map (fun v => extMul (d v) (d v)))) (xNat n)
    let rstd := roundRsqrt (xSum [var, decode32 x.param])
    let g := vecEntry s c x.affine (xNat 1) (x.addr 2)
    let b := vecEntry s c x.affine extZero (x.addr 3)
    let fin := allFinite (decode32 x.param :: xs)
    { RowPart.empty with
      main := xs.mapIdx (fun k v => (rndFp32 (xSum [extMul (extMul (d v) (decode32 rstd)) (g k), b k]),
        fin && extIsFin (g k) && extIsFin (b k)))
      stats := [(x.base + r, pairEntry 1 x.tag mu rstd)] }

/-- R172: x̂ of the valid columns of row r in NORM_BWD; NaN where the entry fails the check. -/
def xHat (s : State) (c : Nat) (x : RowDesc) (r : Nat) : List Ext :=
  let e := statEntry (cluster s c) (x.base + r)
  if !statMatches e 1 x.tag then (rowInput s c x 0 r).map (fun _ => .nan)
  else (rowInput s c x 0 r).map (fun v =>
    decode32 (rndFp32 (extMul (xSub v (decode32 (statWord e 0))) (decode32 (statWord e 1)))))

/-- NORM_BWD of row r, its DX (R172). -/
def normBwdRow (s : State) (c : Nat) (x : RowDesc) (r : Nat) : RowPart :=
  let e := statEntry (cluster s c) (x.base + r)
  let xs := rowInput s c x 0 r
  let dys := rowInput s c x 2 r
  let n := xs.length
  if !statMatches e 1 x.tag then nanRow n []
  else
    let rstd := decode32 (statWord e 1)
    let hat := xHat s c x r
    let gam := vecEntry s c x.affine (xNat 1) (x.addr 3)
    let gs := dys.mapIdx (fun k v => decode32 (rndFp32 (extMul v (gam k))))
    let a := if x.rms then extZero else decode32 (rndFp32 (xDiv (xSum gs) (xNat n)))
    let b := decode32 (rndFp32 (xDiv (xSum (List.zipWith extMul gs hat)) (xNat n)))
    let fin := allFinite (xs ++ dys ++ [decode32 (statWord e 0), rstd] ++ (List.range n).map gam)
    { RowPart.empty with
      main := List.zipWith (fun g h => (rndFp32 (extMul rstd (xSum [g, extNeg a, extNeg (extMul h b)])), fin)) gs hat }

/-- R172: DG and DB of column k, over the rows in which it is valid. A row whose entry fails the check of R181 has a NaN x̂, so DG is NaN at
its valid columns, and DB, which reads no entry, is not (DEDUCED, log entry 39). -/
def gammaGrad (s : State) (c : Nat) (x : RowDesc) (k : Nat) : List (Nat × F32 × Bool) :=
  let rows := (List.range x.rows).filter (fun r => decide (k < validCols s c x r))
  let dys := rows.map (fun r => rowElem s c x.inFmt (x.addr 2) r k)
  let hats := rows.map (fun r => (xHat s c x r).getD k .nan)
  let ins := rows.map (fun r => rowElem s c x.inFmt (x.addr 0) r k)
  let sts := rows.flatMap (fun r =>
    let e := statEntry (cluster s c) (x.base + r)
    [decode32 (statWord e 0), decode32 (statWord e 1)])
  let dbAt := x.addr 5 + 128 * ((x.l + 31) / 32)
  [(x.addr 5 + 4 * k, rndFp32 (xSum (List.zipWith extMul dys hats)), allFinite (dys ++ ins ++ sts)),
    (dbAt + 4 * k, rndFp32 (xSum dys), allFinite dys)]

/-- R172: the maximum of a list, −∞ of none. -/
def maxOf (l : List Ext) : Ext := l.foldl extMax (.inf true)

/-- A value is −∞. -/
def isNegInf (v : Ext) : Bool := extIsInf v && extNegative v

/-- R172, R173: exp(z − m) of each z; +0 when m is −∞. -/
def expRow (zs : List Ext) (m : Ext) : List F32 := zs.map (fun z => if isNegInf m then 0 else roundExp (xSub z m))

/-- R172: z of the valid columns of row r. -/
def zRow (s : State) (c : Nat) (x : RowDesc) (r : Nat) : List Ext :=
  (rowInput s c x 0 r).map (fun v => extMul (decode32 x.param) v)

/-- SMAX_FWD of row r (R172, R173). -/
def smaxFwdRow (s : State) (c : Nat) (x : RowDesc) (r : Nat) : RowPart :=
  let zs := zRow s c x r
  let m := rndFp32 (maxOf zs)
  let es := expRow zs (decode32 m)
  let sum := rndFp32 (xSum (es.map decode32))
  let fin := allFinite (decode32 x.param :: rowInput s c x 0 r)
  { RowPart.empty with
    main := es.map (fun e => (rndFp32 (xDiv (decode32 e) (decode32 sum)), fin))
    stats := [(x.base + r, pairEntry 2 x.tag m sum)] }

/-- SMAX_ACC of row r (R172, R173); an empty entry, and with START every entry, reads as (−∞, +0). -/
def smaxAccRow (s : State) (c : Nat) (x : RowDesc) (r : Nat) : RowPart :=
  let e := statEntry (cluster s c) (x.base + r)
  let zs := zRow s c x r
  let fact := x.addr 2 + 4 * r
  let empty := x.start || fieldLe e 10 1 == 0
  if !empty && !statMatches e 2 x.tag then nanRow zs.length [fact]
  else
    let mo := if empty then .inf true else decode32 (statWord e 0)
    let so := if empty then extZero else decode32 (statWord e 1)
    let m := rndFp32 (extMax mo (maxOf zs))
    let me := decode32 m
    let ps := expRow zs me
    let arg := if isNegInf me then extZero else xSub mo me
    let f := roundExp arg
    let sum := roundScaledExp so arg (xSum (ps.map decode32))
    let fin := allFinite (decode32 x.param :: rowInput s c x 0 r)
    { RowPart.empty with
      main := ps.map (fun p => (p, fin && (empty || extIsFin mo))), words := [(fact, f, fin && extIsFin mo)]
      stats := [(x.base + r, pairEntry 2 x.tag m sum)] }

/-- SMAX_FIN of row r (R172). -/
def smaxFinRow (s : State) (c : Nat) (x : RowDesc) (r : Nat) : RowPart :=
  let e := statEntry (cluster s c) (x.base + r)
  let at_ := x.addr 1 + 4 * r
  if !statMatches e 2 x.tag then nanRow 0 [at_]
  else
    let v := decode32 (statWord e 1)
    { RowPart.empty with
      words := [(at_, if extIsZero v then 0 else rndFp32 (xDiv (xNat 1) v), extIsFin v)] }

/-- SMAX_BWD of row r (R172). -/
def smaxBwdRow (s : State) (c : Nat) (x : RowDesc) (r : Nat) : RowPart :=
  let ys := rowInput s c x 0 r
  let dys := rowInput s c x 2 r
  let t := decode32 (rndFp32 (xSum (List.zipWith extMul dys ys)))
  let fin := allFinite (ys ++ dys)
  { RowPart.empty with main := List.zipWith (fun y dy => (rndFp32 (extMul y (xSub dy t)), fin)) ys dys }

/-! ### Top-k -/

/-- R178: (column, z) `a` ranks before `b`. -/
def ranksBefore (a b : Nat × Ext) : Bool :=
  if extIsNan a.2 || extIsNan b.2 then
    (if extIsNan a.2 && extIsNan b.2 then decide (a.1 < b.1) else extIsNan b.2)
  else extLt b.2 a.2 || (!extLt a.2 b.2 && decide (a.1 < b.1))

/-- One column entered into a list in rank order. -/
def rankInsert (a : Nat × Ext) : List (Nat × Ext) → List (Nat × Ext)
  | [] => [a]
  | b :: t => if ranksBefore a b then a :: b :: t else b :: rankInsert a t

/-- R178: the first k columns by rank. -/
def topK (k : Nat) (zs : List Ext) : List (Nat × Ext) :=
  ((zs.mapIdx (fun i z => (i, z))).foldl (fun l a => (rankInsert a l).take k) [])

/-- R180: the four stat entries of a TOPK record. -/
def topkEntries (x : RowDesc) (idx : List Nat) (w : List F32) : List (List Byte) :=
  [[BitVec.ofNat 8 x.k, BitVec.ofNat 8 (boolNat x.smax), BitVec.ofNat 8 idx.length, 0, 0, 0, 0, 0]
      ++ leBytes 2 x.tag ++ [3, 0, 0, 0, 0, 0],
    (List.range 8).flatMap (fun m => leBytes 2 (idx.getD m 0)),
    (List.range 4).flatMap (fun m => leBytes 4 (w.getD m 0).toNat),
    (List.range 4).flatMap (fun m => leBytes 4 (w.getD (4 + m) 0).toNat)]

/-- TOPK_FWD of row r (R172, R178, R179). -/
def topkFwdRow (s : State) (c : Nat) (x : RowDesc) (r : Nat) : RowPart :=
  let xs := rowInput s c x 0 r
  let sel := topK x.k (zRow s c x r)
  let z0 := (sel.map (·.2)).getD 0 .nan
  let args := sel.map (fun p => xSub p.2 z0)
  let idx := sel.map (·.1)
  let w := sel.map (fun p => if x.smax then roundShare (xSub p.2 z0) args else rndFp32 p.2)
  let fin := fun (m : Nat) =>
    if x.smax then allFinite (decode32 x.param :: idx.map (fun i => xs.getD i .nan))
    else allFinite [decode32 x.param, xs.getD (idx.getD m 0) .nan]
  { RowPart.empty with
    ints := (List.range 8).map (fun m => (x.addr 1 + 32 * r + 4 * m, idx.getD m 0xFFFFFFFF))
    words := (List.range 8).map (fun m => (x.addr 2 + 32 * r + 4 * m, w.getD m 0, fin m))
    stats := (topkEntries x idx w).mapIdx (fun i e => (x.base + 4 * r + i, e)) }

/-- TOPK_BWD of row r (R172): it covers every column. -/
def topkBwdRow (s : State) (c : Nat) (x : RowDesc) (r : Nat) : RowPart :=
  let v := cluster s c
  let h := statEntry v (x.base + 4 * r)
  if !statMatches h 3 x.tag then nanRow x.l []
  else
    let n := min 8 (fieldLe h 2 1)
    let idx := (List.range n).map (fun m => fieldLe (statEntry v (x.base + 4 * r + 1)) (2 * m) 2)
    let w := (List.range n).map (fun m => decode32 (statWord (statEntry v (x.base + 4 * r + 2 + m / 4)) (m % 4)))
    let dw := (List.range n).map (fun m => decode32 (storeF32 s c (x.addr 2 + 32 * r + 4 * m)))
    let smax := natBit (fieldLe h 1 1) 0
    let t := decode32 (rndFp32 (xSum (List.zipWith extMul w dw)))
    let dv := List.zipWith (fun a b => if smax then rndFp32 (extMul a (xSub b t)) else rndFp32 b) w dw
    let fin := allFinite (w ++ dw)
    { RowPart.empty with
      main := (List.range x.l).map (fun k =>
        match idx.findIdx? (fun i => i == k) with
        | some m => (dv.getD m 0, if smax then fin else extIsFin (dw.getD m .nan))
        | none => (0, true)) }

/-! ### Operations -/

/-- The row results of an operation. -/
def rowPart (s : State) (c : Nat) (x : RowDesc) (r : Nat) : RowPart :=
  match x.op with
  | 0 => normFwdRow s c x r
  | 1 => normBwdRow s c x r
  | 2 => smaxFwdRow s c x r
  | 3 => smaxAccRow s c x r
  | 4 => smaxFinRow s c x r
  | 5 => smaxBwdRow s c x r
  | 6 => topkFwdRow s c x r
  | _ => topkBwdRow s c x r

/-- R170: an operation has a main output area of element blocks. -/
def hasMain (op : Nat) : Bool := op != 4 && op != 6

/-- R174: the code of the main output at (r, k). -/
def mainCode (s : State) (c : Nat) (x : RowDesc) (r k : Nat) (y : F32) : Nat :=
  encodePlain (fmtOf x.outFmt) (convMode x.sr (clusterSeed s c) x.tensor ((x.i0 + r) % 2 ^ 32) k) false (decode32 y)

/-- R171, R174: row r of the main output written: +0 at invalid columns. The positions of the last block past column L - 1 are no columns of
the operation and stay as they are (DESIGN CHOICE, log entry 39). -/
def writeMain (s : State) (c : Nat) (x : RowDesc) (r : Nat) (codes : List Nat) : State :=
  let f := fmtOf x.outFmt
  let n := fmtBits f / 8
  (List.range ((x.l + 31) / 32)).foldl (fun s b =>
    putStore s c (x.addr 1 + b * blockBytes f + n * 32 * r)
      ((List.range (min 32 (x.l - 32 * b))).flatMap (fun q => leBytes n (codes.getD (32 * b + q) 0)))) s

/-- R181: a failed stat check counted and reported. -/
def statMismatch (s : State) (c : Nat) : State :=
  raiseEvent (setFlag (count s .rowStatMismatch (c / 16) (c % 16)) .rowStatus (c / 16) (c % 16) 9) (clusterSrc c)

/-- A row's FP32 and integer outputs written. -/
def writeWords (s : State) (c : Nat) (words : List (Nat × F32 × Bool)) (ints : List (Nat × Nat)) : State :=
  let s := words.foldl (fun s w => putStore s c w.1 (leBytes 4 w.2.1.toNat)) s
  ints.foldl (fun s w => putStore s c w.1 (leBytes 4 w.2)) s

/-- FP32 outputs that arose non-finite (R175). -/
def arisenWords (l : List (Nat × F32 × Bool)) : Nat := countWhere (fun w => f32NonFinite w.2.1 && w.2.2) l

/-- The stat entries a failed SMAX_ACC row leaves: values the spec does not state (log entry 17). -/
def undefinedStat (s : State) (c : Nat) (x : RowDesc) (r : Nat) : State :=
  modCluster s c (fun v =>
    let w := Config.failedStat x.tag r (statEntry v (x.base + r))
    setStat (x.base + r) (pairEntry 2 x.tag (w 0) (w 1)) v)

/-- R172 to R181: the results of one row, computed from `s0`, take effect. Its outputs count as they arose, before their conversion, which
counts none (R83; log entry 73). -/
def applyRow (s0 : State) (c : Nat) (x : RowDesc) (s : State) (r : Nat) : State :=
  let p := rowPart s0 c x r
  let codes := p.main.mapIdx (fun k y => mainCode s0 c x r k y.1)
  let s := if hasMain x.op then writeMain s c x r codes else s
  let s := writeWords s c p.words p.ints
  let s := p.stats.foldl (fun s e => modCluster s c (setStat e.1 e.2)) s
  let arisen := countWhere (fun (y : F32 × Bool) => f32NonFinite y.1 && y.2) p.main
  let s := countArisen s .rowNonfinite c (arisen + arisenWords p.words)
  if p.bad then
    let s := statMismatch s c
    if x.op = 3 then undefinedStat s c x r else s
  else s

/-- R172: DG and DB written. -/
def applyGamma (s0 s : State) (c : Nat) (x : RowDesc) : State :=
  if x.op = 1 ∧ x.affine = true then
    let w := (List.range x.l).flatMap (gammaGrad s0 c x)
    countArisen (writeWords s c w []) .rowNonfinite c (arisenWords w)
  else s

/-- R176: the issue cycles of an operation. -/
def rowCycles (x : RowDesc) : Nat :=
  let p := if x.op = 0 ∨ x.op = 2 ∨ x.op = 3 then 3 else if x.op = 7 then 1 else 2
  if x.op = 4 then x.rows else p * x.rows * ((x.l + 31) / 32)

/-- R177: a descriptor fault recorded. -/
def rowDescFault (s : State) (c o : Nat) : State :=
  faultWith s c .badParam (0x2200 + o) (fun s =>
    setField (setFlag s .rowStatus (c / 16) (c % 16) 8) .rowStatus (c / 16) (c % 16) 16 8 o)

/-- The store areas of the rows of an area of element blocks. -/
def mainAreas (c : Nat) (x : RowDesc) (fmt base : Nat) : List (Nat × Nat) :=
  let f := fmtOf fmt
  (List.range ((x.l + 31) / 32)).flatMap (fun b => storeAreas c (base + b * blockBytes f) (fmtBits f / 8 * 32 * x.rows))

/-- R170: the store areas that an operation reads. -/
def rowReads (c : Nat) (x : RowDesc) : List (Nat × Nat) :=
  let main := fun a => mainAreas c x x.inFmt (x.addr a)
  let vec := fun a => if x.affine then storeAreas c (x.addr a) (4 * x.l) else []
  let len := if x.valid = 2 then storeAreas c (x.addr 4) (4 * x.rows) else []
  match x.op with
  | 0 => main 0 ++ vec 2 ++ vec 3 ++ len
  | 1 => main 0 ++ main 2 ++ vec 3 ++ len
  | 4 => []
  | 5 => main 0 ++ main 2 ++ len
  | 7 => storeAreas c (x.addr 2) (32 * x.rows)
  | _ => main 0 ++ len

/-- R170: the store areas that an operation writes. -/
def rowWritten (c : Nat) (x : RowDesc) : List (Nat × Nat) :=
  (if hasMain x.op then mainAreas c x x.outFmt (x.addr 1) else []) ++
  (match x.op with
    | 1 => if x.affine then storeAreas c (x.addr 5) (4 * x.l) ++ storeAreas c (x.addr 5 + 128 * ((x.l + 31) / 32)) (4 * x.l) else []
    | 3 => storeAreas c (x.addr 2) (4 * x.rows)
    | 4 => storeAreas c (x.addr 1) (4 * x.rows)
    | 6 => storeAreas c (x.addr 1) (32 * x.rows) ++ storeAreas c (x.addr 2) (32 * x.rows)
    | _ => [])

/-- R170 to R181: the effect of an operation, whose rows read the state it issues in. -/
def runRows (s : State) (c : Nat) (x : RowDesc) : State :=
  applyGamma s ((List.range x.rows).foldl (applyRow s c x) s) c x

/-- ROP (R201, R177): an operation whose descriptor names `op` issues. -/
def ropIssue (s : State) (c : Fin 64) (w : Word) (op : Nat) : State :=
  issue s c.val 2 w (fun o => o == 1) (fun s =>
    let addr := descAddr (stream (cluster s c.val) 2) w
    if !reservedZero w [(42, 38), (23, 0)] || decide (15 < getBits w 38 5) || addr % 64 != 0 then
      streamFault s c.val 2
    else
      let r := (readDesc s c.val 2 (rowKey c.val) addr 64).2
      let d := storeBytes r c.val addr 64
      match rowFault d with
      | some o => rowDescFault r c.val o
      | none =>
        let x := rowDesc d
        if x.op ≠ op then s
        else
          let u := newUse r (rowKey c.val) (knownTo r (streamKey c.val 2))
          let s := u.2
          let t := touchStore (runRows (touchStore s u.1 false (rowReads c.val x)) c.val x) u.1 true (rowWritten c.val x)
          let t := count t .rowActive (c.val / 16) (c.val % 16) (rowCycles x)
          passWord (modCluster t c.val (fun v => { v with rowOps := v.rowOps ++ [⟨x.token, u.1.done⟩] })) c.val 2)

/-- NORM_FWD. -/
def execNormFwd (c : Fin 64) (w : Word) (s : State) : Host.Outcome State Fault Refusal := .next (ropIssue s c w 0)
/-- NORM_BWD. -/
def execNormBwd (c : Fin 64) (w : Word) (s : State) : Host.Outcome State Fault Refusal := .next (ropIssue s c w 1)
/-- SMAX_FWD. -/
def execSmaxFwd (c : Fin 64) (w : Word) (s : State) : Host.Outcome State Fault Refusal := .next (ropIssue s c w 2)
/-- SMAX_ACC. -/
def execSmaxAcc (c : Fin 64) (w : Word) (s : State) : Host.Outcome State Fault Refusal := .next (ropIssue s c w 3)
/-- SMAX_FIN. -/
def execSmaxFin (c : Fin 64) (w : Word) (s : State) : Host.Outcome State Fault Refusal := .next (ropIssue s c w 4)
/-- SMAX_BWD. -/
def execSmaxBwd (c : Fin 64) (w : Word) (s : State) : Host.Outcome State Fault Refusal := .next (ropIssue s c w 5)
/-- TOPK_FWD. -/
def execTopkFwd (c : Fin 64) (w : Word) (s : State) : Host.Outcome State Fault Refusal := .next (ropIssue s c w 6)
/-- TOPK_BWD. -/
def execTopkBwd (c : Fin 64) (w : Word) (s : State) : Host.Outcome State Fault Refusal := .next (ropIssue s c w 7)

/-- ROW_OP_COMPLETE (R176): the oldest issued operation adds its DONE_TOKEN count. -/
def execRowOpComplete (c : Fin 64) (s : State) : Host.Outcome State Fault Refusal :=
  .next (
    let v := cluster s c.val
    match v.rowOps with
    | [] => s
    | o :: rest =>
      let l := joinKnown o.knows (knownTo s (rowKey c.val))
      let s := count (setCluster s c.val { v with rowOps := rest }) .rowOps (c.val / 16) (c.val % 16)
      settleCluster (signalToken (learn s (rowKey c.val) l) c.val o.token 1 2 l) c.val)

end Sys2Proof.Machine
end

