-- ==== Sys2Proof/Machine/Move.lean ====
section
/-!
DEFINITION. The data mover (R203, R205 to R210) and the doorbell of the exchange engines (R242, R243, R245). A MOVE reads and
writes when it issues; its completion adds its counts (log entry 18).
-/
namespace Sys2Proof.Machine

/-! ### The doorbell -/

/-- The exchange engine of a tile. -/
def exchEngine (s : State) (t : Nat) : ExchEngine := mapGet (fun _ => ExchEngine.reset) s.exch t

/-- A tile's exchange engine replaced. -/
def setExch (s : State) (t : Nat) (e : ExchEngine) : State :=
  { s with exch := mapSet (fun _ => ExchEngine.reset) s.exch t e }

/-- R245: a request enters a tile's queue of 256, or is held behind it. -/
def pushRequest (s : State) (t : Nat) (r : ExchReq) : State :=
  let e := exchEngine s t
  setExch s t (if e.queue.length < 256 ∧ e.held = [] then { e with queue := e.queue ++ [r] } else { e with held := e.held ++ [r] })

/-- The doorbell line address of a partition. -/
def doorbellOf (s : State) (p : Nat) : Option Nat :=
  let w := getReg s .expPartDoorbell 0 p
  if natBit w.toNat 63 then some (getBits w 0 44) else none

/-- R242: a cluster's MOVE writes its partition's whole doorbell line: the home stores it and passes one request. -/
def ringDoorbell (s : State) (c : Nat) (move : Option Nat) (a : Nat) (data : List Byte) : State :=
  let v := cluster s c
  let t := storeLine s (waysOf s (some v.partition)) a data
  if (writeLost t a 128).isSome then t
  else pushRequest t (homeOf s a) ⟨c, move, data, v.run, v.slice, v.rank, v.partition, clusterSeed s c⟩

/-! ### The descriptor -/

/-- R205, R206: the fields of a MOVE descriptor, after the bias. -/
structure MoveDesc where
  kind   : Nat
  dir    : Nat
  remEn  : Bool
  done   : Nat
  rem    : Nat
  peer   : Nat
  len    : Nat
  count  : Nat
  mem    : Nat
  memStride : Nat
  store  : Nat
  storeStride : Nat
  list   : Nat
  scale  : Nat
  scaleStride : Nat
  meta_  : Nat
  metaStride : Nat
  mask   : Nat
  maskBit : Nat
  maskStep : Nat
  elemLen : Nat
  scaled : Bool
  sparse : Bool
  deriving DecidableEq, Repr

/-- R205, R206: a descriptor read, `b` and `x` the scalars S[B] and S[C] of a biased MOVE, 0 without BIAS. -/
def moveDesc (d : List Byte) (b x : Nat) : MoveDesc :=
  let dir := fieldLe d 0 1 / 16 % 4
  let a44 := fun o => fieldLe d o 8 % 2 ^ 44
  { kind := fieldLe d 0 1 % 16, dir := dir, remEn := natBit (fieldLe d 0 1) 6, done := fieldLe d 1 1 % 64
    rem := fieldLe d 2 1 % 64, peer := fieldLe d 3 1 % 64, len := fieldLe d 4 3, count := fieldLe d 8 3
    mem := (a44 16 + b * a44 104) % (if 2 ≤ dir then 2 ^ 24 else 2 ^ 44), memStride := fieldLe d 24 5
    store := (fieldLe d 32 3 + x) % 2 ^ 24, storeStride := fieldLe d 36 3, list := fieldLe d 40 3
    scale := (a44 48 + b * fieldLe d 112 4) % 2 ^ 44, scaleStride := fieldLe d 56 4
    meta_ := (a44 64 + b * fieldLe d 116 4) % 2 ^ 44, metaStride := fieldLe d 72 4
    mask := a44 80, maskBit := (fieldLe d 88 4 + b * fieldLe d 120 4) % 2 ^ 32, maskStep := fieldLe d 92 4
    elemLen := fieldLe d 96 3, scaled := natBit (fieldLe d 100 1) 0, sparse := natBit (fieldLe d 100 1) 1 }

/-- R205: the reserved fields of a descriptor. -/
def moveReserved (d : List Byte) : List (Bool × Nat) :=
  let hi44 := fun o => (fieldLe d (o + 5) 1 / 16 != 0 || !zeroBytes d (o + 6) 2, o + 5)
  [(natBit (fieldLe d 0 1) 7, 0), (decide (64 ≤ fieldLe d 1 1), 1), (decide (64 ≤ fieldLe d 2 1), 2),
    (decide (64 ≤ fieldLe d 3 1), 3), (fieldLe d 7 1 != 0, 7), (fieldLe d 11 1 != 0, 11), (!zeroBytes d 12 4, 12), hi44 16,
    (!zeroBytes d 29 3, 29), (fieldLe d 35 1 != 0, 35), (fieldLe d 39 1 != 0, 39), (fieldLe d 43 1 != 0, 43),
    (!zeroBytes d 44 4, 44), hi44 48, (!zeroBytes d 60 4, 60), hi44 64, (!zeroBytes d 76 4, 76), hi44 80,
    (fieldLe d 99 1 != 0, 99), (decide (4 ≤ fieldLe d 100 1), 100), (!zeroBytes d 101 3, 101), hi44 104,
    (!zeroBytes d 124 4, 124)]

/-- R205, R206, R208: the lowest faulty byte offset of a descriptor whose biased fields are `x`. -/
def moveFault (d : List Byte) (x : MoveDesc) : Option Nat :=
  let slot := x.kind == 4
  let dirBad := (slot && x.dir != 0) || (x.kind == 2 && (x.dir == 1 || x.dir == 2)) || (x.kind == 3 && (x.dir == 0 || x.dir == 3))
  lowestBad (moveReserved d ++
    [(decide (4 < x.kind), 0), (dirBad, 0), (x.kind == 0 && x.count != 1, 0), (slot && (x.count == 0 || decide (4 < x.count)), 0),
      (decide (2 ≤ x.dir) && decide (2 ^ 24 ≤ fieldLe d 16 8 % 2 ^ 44), 0),
      (!slot && (x.len % 32 != 0 || x.len == 0), 4), (x.mem % 32 != 0, 16), (x.store % 32 != 0, 32),
      ((x.kind == 2 || x.kind == 3) && x.list % 4 != 0, 40)])

/-! ### Transfers -/

/-- One side of a transfer: an offset of a cluster's store, or a module address. -/
inductive Place where
  | store (c off : Nat)
  | mem (a : Nat)
  deriving DecidableEq, Repr

/-- A transfer of a MOVE: `n` bytes from one place, or zeros, to another. -/
structure Transfer where
  src : Option Place
  dst : Place
  n   : Nat
  deriving DecidableEq, Repr

/-- R207: the memory side at an address: the store of rank PEER, or memory. -/
def memSide (x : MoveDesc) (peer a : Nat) : Place := if 2 ≤ x.dir then .store peer (a % 2 ^ 24) else .mem (a % 2 ^ 44)

/-- R207: row `i` of the store side. -/
def storeSide (c : Nat) (x : MoveDesc) (i : Nat) : Place := .store c ((x.store + i * x.storeStride) % 2 ^ 24)

/-- R207: entry `i` of the route list: none for 0xFFFF_FFFF, else the byte offset of its row, modulo 2^44. -/
def listEntry (s : State) (c : Nat) (x : MoveDesc) (i : Nat) : Option Nat :=
  let w := storeF32 s c (x.list + 4 * i)
  if w = 0xFFFFFFFF#32 then none else some ((w.toInt * (x.memStride : Int)) % (2 ^ 44 : Nat)).toNat

/-- R207, R208: a bit of the block presence array, and whether its byte is poisoned. -/
def presenceBit (s : State) (ways : Nat) (x : MoveDesc) (b : Nat) : Option Bool × State :=
  let k := (x.maskBit + b * x.maskStep) % 2 ^ 32
  let r := readRange s ways ((x.mask + k / 8) % 2 ^ 44) 1
  (if (firstPoison r.1).isSome then none else some (natBit (fieldLe (pieceBytes r.1) 0 1) (k % 8)), r.2)

/-- R207: the transfers of one block of a SLOT_FILL. -/
def slotBlock (c : Nat) (x : MoveDesc) (b : Nat) : List Transfer :=
  let scaleAt := x.store + x.count * x.elemLen
  let metaAt := scaleAt + (if x.scaled then 32 * x.count else 0)
  let dst := fun o => Place.store c (o % 2 ^ 24)
  [⟨some (.mem ((x.mem + b * x.memStride) % 2 ^ 44)), dst (x.store + b * x.elemLen), x.elemLen⟩]
    ++ (if x.scaled then [⟨some (.mem ((x.scale + b * x.scaleStride) % 2 ^ 44)), dst (scaleAt + 32 * b), 32⟩] else [])
    ++ (if x.sparse then [⟨some (.mem ((x.meta_ + b * x.metaStride) % 2 ^ 44)), dst (metaAt + 128 * b), 128⟩] else [])

/-- R115: the trailer's offset in a slot that a SLOT_FILL fills. -/
def slotTrailer (x : MoveDesc) : Nat :=
  x.store + x.count * x.elemLen + (if x.scaled then 32 * x.count else 0) + (if x.sparse then 128 * x.count else 0)

/-- R207: the transfers of a MOVE other than a SLOT_FILL, in order. -/
def moveTransfers (s : State) (c peer : Nat) (x : MoveDesc) : List Transfer :=
  let dir := fun (i a : Nat) =>
    let m := memSide x peer a
    let t := storeSide c x i
    if x.kind = 2 ∨ (x.kind ≠ 3 ∧ (x.dir = 0 ∨ x.dir = 3)) then (⟨some m, t, x.len⟩ : Transfer) else ⟨some t, m, x.len⟩
  match x.kind with
  | 0 => [dir 0 x.mem]
  | 1 => (List.range x.count).map (fun i => dir i (x.mem + i * x.memStride))
  | _ => (List.range x.count).filterMap (fun i =>
      match listEntry s c x i with
      | some o => some (dir i (x.mem + o))
      | none => if x.kind = 2 then some ⟨none, storeSide c x i, x.len⟩ else none)

/-- R210: `n` bytes at a place may be reached by a slice on the given clusters of a partition. -/
def placeError (s : State) (p : Nat) (ranks : List Nat) (site : Nat) (n : Nat) : Place → Option (Option Nat)
  | .store _ _ => none
  | .mem a =>
    if n = 0 then none
    else if inStore a then
      (if inStore (a + n - 1) && [a, a + n - 1].all (fun y => ranks.contains (y / 2 ^ 24 % 64)) then none else some none)
    else accessError s (some p) site a n

/-- The first refused place of a list of transfers. -/
def transfersError (s : State) (p : Nat) (ranks : List Nat) (site : Nat) : List Transfer → Option (Option Nat)
  | [] => none
  | t :: rest =>
    match t.src.bind (placeError s p ranks site t.n), placeError s p ranks site t.n t.dst with
    | some e, _ => some e
    | none, some e => some e
    | none, none => transfersError s p ranks site rest

/-- Bytes written to a place. -/
def writePlace (s : State) (ways : Nat) (b : List Byte) : Place → State
  | .store c o => putStore s c o b
  | .mem a => writeRange s ways a b

/-- A place some bytes on. -/
def placeAt : Place → Nat → Place
  | .store c o, n => .store c ((o + n) % 2 ^ 24)
  | .mem a, n => .mem (a + n)

/-- R280: pieces written from a place on; a poisoned piece leaves its bytes undefined. -/
def putPieces (s : State) (ways base : Nat) (dst : Place) : List Piece → State
  | [] => s
  | p :: t =>
    let f := match p.data with
      | some b => (b, s)
      | none => freeBytes s p.len
    putPieces (writePlace f.2 ways f.1 (placeAt dst (p.addr - base))) ways base dst t

/-- R313: the detail of a write to a place that was answered POISONED. -/
def placeLost (s : State) (n : Nat) : Place → Option Nat
  | .store _ _ => none
  | .mem a => writeLost s a n

/-- R207, R208, R268: one transfer carried out; `tap` puts a read or write of 32 bytes of HBM on the sector tap. The detail of the first
access that was answered POISONED. -/
def doTransfer (s : State) (ways : Nat) (tap : Bool) (t : Transfer) : Option Nat × State :=
  let wrote := fun (p : Option Nat) (s : State) => (p <|> placeLost s t.n t.dst, s)
  match t.src with
  | none => wrote none (writePlace s ways (List.replicate t.n 0) t.dst)
  | some (.store c o) =>
    match t.dst with
    | .mem a => wrote none (if tap && a % 32 == 0 && inHbm a then tapWrite s ways (a / 32) (storeBytes s c o t.n)
        else writePlace s ways (storeBytes s c o t.n) t.dst)
    | .store _ _ => wrote none (writePlace s ways (storeBytes s c o t.n) t.dst)
  | some (.mem a) =>
    if inStore a then wrote none (writePlace s ways (memBytes s a t.n) t.dst)
    else if tap && a % 32 == 0 && inHbm a then
      let r := tapRead s ways (a / 32)
      match r.1 with
      | some b => wrote none (writePlace r.2 ways b t.dst)
      | none =>
        let f := freeBytes r.2 32
        wrote (some (poisonDetail f.2 a)) (writePlace f.2 ways f.1 t.dst)
    else
      let r := readRange s ways a t.n
      wrote ((firstPoison r.1).map (poisonDetail r.2)) (putPieces r.2 ways a t.dst r.1)

/-- A list of transfers carried out in order; the detail of the first access that was answered POISONED. -/
def doTransfers (s : State) (ways : Nat) (tap : Bool) : List Transfer → Option Nat × State
  | [] => (none, s)
  | t :: rest =>
    let r := doTransfer s ways tap t
    let q := doTransfers r.2 ways tap rest
    (r.1 <|> q.1, q.2)

/-- The presence bits of a SLOT_FILL's blocks, block 0 first; a poisoned byte counts as absent and is reported. -/
def presenceBits (s : State) (ways : Nat) (x : MoveDesc) : List Nat → List Bool × Option Nat × State
  | [] => ([], none, s)
  | b :: rest =>
    let r := presenceBit s ways x b
    let q := presenceBits r.2 ways x rest
    let a := (x.mask + (x.maskBit + b * x.maskStep) % 2 ^ 32 / 8) % 2 ^ 44
    (r.1.getD false :: q.1, (if r.1.isNone then some (poisonDetail r.2 a) else q.2.1), q.2.2)

/-! ### Issue -/

/-- The clusters of the slice a cluster runs, in rank order. -/
def sliceClusters (s : State) (v : Cluster) : List Nat :=
  match findRun s v.run with
  | some r => (sliceRun r v.slice).clusters
  | none => []

/-- R207, R208: a SLOT_FILL planned: the transfers of its present blocks and its trailer's bits. -/
def slotPlan (s : State) (c ways : Nat) (x : MoveDesc) : List Transfer × Nat × Option Nat × State :=
  let bs := presenceBits s ways x (List.range x.count)
  let on := (List.range x.count).filter (fun b => bs.1.getD b false)
  (on.flatMap (slotBlock c x), on.foldl (fun n b => n + 2 ^ b) 0, bs.2.1, bs.2.2)

/-- R203: a MOVE that has issued is outstanding; `l` is what its counts make known (R184). -/
def addMove (s : State) (c : Nat) (x : MoveDesc) (peer : Nat) (poison : Option Nat) (l : List Nat) : State :=
  modCluster s c (fun v => { v with
    moves := v.moves ++ [⟨v.moveSeq, v.run, v.slice, x.done, if x.remEn then some (peer, x.rem) else none, poison, l⟩]
    moveSeq := v.moveSeq + 1 })

/-- The store areas of a place. -/
def placeStore (n : Nat) : Place → List (Nat × Nat)
  | .store c o => storeAreas c o n
  | .mem a => if inStore a then [(a, n)] else []

/-- The areas of memory of a place. -/
def placeMemory (n : Nat) : Place → List (Nat × Nat)
  | .store _ _ => []
  | .mem a => if inStore a then [] else [(a, n)]

/-- What transfers read, as the areas that `f` gives of a place. -/
def readsOf (f : Nat → Place → List (Nat × Nat)) (ts : List Transfer) : List (Nat × Nat) :=
  ts.flatMap (fun t => (t.src.map (f t.n)).getD [])

/-- What transfers write. -/
def writesOf (f : Nat → Place → List (Nat × Nat)) (ts : List Transfer) : List (Nat × Nat) := ts.flatMap (fun t => f t.n t.dst)

/-- R219: the MOVEs of a cluster's slice read or write areas of memory: the contents of those it shares with slices that are not ordered
against it are free bytes from here on. A read calls this before it takes its bytes, and a write after it has put its own. -/
def touchMemory (s : State) (c : Nat) (write : Bool) (areas : List (Nat × Nat)) : State :=
  let v := cluster s c
  match findRun s v.run with
  | none => s
  | some r =>
    match findProgram s r.partition r.program with
    | none => s
    | some g =>
      let parts := areas.flatMap (unorderedParts r g v.slice write)
      let s := parts.foldl (fun s p => let f := freeBytes s p.2; writeRange f.2 (waysOf s (some r.partition)) p.1 f.1) s
      modRun s r.id (fun r => { r with areas := r.areas ++ areas.map (fun p => ⟨v.slice, p.1, p.2, write⟩) })

/-- R184, R207, R219: the transfers of a MOVE carried out, `a` its use of cluster stores; the detail of the first access that was answered
POISONED. -/
def carryTransfers (s : State) (c : Nat) (a : StoreUse) (ways : Nat) (tap : Bool) (ts : List Transfer) : Option Nat × State :=
  let s := touchMemory (touchStore s a false (readsOf placeStore ts)) c false (readsOf placeMemory ts)
  let r := doTransfers s ways tap ts
  (r.1, touchMemory (touchStore r.2 a true (writesOf placeStore ts)) c true (writesOf placeMemory ts))

/-- R207: the areas of the bytes that hold a SLOT_FILL's presence bits. -/
def maskAreas (x : MoveDesc) : List (Nat × Nat) :=
  (List.range x.count).map (fun b => ((x.mask + (x.maskBit + b * x.maskStep) % 2 ^ 32 / 8) % 2 ^ 44, 1))

/-- R207 to R210: the effect of a MOVE whose descriptor passed its checks, in a slice on `ranks`, `a` its use of cluster stores. -/
def runMove (s : State) (c : Nat) (x : MoveDesc) (ranks : List Nat) (a : StoreUse) : State :=
  let v := cluster s c
  let p := v.partition
  let ways := waysOf s (some p)
  let peer := ranks.getD x.peer 0
  let site := c / 16
  let maskPlaces := (maskAreas x).map (fun p => (⟨some (.mem p.1), .store c 0, 1⟩ : Transfer))
  let denied := fun (s : State) (e : Option Nat) => seqFault (accessEvent s e) c 3 3 .denied 0x2390
  let finish := fun (r : Option Nat × State) (n : Nat) =>
    let t := addMove r.2 c x peer r.1 a.done
    passWord (count t .seqMoveBytes (c / 16) (c % 16) n) c 3
  if x.kind = 4 then
    match transfersError s p ranks site maskPlaces with
    | some e => denied s e
    | none =>
      let q := slotPlan (touchMemory s c false (maskAreas x)) c ways x
      match transfersError q.2.2.2 p ranks site q.1 with
      | some e => denied q.2.2.2 e
      | none =>
        let r := carryTransfers q.2.2.2 c a ways false q.1
        let s := putStore r.2 c (slotTrailer x) (BitVec.ofNat 8 q.2.1 :: List.replicate 31 0)
        finish (q.2.2.1 <|> r.1, touchStore s a true (storeAreas c (slotTrailer x) 32))
          ((q.1.foldl (fun n t => n + t.n) 0) + 32)
  else
    let s := if x.kind = 2 ∨ x.kind = 3 then touchStore s a false (storeAreas c x.list (4 * x.count)) else s
    let ts := moveTransfers s c peer x
    match transfersError s p ranks site ts with
    | some e => denied s e
    | none =>
      if x.kind = 0 ∧ x.dir = 1 ∧ x.len = 128 ∧ doorbellOf s p = some x.mem then
        let s := touchStore s a false (storeAreas c x.store 128)
        let s := ringDoorbell s c (some v.moveSeq) x.mem (storeBytes s c x.store 128)
        finish (writeLost s x.mem 128, s) 128
      else
        finish (carryTransfers s c a ways (decide (2 ≤ x.kind) && x.len == 32) ts) (ts.foldl (fun n t => n + t.n) 0)

/-- MV (R201, R203, R205, R210): a MOVE of the given kind issues; it is held while eight are outstanding. -/
def moveIssue (s : State) (c : Fin 64) (w : Word) (kind : Nat) : State :=
  issue s c.val 3 w (fun o => o == 1) (fun s =>
    let v := cluster s c.val
    let t := stream v 3
    let bias := natBit w.toNat 55
    let addr := descAddr t w
    let regsOk := decide (insA w ≤ 15) && (!bias || decide (insB w ≤ 15 ∧ insC w ≤ 15))
    if !reservedZero w [(55, 55), (42, 38), (37, 33), (32, 28), (23, 0)] || !regsOk || addr % 128 != 0 then
      streamFault s c.val 3
    else if 8 ≤ v.moves.length then s
    else
      let r := (readDesc s c.val 3 (streamKey c.val 3) addr 128).2
      let d := storeBytes r c.val addr 128
      let x := if bias then moveDesc d (scalar t (insB w)).toNat (scalar t (insC w)).toNat else moveDesc d 0 0
      match moveFault d x with
      | some o => seqFault r c.val 3 2 .badParam (0x2300 + o)
      | none =>
        if x.kind ≠ kind then s
        else
          let ranks := sliceClusters s v
          let u := newUse r (streamKey c.val 3) (knownTo r (streamKey c.val 3))
          if (decide (2 ≤ x.dir) || x.remEn) && decide (ranks.length ≤ x.peer) then seqFault r c.val 3 6 .badParam 0x2393
          else runMove u.2 c.val x ranks u.1)

/-- MOVE_LINEAR. -/
def execMoveLinear (c : Fin 64) (w : Word) (s : State) : Host.Outcome State Fault Refusal := .next (moveIssue s c w 0)
/-- MOVE_STRIDED. -/
def execMoveStrided (c : Fin 64) (w : Word) (s : State) : Host.Outcome State Fault Refusal := .next (moveIssue s c w 1)
/-- MOVE_GATHER. -/
def execMoveGather (c : Fin 64) (w : Word) (s : State) : Host.Outcome State Fault Refusal := .next (moveIssue s c w 2)
/-- MOVE_SCATTER. -/
def execMoveScatter (c : Fin 64) (w : Word) (s : State) : Host.Outcome State Fault Refusal := .next (moveIssue s c w 3)
/-- SLOT_FILL. -/
def execSlotFill (c : Fin 64) (w : Word) (s : State) : Host.Outcome State Fault Refusal := .next (moveIssue s c w 4)

/-! ### Completion -/

/-- R245: a MOVE whose doorbell write is held behind a full queue. -/
def moveHeld (s : State) (c seq : Nat) : Bool :=
  (List.range 4).any (fun t => (exchEngine s t).held.any (fun r =>
    r.cluster == c && r.run == (cluster s c).run && r.move == some seq))

/-- R209: the count of a MOVE at its own cluster. -/
def moveDone (c : Nat) (m : MoveOut) (s : State) : State := signalToken s c m.doneToken 1 3 m.knows

/-- R209, R458: the count of a MOVE at its peer, unless the peer serves another slice by now. -/
def moveRem (m : MoveOut) (s : State) : State :=
  match m.remToken with
  | some (k, t) => if (cluster s k).run = m.run ∧ (cluster s k).slice = m.slice then signalToken s k t 1 3 m.knows else s
  | none => s

/-- R214: of two counts that overflow in one cycle, the run carries the fault of the lower rank. -/
def remFirst (s : State) (c : Nat) (m : MoveOut) : Bool :=
  m.remToken.any (fun k => decide ((cluster s k.1).rank < (cluster s c).rank))

/-- MOVE_COMPLETE (R209, R280): an outstanding MOVE adds its counts; one that read poison then ends the slice. -/
def execMoveComplete (c : Fin 64) (seq : Nat) (s : State) : Host.Outcome State Fault Refusal :=
  .next (
    let v := cluster s c.val
    match v.moves.find? (fun m => m.seq == seq) with
    | none => s
    | some m =>
      if moveHeld s c.val seq then s
      else
        let s := setCluster s c.val { v with moves := v.moves.filter (fun x => x.seq != seq) }
        let s := if remFirst s c.val m then moveDone c.val m (moveRem m s) else moveRem m (moveDone c.val m s)
        match m.poison with
        | some d => if clusterServes (cluster s c.val) then endSlice s c.val .poisoned d else settleCluster s c.val
        | none => settleCluster s c.val)

end Sys2Proof.Machine
end

