-- ==== Sys2Proof/Machine/SaveArea.lean ====
section
/-!
DEFINITION. The save area of a cluster (R215) and what is read back from it (R216, R95, R96), and the switch of a cluster
between contexts (R449). The inner layout of the header is the model's own (R216; log entry 29).
-/
namespace Sys2Proof.Machine

/-! ### Layout -/

/-- Bytes with zeros after them, `n` in all. -/
def padTo (n : Nat) (b : List Byte) : List Byte := (b ++ List.replicate n 0).take n

/-- R215: the address of the save area of a rank of a context. -/
def saveArea (s : State) (x rank : Nat) : Nat := (ctxOf s x).saveBase + rank * 0x1100000

/-- A stream's part of the header: 256 bytes. -/
def streamImage (t : Stream) : List Byte :=
  padTo 64 (leBytes 2 t.pc ++ leBytes 1 (boolNat t.ended) ++ leBytes 1 t.loops.length
    ++ t.loops.flatMap (fun f => leBytes 2 f.first ++ leBytes 2 f.last ++ leBytes 4 f.left))
  ++ padTo 192 (t.scalars.flatMap (fun w => leBytes 8 w.toNat))

/-- A vat operation's descriptor and address: 132 bytes. -/
def opImage : Option VatOp → List Byte
  | none => List.replicate 132 0
  | some o => padTo 128 o.desc ++ leBytes 4 o.addr

/-- A vat's part of the header: 272 bytes. -/
def vatImage (t : Vat) : List Byte :=
  [t.acc.isSome, t.queued.isSome, t.acc.any (·.took), t.acc.any (·.loaded)].map (fun b => BitVec.ofNat 8 (boolNat b))
    ++ List.replicate 4 0 ++ opImage t.acc ++ opImage t.queued

/-- A header with its CRC-32C: 4 KiB. -/
def sealImage (b : List Byte) : List Byte := padTo 4092 b ++ leBytes 4 (crc32c (padTo 4092 b))

/-- R215: the header of a cluster. -/
def headerImage (v : Cluster) : List Byte :=
  sealImage (padTo 1024 (v.streams.flatMap streamImage)
    ++ (List.range 64).flatMap (fun n => leBytes 4 (tokenOf v n))
    ++ padTo 256 (leBytes 2 v.vec.rows ++ leBytes 2 v.vec.cols) ++ v.vats.flatMap vatImage)

/-- R215: T0–T31, U0–U7, V0–V7 and M0–M3 as bytes. -/
def vecImage (v : VecRegs) : List Byte :=
  (List.range 32768).flatMap (fun i => leBytes 4 (mapGet (fun _ => (0 : F32)) v.t i).toNat)
    ++ (List.range 256).flatMap (fun i => leBytes 4 (mapGet (fun _ => (0 : F32)) v.u i).toNat)
    ++ (List.range 256).flatMap (fun i => leBytes 4 (mapGet (fun _ => (0 : F32)) v.v i).toNat)
    ++ (List.range 512).map (fun i =>
        BitVec.ofNat 8 ((List.range 8).foldl (fun n b => n + boolNat (mapGet (fun _ => false) v.m (8 * i + b)) * 2 ^ b) 0))

/-- The stat memory as bytes. -/
def statImage (v : Cluster) : List Byte := (List.range 16384).flatMap (statEntry v)

/-- R95: the dump record of an accumulating operation; the cells outside its active area hold 0 (DESIGN CHOICE, log entry 75). -/
def dumpImage (t : Vat) (o : VatOp) : List Byte :=
  let d := vatDesc o.desc
  leBytes 8 o.nextPos ++ leBytes 1 (boolNat d.pt600 + 2 * boolNat d.dotSr) ++ List.replicate 7 0
    ++ (List.range 16384).flatMap (fun n =>
        leBytes 4 (mapGet (fun _ => 0) (bankOf t o.bank) n).toNat
          ++ leBytes 4 (if d.pt600 then (mapGet (fun _ => 0) (chunkOf t o.bank) n).toNat else 0))

/-- A table of the non-zero values among `n`. -/
def tableOf {k : Nat} (n : Nat) (f : Nat → BitVec k) : SMap (BitVec k) :=
  (List.range n).filterMap (fun i => if f i = 0 then none else some (i, f i))

/-- The word at index `i` of bytes. -/
def wordAt (b : List Byte) (i : Nat) : F32 := BitVec.ofNat 32 (fieldLe b (4 * i) 4)

/-- A stream read back. -/
def streamFrom (b : List Byte) : Stream :=
  { pc := fieldLe b 0 2, ended := fieldLe b 2 1 != 0, waiting := none
    loops := (List.range (fieldLe b 3 1)).map (fun i =>
      ⟨fieldLe b (4 + 8 * i) 2, fieldLe b (6 + 8 * i) 2, fieldLe b (8 + 8 * i) 4⟩)
    scalars := (List.range 16).map (fun i => BitVec.ofNat 64 (fieldLe b (64 + 8 * i) 8)) }

/-- The vector engine's registers read back. -/
def vecFrom (h b : List Byte) : VecRegs :=
  { t := tableOf 32768 (wordAt b), u := tableOf 256 (wordAt (b.drop 0x20000)), v := tableOf 256 (wordAt (b.drop 0x20400))
    m := (List.range 4096).filterMap (fun i =>
      if natBit (fieldLe b (0x20800 + i / 8) 1) (i % 8) then some (i, true) else none)
    rows := fieldLe h 1280 2, cols := fieldLe h 1282 2 }

/-- The stat memory read back. -/
def statFrom (b : List Byte) : SMap (List Byte) :=
  (List.range 16384).filterMap (fun i =>
    let e := slice b (16 * i) 16
    if e = List.replicate 16 0 then none else some (i, e))

/-- R96: what is wrong with a dump record of an operation. No rule checks its MODE and ROUND against the descriptor, nor its CHUNK in native
mode: they are ignored, and the descriptor's settings hold (DESIGN CHOICE, log entry 75). -/
def dumpFault (d : VatDesc) (b : List Byte) : Option Nat :=
  let w := fieldLe b 0 8
  let pos := w % 2 ^ 34
  let cell := (List.range 16384).any (fun n => decide (64 ≤ fieldLe b (22 + 8 * n) 1) || fieldLe b (23 + 8 * n) 1 != 0)
  if w / 2 ^ 34 ≠ 0 ∨ 4 ≤ fieldLe b 8 1 ∨ !zeroBytes b 9 7 ∨ cell then some 0x20F0
  else if pos < d.k0 ∨ d.k0 + d.k ≤ pos ∨ (!d.pt600 ∧ pos % 4 ≠ 0) then some 0x20F1
  else none

/-- R110: a vat of a cluster with an operation read back from its part of the header and its dump record: into the bank that the
vat's next operation uses, and the alternation goes on from there. -/
def vatFrom (h dump : List Byte) (seed : BitVec 64) (t : Vat) : Vat :=
  let flag := fun i => fieldLe h i 1 != 0
  let op := fun o : Nat => (slice h o 128, fieldLe h (o + 128) 4)
  if !flag 0 then abandonVat t
  else
    let a := op 8
    let q := op 140
    { setBank (abandonVat t) t.bank (tableOf 16384 (fun n => wordAt (dump.drop 16) (2 * n)))
        (tableOf 16384 (fun n => BitVec.ofNat 22 (fieldLe dump (20 + 8 * n) 3))) with
      bank := if flag 1 then t.bank else !t.bank
      acc := some ⟨a.1, a.2, seed, t.bank, fieldLe dump 0 8 % 2 ^ 34, flag 3, flag 2, []⟩
      queued := if flag 1 then some ⟨q.1, q.2, seed, !t.bank, (vatDesc q.1).k0, false, false, []⟩ else none }

/-! ### The cluster store as a whole -/

/-- A cluster's whole store replaced. -/
def putImage (s : State) (c : Nat) (b : List Byte) : State :=
  let lo := storeBase c
  let s := clearRange s lo (2 ^ 24)
  { s with mem := s.mem.filter (fun e => decide (e.1 < lo))
      ++ ((b.take (2 ^ 24)).mapIdx (fun i x => (lo + i, x))).filter (fun e => e.2 != 0)
      ++ s.mem.filter (fun e => decide (lo ≤ e.1)) }

/-- R449: a cluster's store and stat memory filled with zeros. -/
def clearCluster (s : State) (c : Nat) : State :=
  modCluster (clearRange s (storeBase c) (2 ^ 24)) c (fun v => { v with stat := [], statFree := none, spoiled := false })

/-- R455: a fault has left a cluster's store and stat memory undefined: free bytes. -/
def settleSpoiled (s : State) (c : Nat) : State :=
  if (cluster s c).spoiled then
    let s := undefineRange s (storeBase c) (2 ^ 24)
    modCluster { s with free := s.free + 2 ^ 18 } c (fun v => { v with stat := [], statFree := some s.free, spoiled := false })
  else s

/-! ### Saving -/

/-- A suspended slice of a context, or one that is being suspended, holds a rank (R215). -/
def rankSuspended (s : State) (x rank : Nat) : Bool :=
  s.runs.any (fun r => r.ctx == x && r.slices.any (fun i => decide (rank < i.clusters.length) &&
    (i.status == .suspended || (i.status == .running && i.clusters.any (fun c => (cluster s c).state == .suspending)))))

/-- Bytes written into a save area. -/
def putArea (s : State) (x rank off : Nat) (b : List Byte) : State :=
  writeRange s (waysOf s (some (ctxOf s x).partition)) (saveArea s x rank + off) b

/-- A context's save area holds the state of a rank, as a cluster saved it. -/
def addSaved (s : State) (c x rank : Nat) : State :=
  let k := ctxOf s x
  setCtx s x { k with savedRanks := k.savedRanks.filter (fun p => p.1 != rank) ++ [(rank, c)] }

/-- R215: the store and the stat memory of a cluster written into a context's save area. -/
def saveStores (s : State) (c x rank : Nat) : State :=
  let s := putArea s x rank 0x22000 (statImage (cluster s c))
  addSaved (putArea s x rank 0x100000 (memBytes s (storeBase c) (2 ^ 24))) c x rank

/-- What a cluster holds for a rank of a context kept with the context, in place of what it had kept from there before. -/
def keepStash (s : State) (c x rank : Nat) : State :=
  let k := ctxOf s x
  setCtx s x { k with stash := k.stash.filter (fun e => e.cluster != c)
      ++ [⟨c, rank, memBytes s (storeBase c) (2 ^ 24), statFrom (statImage (cluster s c))⟩] }

/-- R449: a cluster saves the state of another open context that it holds, and holds it no longer (R458). What a suspended slice of the
same rank has saved stays in its area (R394), and what the cluster held is kept for the slices that R220 binds to it (DESIGN CHOICE,
log entry 46). -/
def saveHeld (c ctx : Nat) (s : State) : State :=
  match (cluster s c).holds with
  | none => s
  | some (x, rank) =>
    if x = ctx then s
    else
      let s := if !(ctxOf s x).valid then s
        else
          let s := keepStash (settleSpoiled s c) c x rank
          if rankSuspended s x rank then s else putArea (saveStores s c x rank) x rank 0 (sealImage [])
      modCluster s c (fun v => { v with holds := none, spoiled := false })

/-- R95: the dump records of a cluster's vats from vat `v` on. -/
def saveDumps (x rank : Nat) : Nat → List Vat → State → State
  | _, [], s => s
  | v, t :: rest, s =>
    saveDumps x rank (v + 1) rest (match t.acc with
      | some o => putArea s x rank (0x62000 + 0x21000 * v) (dumpImage t o)
      | none => s)

/-- R215: a cluster's whole state written into its context's save area. -/
def saveCluster (s : State) (c : Nat) : State :=
  let v := cluster s c
  let s := putArea (putArea s v.ctx v.rank 0 (headerImage v)) v.ctx v.rank 0x1000 (vecImage v.vec)
  saveStores (saveDumps v.ctx v.rank 0 v.vats s) c v.ctx v.rank

/-! ### Restoring -/

/-- A read of a save area: its bytes, whether a sector of it is poisoned, and the state after it. -/
def getArea (s : State) (x rank off n : Nat) : List Byte × Bool × State :=
  let r := readRange s (waysOf s (some (ctxOf s x).partition)) (saveArea s x rank + off) n
  (pieceBytes r.1, (firstPoison r.1).isSome, r.2)

/-- What a save area is read for. -/
inductive RestoreError where
  | poison | crc
  deriving DecidableEq, Repr

/-- R216: the header read and checked. -/
def readHeader (s : State) (x rank : Nat) : (Option RestoreError × List Byte) × State :=
  let r := getArea s x rank 0 4096
  let e := if r.2.1 then some .poison
    else if crc32c (r.1.take 4092) != fieldLe r.1 4092 4 then some .crc else none
  ((e, r.1), r.2.2)

/-- R456: a restore that fails ends the context: a poisoned sector, or a CRC that does not match (R213). -/
def restoreFails (s : State) (c x : Nat) : RestoreError → State
  | .poison => endContext s x 0x2D32 true
  | .crc => endContext (seqFault s c 0 7 .contextKilled 0x2394) x 0x2394 true

/-- The stat memory and store of a rank read back onto a cluster. -/
def restoreStores (s : State) (c x rank : Nat) : Bool × State :=
  let a := getArea s x rank 0x22000 (2 ^ 18)
  let b := getArea a.2.2 x rank 0x100000 (2 ^ 24)
  (a.2.1 || b.2.1, modCluster (putImage b.2.2 c b.1) c (fun v => { v with stat := statFrom a.1, statFree := none, spoiled := false }))

/-- R220, R394: what a context has kept from a cluster for a rank that another cluster has saved since, or that none has (log entry 46). -/
def stashFor (s : State) (c x rank : Nat) : Option Stash :=
  let k := ctxOf s x
  if k.savedRanks.contains (rank, c) then none else k.stash.find? (fun e => e.cluster == c && e.rank == rank)

/-- A cluster's store and stat memory as they were kept. -/
def putStash (s : State) (c : Nat) (e : Stash) : State :=
  modCluster (putImage s c e.store) c (fun v => { v with stat := e.stat, statFree := none, spoiled := false })

/-- R449: a cluster comes to hold a context's state for a rank: its own contents when the context ran on it last, else what
is saved for the rank, else zeros; a slice that R220 binds to the cluster finds there what the rank left (log entry 46). -/
def bringState (s : State) (c x rank : Nat) (bound : Bool) : State :=
  if (cluster s c).holds.any (fun h => h.1 == x) then settleSpoiled s c
  else
    match (if bound then stashFor s c x rank else none) with
    | some e => putStash s c e
    | none =>
      if !(ctxOf s x).savedRanks.any (fun p => p.1 == rank) then clearCluster s c
      else
        let h := readHeader s x rank
        match h.1.1 with
        | some e => restoreFails h.2 c x e
        | none =>
          let r := restoreStores h.2 c x rank
          if r.1 then restoreFails r.2 c x .poison else r.2

/-- The dump records of a save area for the vats whose header part names an operation: their bytes and whether one is poisoned. -/
def readDumps (x rank : Nat) (h : List Byte) : List Nat → State → (List (List Byte) × Bool) × State
  | [], s => (([], false), s)
  | v :: rest, s =>
    let r := if fieldLe h (1536 + 272 * v) 1 != 0 then getArea s x rank (0x62000 + 0x21000 * v) 131088 else ([], false, s)
    let q := readDumps x rank h rest r.2.2
    ((r.1 :: q.1.1, r.2.1 || q.1.2), q.2)

/-- R216: a suspended rank of a run restored onto a cluster, whose fields already name it. -/
def restoreCluster (s : State) (c x rank : Nat) (r : Run) : State :=
  let h := readHeader s x rank
  match h.1.1 with
  | some e => restoreFails h.2 c x e
  | none =>
    let hd := h.1.2
    let b := getArea h.2 x rank 0x1000 0x20A00
    let d := readDumps x rank hd (List.range 4) b.2.2
    let t := restoreStores d.2 c x rank
    if b.2.1 || d.1.2 || t.1 then restoreFails t.2 c x .poison
    else
      let part := fun v => slice hd (1536 + 272 * v) 272
      let dump := fun v => d.1.1.getD v []
      let bad := (List.range 4).filterMap (fun v =>
        if fieldLe (part v) 0 1 = 0 then none else dumpFault (vatDesc (slice (part v) 8 128)) (dump v))
      match bad with
      | e :: _ => endSlice t.2 c .badParam (if bad.contains 0x20F0 then 0x20F0 else e)
      | [] => modCluster t.2 c (fun v => { v with
          streams := (List.range 4).map (fun i => streamFrom (slice hd (256 * i) 256))
          tokens := (List.range 64).filterMap (fun n =>
            let k := fieldLe hd (1024 + 4 * n) 4
            if k = 0 then none else some (n, k))
          vec := vecFrom hd b.1
          vats := (List.range 4).map (fun i => vatFrom (part i) (dump i) r.seed (vatOf v i)) })

end Sys2Proof.Machine
end

