-- ==== Sys2Proof/Machine/Scheduler.lean ====
section
/-!
DEFINITION. The partition schedulers (07_backward_pass.md, 14_partitions_scheduling.md): the offering list and its walk (R446), the
start, suspension and completion of slices (R192, R193, R215, R216, R451), and the commit gate (R547 to R549).
-/
namespace Sys2Proof.Machine

/-! ### The offering list -/

/-- A slice offered to the walk: its run and index, and the keys of R218 and R445. -/
structure Offer where
  run   : Nat
  slice : Nat
  rank  : Nat
  fresh : Nat
  cmd   : Nat
  deriving DecidableEq, Repr

/-- R218: the order of offers: rank, suspended slices first within a rank, then the earlier command, then the lower slice. -/
def offerBefore (a b : Offer) : Bool :=
  if a.rank ≠ b.rank then decide (a.rank < b.rank)
  else if a.fresh ≠ b.fresh then decide (a.fresh < b.fresh)
  else if a.cmd ≠ b.cmd then decide (a.cmd < b.cmd)
  else decide (a.slice < b.slice)

/-- An offer put in its place. -/
def offerInsert (a : Offer) : List Offer → List Offer
  | [] => [a]
  | b :: t => if offerBefore b a then b :: offerInsert a t else a :: b :: t

/-- R217, R228: the rank at which a slice is offered: 1 for a cask slice that is not promoted, and for a suspended slice the rank it
held when it was suspended. -/
def sliceRank (d : SliceDesc) (x : SliceRun) : Nat :=
  if x.status = .suspended then x.heldRank else if d.cls = 1 ∧ !x.promoted then 1 else 0

/-- The slices of a run that are eligible or suspended. -/
def runOffers (g : Program) (r : Run) : List Offer :=
  (List.range r.slices.length).filterMap (fun i =>
    let x := sliceRun r i
    if x.status = .eligible ∨ x.status = .suspended then
      some ⟨r.id, i, sliceRank (sliceDesc g i) x, boolNat (x.status == .eligible), r.cmd⟩
    else none)

/-- The program of a run. -/
def programOf (s : State) (r : Run) : Option Program := findProgram s r.partition r.program

/-- R445, R446: a partition's offering list. -/
def offers (s : State) (p : Nat) : List Offer :=
  ((s.runs.filter (fun r => r.partition == p && r.fault.isNone)).flatMap (fun r =>
    match programOf s r with
    | some g => runOffers g r
    | none => [])).foldl (fun l a => offerInsert a l) []

/-- The held slice of a partition (R447). -/
def heldSlice (s : State) (p : Nat) : Option (Nat × Nat) := mapGet (fun _ => none) s.wideHold p

/-- The held slice of a partition replaced. -/
def setHeld (s : State) (p : Nat) (x : Option (Nat × Nat)) : State :=
  { s with wideHold := mapSet (fun _ => none) s.wideHold p x }

/-! ### Placement -/

/-- The clusters of a partition on which a slice may start. -/
def freeClusters (s : State) (p : Nat) : List Nat :=
  (bitsSet (part s p).desc.clusters 64).filter (fun c => clusterFree s c)

/-- R220: the slice whose clusters bind a slice: PRED0 when it has the same CLUSTERS value. -/
def boundBy (g : Program) (d : SliceDesc) : Option Nat :=
  let q := d.preds.getD 0 0xFFFF
  if q ≠ 0xFFFF ∧ (sliceDesc g q).clusters = d.clusters then some q else none

/-- R448: the first key of the ranking: the tile whose HBM holds the address in word 0 of the scalar block. -/
def favouredTile (r : Run) : Option Nat :=
  let a := (r.scalars.getD 0 0).toNat
  if inHbm a then some (hbmTile a) else none

/-- R448: the free clusters of a partition in the order of the ranking. -/
def rankedClusters (s : State) (r : Run) : List Nat :=
  let free := freeClusters s r.partition
  let near := fun c => favouredTile r == some (c / 16)
  let has := fun c => (cluster s c).loaded == some (r.partition, r.program)
  free.filter (fun c => near c && has c) ++ free.filter (fun c => near c && !has c)
    ++ free.filter (fun c => !near c && has c) ++ free.filter (fun c => !near c && !has c)

/-- R220, R448: the clusters on which a slice would start, in rank order, none when some are not free. -/
def placeSlice (s : State) (r : Run) (g : Program) (i : Nat) : Option (List Nat) :=
  let d := sliceDesc g i
  match boundBy g d with
  | some q =>
    let cs := (sliceRun r q).clusters
    if cs.all (fun c => clusterFree s c) then some cs else none
  | none =>
    let l := (rankedClusters s r).take d.clusters
    if l.length = d.clusters then some ((List.range 64).filter (fun c => l.contains c)) else none

/-! ### Cover -/

/-- R484: a slice's rate in credits per window. -/
def sliceRate (d : SliceDesc) : Nat := (d.energy * 1024 + d.duration - 1) / d.duration

/-- The rates of the running slices of a run. -/
def runRate (s : State) (r : Run) : Nat :=
  match programOf s r with
  | none => 0
  | some g => ((List.range r.slices.length).filter (fun i => (sliceRun r i).status == .running)).foldl
      (fun n i => n + sliceRate (sliceDesc g i)) 0

/-- R484: the rates of every slice running on the module. -/
def totalRate (s : State) : Nat := s.runs.foldl (fun n r => n + runRate s r) 0

/-- R482: `PWR_CFG`.BANK. -/
def bankFactor (s : State) : Nat := getBits (getReg s .pwrCfg 4 0) 0 8

/-- R484: the ledger covers a slice of a partition. -/
def covers (s : State) (p : Nat) (d : SliceDesc) (first : Bool) : Bool :=
  let v := partPower s p
  let balance := if first then decide (0 < v.balance ∧ ((1000 * min d.energy (bankFactor s * v.eff) : Nat) : Int) ≤ v.balance ∧ v.eff ≠ 0)
    else decide (0 ≤ v.balance)
  balance && !s.power.hold && decide (totalRate s + sliceRate d ≤ s.power.meff)

/-! ### Start -/

/-- A slice of a run updated. -/
def modSlice (s : State) (run i : Nat) (f : SliceRun → SliceRun) : State :=
  modRun s run (fun r => r.setSlice i (f (sliceRun r i)))

/-- R192: a program's code words in the program store; the words after them stay. -/
def codeTable (g : Program) (old : SMap Word) : SMap Word :=
  tableOf g.code.length (fun i => g.code.getD i 0) ++ old.filter (fun e => decide (g.code.length ≤ e.1))

/-- R191, R192: a cluster taken for a rank of a slice: its fields, code, scalars, tokens, streams and vector engine. -/
def takeCluster (r : Run) (g : Program) (i count rank : Nat) (v : Cluster) : Cluster :=
  { v with
    state := .restoring, run := r.id, slice := i, count := count, rank := rank, partition := r.partition, ctx := r.ctx
    streams := (List.range 4).map (fun n => ⟨(sliceDesc g i).entries.getD n 0, r.scalars, [], false, none⟩)
    tokens := [], vec := VecRegs.start, loaded := some (r.partition, r.program), store := codeTable g v.store }

/-- R192: the preload sections of a slice copied into a cluster's store. -/
def preload (d : SliceDesc) (s : State) (c : Nat) : State := d.sections.foldl (fun s p => putStore s c p.1 p.2) s

/-- R192, R449: a rank's cluster brings the context's state, or restores the suspended slice (R216), then preloads; nothing once
the run is to end. -/
def loadRank (r : Run) (g : Program) (i : Nat) (first : Bool) (s : State) (p : Nat × Nat) : State :=
  if !runLive s r.id then s
  else if first then
    let s := bringState s p.2 r.ctx p.1 (boundBy g (sliceDesc g i)).isSome
    if !runLive s r.id then s else preload (sliceDesc g i) s p.2
  else restoreCluster s p.2 r.ctx p.1 r

/-- A loaded rank starts to run; one whose streams had all executed END is finishing. -/
def runRank (ctx : Nat) (s : State) (p : Nat × Nat) : State :=
  modCluster s p.2 (fun v => { v with
    state := if v.streams.all (fun t => t.ended) then .finishing else .running
    holds := some (ctx, p.1) })

/-- The (rank, cluster) pairs of a slice. -/
def ranksOf (cs : List Nat) : List (Nat × Nat) := cs.mapIdx (fun i c => (i, c))

/-- A cluster taken for a slice. -/
def takeRank (r : Run) (g : Program) (i count : Nat) (s : State) (p : Nat × Nat) : State :=
  modCluster s p.2 (takeCluster r g i count p.1)

/-- No vat of a cluster still shows a slice as suspended that has resumed. -/
def resumeMarks (run i : Nat) (s : State) (c : Nat) : State :=
  modCluster s c (fun v => { v with vats := v.vats.map (fun t => if t.suspended = some (run, i) then { t with suspended := none } else t) })

/-- R445, R446: a slice starts or resumes on clusters, its debit made at the first start. -/
def startSlice (s : State) (r : Run) (g : Program) (i : Nat) (cs : List Nat) : State :=
  let first := (sliceRun r i).status == .eligible
  let s := cs.foldl (fun s c => forgetOrder (saveHeld c r.ctx s) c) s
  let s := (ranksOf cs).foldl (takeRank r g i cs.length) s
  let s := (ranksOf cs).foldl (loadRank r g i first) s
  if !runLive s r.id then s
  else
    let s := (ranksOf cs).foldl (runRank r.ctx) s
    let s := (List.range 64).foldl (resumeMarks r.id i) s
    let s := modSlice s r.id i (fun x => { x with
      status := .running, clusters := cs, started := s.beat.waits, everStarted := true
      passedEnergy := false, passedClusters := false, passedSince := none })
    if first then adjustBalance s r.partition (-((1000 * (sliceDesc g i).energy : Nat) : Int)) else s

/-! ### The walk -/

/-- R446: a slice passed over for clusters, counted once. -/
def passClusters (s : State) (run i : Nat) (head : Bool) : State :=
  match findRun s run with
  | none => s
  | some r =>
    let x := sliceRun r i
    let s := if x.passedClusters then s else count s .prtPassedClusters 4 0
    modSlice s run i (fun x => { x with
      passedClusters := true
      passedSince := if head then some (x.passedSince.getD s.beat.waits) else none })

/-- R446: a slice passed over for energy, counted once. -/
def passEnergy (s : State) (run i : Nat) : State :=
  match findRun s run with
  | none => s
  | some r =>
    let s := if (sliceRun r i).passedEnergy then s else count s .prtPassedEnergy 4 0
    modSlice s run i (fun x => { x with passedEnergy := true, passedSince := none })

/-- R446: one slice of the walk; nothing when wide-slice hold shuts it out. -/
def walkOffer (s : State) (p : Nat) (head : Bool) (o : Offer) : State :=
  if (heldSlice s p).any (fun h => h != (o.run, o.slice)) then s
  else
    match findRun s o.run with
    | none => s
    | some r =>
      match programOf s r with
      | none => s
      | some g =>
        match placeSlice s r g o.slice with
        | none => passClusters s o.run o.slice head
        | some cs =>
          if covers s p (sliceDesc g o.slice) ((sliceRun r o.slice).status == .eligible) then
            let s := if heldSlice s p = some (o.run, o.slice) then setHeld s p none else s
            startSlice s r g o.slice cs
          else passEnergy s o.run o.slice

/-- R446: the walk over a list of offers, the first of them the head of the list when `head`. -/
def walkList (p : Nat) : Bool → List Offer → State → State
  | _, [], s => s
  | head, o :: t, s => walkList p false t (walkOffer s p head o)

/-- R447: wide-slice hold ends when its slice is offered no longer. -/
def clearHeld (s : State) (p : Nat) : State :=
  match heldSlice s p with
  | none => s
  | some h => if (offers s p).any (fun o => (o.run, o.slice) == h) then s else setHeld s p none

/-! ### Suspension -/

/-- R215: a cluster's issued operations are done, its accumulating and queued vat operations apart. -/
def clusterDrained (v : Cluster) : Bool :=
  v.moves.isEmpty && v.rowOps.isEmpty && v.vats.all (fun t => t.finished.isEmpty && t.draining.isEmpty)

/-- R215: a saved cluster is idle; its vats show the operations that were suspended. -/
def parkCluster (run i : Nat) (v : Cluster) : Cluster :=
  { v with
    state := .idle
    vats := v.vats.map (fun t => if t.acc.isSome then { abandonVat t with suspended := some (run, i) } else abandonVat t) }

/-- R215: a cluster of a suspended slice is saved. -/
def suspendCluster (run i : Nat) (s : State) (c : Nat) : State :=
  modCluster (count (saveCluster ((List.range 4).foldl (loadInit c) s) c) .seqSuspends (c / 16) (c % 16)) c (parkCluster run i)

/-- R215, R451: a slice whose clusters have stopped is saved and suspended; the energy of its running period is a measurement
that no command carries. -/
def suspendSlice (s : State) (r : Run) (i : Nat) : State :=
  let cs := (sliceRun r i).clusters
  let e := takeFreeNat (count (cs.foldl (suspendCluster r.id i) s) .prtPreempts 4 0)
  let rank := fun x => match programOf s r with
    | some g => sliceRank (sliceDesc g i) x
    | none => 0
  modSlice e.2 r.id i (fun x => { x with
    status := .suspended, heldRank := rank x, energy := x.energy + e.1, passedEnergy := false, passedClusters := false, passedSince := none })

/-- A slice is being suspended and its clusters have stopped. -/
def readyToSuspend (s : State) (x : SliceRun) : Bool :=
  x.status == .running && x.clusters.all (fun c => (cluster s c).state == .suspending && clusterDrained (cluster s c))

/-- The slices of a run whose suspension can be finished; those of a run that has faulted are stopped without saving them (R455). -/
def suspendReady (s : State) (r : Run) : State :=
  if r.fault.isSome then s
  else (List.range r.slices.length).foldl (fun s i => if readyToSuspend s (sliceRun r i) then suspendSlice s r i else s) s

/-- R215: suspensions whose clusters have stopped are finished, but none under power hold (R480). -/
def finishSuspensions (s : State) : State := if s.power.hold then s else s.runs.foldl suspendReady s

/-- SCHEDULER_WALK (R446): a partition's scheduler walks its offering list. -/
def schedulerWalk (s : State) (p : Nat) : State :=
  let s := clearHeld (finishSuspensions s) p
  walkList p true (offers s p) s

/-- SCHEDULER_WALK: not before a ledger close that is due (R476). -/
def execSchedulerWalk (p : Fin 16) (s : State) : Host.Outcome State Fault Refusal :=
  .next (if s.power.closeDue then s else schedulerWalk s p.val)

/-- WIDE_SLICE_HOLD (R447): the first slice of the offering list has been passed over for clusters for `PRT_HOLD` beats without a
break, so it becomes the held slice. -/
def execWideSliceHold (p : Fin 16) (s : State) : Host.Outcome State Fault Refusal :=
  .next (
    let hold := getBits (getReg s .prtHold 4 0) 0 32
    match (offers s p.val).head? with
    | none => s
    | some o =>
      match (findRun s o.run).bind (fun r => (sliceRun r o.slice).passedSince) with
      | none => s
      | some since => if hold ≠ 0 ∧ since + hold ≤ s.beat.waits then setHeld s p.val (some (o.run, o.slice)) else s)

/-- R451: a running slice of a context that may be suspended for another of its partition: not already stopping, no cluster of it has
finished its part, and no other suspended slice of the context holds one of its ranks' save areas (DESIGN CHOICE, log entry 46). -/
def mayYield (s : State) (ctx : Nat) (x : SliceRun) : Bool :=
  x.status == .running && !(List.range x.clusters.length).any (rankSuspended s ctx) && x.clusters.all (fun c =>
    let v := cluster s c
    v.state == .running || (v.state == .finishing && !clusterQuiet v))

/-- A slice that qualifies for suspension: its context's priority number, since when it runs, and its run and index. -/
structure Candidate where
  prio    : Nat
  started : Nat
  run     : Nat
  slice   : Nat
  clusters : List Nat
  deriving DecidableEq, Repr

/-- R451: the order in which slices are suspended: the least urgent context first, then the one running longest. -/
def yieldsBefore (a b : Candidate) : Bool :=
  if a.prio ≠ b.prio then decide (b.prio < a.prio) else decide (a.started ≤ b.started)

/-- A candidate put in its place. -/
def candInsert (a : Candidate) : List Candidate → List Candidate
  | [] => [a]
  | b :: t => if yieldsBefore b a then b :: candInsert a t else a :: b :: t

/-- R451: the slices of a partition that qualify, for a waiting slice of context `ctx`. -/
def candidates (s : State) (p ctx : Nat) : List Candidate :=
  let quantum := (part s p).quantum
  let prio := (ctxOf s ctx).priority
  (s.runs.flatMap (fun r =>
    if r.partition ≠ p ∨ r.ctx = ctx ∨ r.fault.isSome ∨ (ctxOf s r.ctx).priority < prio then []
    else (List.range r.slices.length).filterMap (fun i =>
      let x := sliceRun r i
      if mayYield s r.ctx x && decide (x.started + quantum ≤ s.beat.waits) then
        some ⟨(ctxOf s r.ctx).priority, x.started, r.id, i, x.clusters⟩
      else none))).foldl (fun l a => candInsert a l) []

/-- R451: the clusters that are free or are being freed suffice for a slice. -/
def enoughFor (s : State) (r : Run) (g : Program) (i : Nat) (freed : List Nat) : Bool :=
  let will := fun c => clusterFree s c || (cluster s c).state == .suspending || freed.contains c
  match boundBy g (sliceDesc g i) with
  | some q => (sliceRun r q).clusters.all will
  | none => decide ((sliceDesc g i).clusters ≤ ((bitsSet (part s r.partition).desc.clusters 64).filter will).length)

/-- A candidate's suspension would free a cluster that the slice can use. -/
def helps (r : Run) (g : Program) (i : Nat) (k : Candidate) : Bool :=
  match boundBy g (sliceDesc g i) with
  | some q => k.clusters.any (fun c => (sliceRun r q).clusters.contains c)
  | none => true

/-- R451: the candidates that are suspended, in order, until enough clusters are free. -/
def chooseYield (s : State) (r : Run) (g : Program) (i : Nat) : List Nat → List Candidate → List Candidate
  | _, [] => []
  | freed, k :: t =>
    if enoughFor s r g i freed then []
    else if helps r g i k then k :: chooseYield s r g i (freed ++ k.clusters) t
    else chooseYield s r g i freed t

/-- R451: the slices that yield to the first slice of a partition's offering list. -/
def yielding (s : State) (p : Nat) : List Candidate :=
  match (offers s p).head? with
  | none => []
  | some o =>
    match findRun s o.run with
    | none => []
    | some r =>
      match programOf s r with
      | none => []
      | some g =>
        if (sliceRun r o.slice).passedClusters then chooseYield s r g o.slice [] (candidates s p r.ctx) else []

/-- R95, R131, R215: a suspend request to a cluster: every stream stops, a TWAIT without taking its count, and every vat after a group of
its slice. -/
def requestSuspend (s : State) (c : Nat) : State :=
  modCluster ((List.range 4).foldl (stopInSlice c) (countWaits s c)) c (fun v => { v with
    state := .suspending
    streams := v.streams.map (fun t => { t with waiting := none })
    vats := v.vats.map (fun t => { t with waiting := none }) })

/-- QUANTUM_PREEMPT (R450, R451): a running slice past its quantum, and among those that yield, is suspended; under power hold every slice
keeps its clusters (R480). -/
def execQuantumPreempt (run : Nat) (slice : Fin 4096) (s : State) : Host.Outcome State Fault Refusal :=
  .next (
    match findRun s run with
    | none => s
    | some r =>
      if !s.power.hold ∧ (part s r.partition).quantum ≠ 0 ∧ (yielding s r.partition).any (fun k => k.run == run && k.slice == slice.val) then
        finishSuspensions ((sliceRun r slice.val).clusters.foldl requestSuspend s)
      else s)

/-- CASK_AGE_PROMOTE (R223): a cask slice eligible and unstarted for 65,536 beats is promoted. -/
def execCaskAgePromote (run : Nat) (slice : Fin 4096) (s : State) : Host.Outcome State Fault Refusal :=
  .next (
    match findRun s run with
    | none => s
    | some r =>
      match programOf s r with
      | none => s
      | some g =>
        if inCask g slice.val (sliceRun r slice.val) && decide ((sliceRun r slice.val).since + 65536 ≤ s.beat.waits) then
          modSlice s run slice.val (fun x => { x with promoted := true })
        else s)

/-! ### The commit gate -/

/-- R547: what the gate decides: whether row 1 or 2 applied, the cause of a trip (49 counts, 50 loss, 51 spike), and whether
the mean is updated. -/
structure Verdict where
  warm   : Bool
  cause  : Option Nat
  update : Bool
  deriving DecidableEq, Repr

/-- R547, row 5: the loss lies above SPIKE times the mean, exactly. -/
def lossSpike (k : Gate) (loss : Option F32) : Bool :=
  match loss, k.mean with
  | some l, some m =>
    let spike := decode32 k.spike
    k.spike != 0 && extLt extZero (decode32 m) && extLt (extMul spike (decode32 m)) (decode32 l)
  | _, _ => false

/-- R547: the decision on a step, from its NONFINITE count and its loss. -/
def judge (k : Gate) (nonFinite : Nat) (loss : Option F32) : Verdict :=
  if !k.armed then ⟨true, none, false⟩
  else if k.seen < k.warmup then ⟨true, none, true⟩
  else if 0 < nonFinite then ⟨false, some 49, false⟩
  else if loss.any f32NonFinite then ⟨false, some 50, false⟩
  else if lossSpike k loss then ⟨false, some 51, false⟩
  else ⟨false, none, true⟩

/-- R548: the mean after an update with a loss. -/
def newMean (mean : Option F32) (loss : Option F32) : Option F32 :=
  match loss with
  | none => mean
  | some l =>
    if f32NonFinite l then mean
    else
      match mean with
      | none => some l
      | some m =>
        let x := extFrac (decode32 m)
        let d := fracAdd (extFrac (decode32 l)) (extFrac (extNeg (decode32 m)))
        some (rndFp32 (extOfFrac (fracAdd x (fracMul d ⟨1, 16⟩))))

/-- R547, R548: the gate after a decision. -/
def gateAfter (k : Gate) (v : Verdict) (loss : Option F32) (step : Nat) : Gate :=
  { k with
    mean := if v.update then newMean k.mean loss else k.mean
    seen := k.seen + 1, lastLoss := loss.getD 0, lastWithheld := v.cause.isSome, lastStep := step }

/-- R549: the verdict word. -/
def verdictWord (v : Verdict) (step : Nat) : Nat :=
  step % 2 ^ 48 + (match v.cause with
    | some b => 2 ^ 48 + 2 ^ b
    | none => 0) + boolNat v.warm * 2 ^ 52

/-- R544, R547: a trip counted in every copy of `AUD_TRIPS` and raised at the context's audit source. -/
def tripGate (s : State) (x : Nat) : State :=
  raiseEvent (countAudit s .audTrips 0 x 1) (tileSrc (x % 4) (64 + x / 4))

/-- R547, R549: the gate's decision applied: the gate's state, a trip, and the verdict word; whether the update is withheld. -/
def applyVerdict (s : State) (r : Run) (loss : Option F32) : Bool × State :=
  let x := ctxOf s r.ctx
  let v := judge x.gate r.nonFinite loss
  let s := setCtx s r.ctx { x with gate := gateAfter x.gate v loss r.step }
  let s := if v.cause.isSome then tripGate s r.ctx else s
  let s := if x.gate.lossAddr = 0 then s
    else writeRange s (waysOf s (some r.partition)) (x.gate.lossAddr + 8) (leBytes 8 (verdictWord v r.step))
  (v.cause.isSome, s)

/-- A run that has completed leaves the scheduler, and its command completes. -/
def closeRun (s : State) (r : Run) (d : Done) : State :=
  complete { s with runs := s.runs.filter (fun x => x.id != r.id) } r.cmd { d with value := runEnergy r, seed := r.defaultSeed }

/-- R225, R547 to R550: a run whose slices have all completed ends; a gated one is judged first, and a poisoned loss leaves it
without a verdict. -/
def finishRun (s : State) (r : Run) : State :=
  if !r.gated then closeRun s r { status := .ok }
  else
    let a := (ctxOf s r.ctx).gate.lossAddr
    if a = 0 then
      let v := applyVerdict s r none
      closeRun v.2 r { status := .ok, withheld := v.1 }
    else
      let l := readRange s (waysOf s (some r.partition)) a 4
      match firstPoison l.1 with
      | some b => closeRun l.2 r { status := .poisoned, detail := poisonDetail l.2 b }
      | none =>
        let v := applyVerdict l.2 r (some (wordAt (pieceBytes l.1) 0))
        closeRun v.2 r { status := .ok, withheld := v.1 }

/-! ### Completion of a slice -/

/-- R193: a cluster that has finished its part of a slice becomes free, with the energy it measured (R194). -/
def finishCluster (energy : List (BitVec 64)) (s : State) (p : Nat × Nat) : State :=
  modCluster (count s .seqSlices (p.2 / 16) (p.2 % 16)) p.2 (fun v => { v with
    state := .idle, measured := (energy.getD p.1 0).toNat })

/-- R193: every cluster of a slice has finished. -/
def sliceFinished (s : State) (x : SliceRun) : Bool :=
  x.status == .running && x.clusters.all (fun c => (cluster s c).state == .finishing && clusterQuiet (cluster s c))

/-- R193, R483: a finished slice completes: its clusters are free, its debit is corrected by the energy they measured, and what
waits for it becomes eligible. -/
def completeSlice (s : State) (r : Run) (g : Program) (i : Nat) (energy : List (BitVec 64)) : State :=
  let x := sliceRun r i
  let s := (ranksOf x.clusters).foldl (finishCluster energy) s
  let e := (List.range x.clusters.length).foldl (fun n k => n + (energy.getD k 0).toNat) 0
  let x := { x with status := .completed, energy := x.energy + e }
  let s := correctSlice (modSlice s r.id i (fun _ => x)) r.partition (sliceDesc g i) x
  let s := refreshRun s r.id
  match findRun s r.id with
  | none => s
  | some r => if r.slices.all (fun y => y.status == .completed) then finishRun s r else s

/-- SLICE_COMPLETE (R193, R225): every cluster of a slice has finished; `energy` is what each measured, rank 0 first. -/
def execSliceComplete (run : Nat) (slice : Fin 4096) (energy : List (BitVec 64)) (s : State) : Host.Outcome State Fault Refusal :=
  .next (
    match findRun s run with
    | none => s
    | some r =>
      match programOf s r with
      | none => s
      | some g => if sliceFinished s (sliceRun r slice.val) then completeSlice s r g slice.val energy else s)

end Sys2Proof.Machine
end

