-- ==== Sys2Proof/Machine/Ledger.lean ====
section
/-!
DEFINITION. The power ledger (15_beat_power.md): ledger closes (R475 to R482), power hold (R479), PWR_WARN_N (R488, R489), the thermal
cap (R490), and the commands of R486 and R487. Energy is held in microjoules; a credit is 1,000 of them.
-/
namespace Sys2Proof.Machine

/-- Whole credits of an energy, rounded towards −∞. -/
def wholeCredits (b : Int) : Int := b / 1000

/-- A number in two's complement of `w` bits. -/
def twosBits (w : Nat) (x : Int) : Nat := (x % 2 ^ w).toNat

/-- R479: the overdraft limit L. -/
def overdraft (s : State) : Nat := if s.power.cut then 0 else 1536

/-- R479: the balance has fallen to −L or below. -/
def overdrawn (s : State) : Bool := decide (s.power.balance ≤ -(1000 * (overdraft s : Int)))

/-- R479: power hold comes into force. -/
def enterHold (s : State) : State :=
  if s.power.hold then s
  else raiseEvent (setFlag (count (modPower s (fun p => { p with hold := true })) .pwrHolds 4 0) .pwrStatus 4 0 17) (coreSrc 4 16)

/-- R479: power hold comes into force when the balance has fallen to the overdraft limit. -/
def checkHold (s : State) : State := if overdrawn s then enterHold s else s

/-- Energy added to a counter of credits, with what is left below a credit. -/
def countEnergy (s : State) (k : RegKind) (site left e : Nat) : Nat × State :=
  ((left + e) % 1000, count s k site 0 ((left + e) / 1000))

/-- R474, R478: input energy, in microjoules, measured since it was last taken: `PWR_ENERGY` rises by it and the balance falls by it. -/
def drawInput (s : State) (e : Nat) : State :=
  let x := countEnergy s .pwrEnergy 4 s.power.energy e
  modPower x.2 (fun p => { p with energy := x.1, balance := p.balance - (e : Int) })

/-- R478, R479: input energy measured between closes. -/
def drawEnergy (s : State) (e : Nat) : State := checkHold (drawInput s e)

/-- R474, R478: the balance or the energy is looked at between closes: what has been measured since it was last taken is a free value
(log entry 5). -/
def sampleEnergy (s : State) : State :=
  let f := takeFreeNat s
  drawEnergy f.2 f.1

/-- R479: the energy that brings the balance down to the overdraft limit. -/
def energyToLimit (s : State) : Nat := (s.power.balance + 1000 * (overdraft s : Int)).toNat

/-- POWER_HOLD_ENTER (R478, R479): the energy measured since it was last taken, enough to bring the balance down to the overdraft limit
and by how much more a free value (log entry 85). -/
def execPowerHoldEnter (s : State) : Host.Outcome State Fault Refusal :=
  .next (
    if !isRunning s || s.power.hold then s
    else
      let f := takeFreeNat s
      drawEnergy f.2 (energyToLimit s + f.1))

/-! ### PWR_WARN_N -/

/-- PWR_WARN_ASSERT (R488): PWR_WARN_N has been asserted for 2 µs without a break. -/
def execPwrWarnAssert (s : State) : Host.Outcome State Fault Refusal :=
  .next (
    if !isRunning s || s.power.pin then s
    else
      let s := modPower s (fun p => { p with pin := true, pinInWindow := true, warn := true, wholeWindows := 0 })
      raiseEvent (setFlag (count s .pwrWarns 4 0) .pwrStatus 4 0 16) (coreSrc 4 14))

/-- PWR_WARN_RELEASE (R489): PWR_WARN_N is deasserted. -/
def execPwrWarnRelease (s : State) : Host.Outcome State Fault Refusal :=
  .next (if isRunning s then modPower s (fun p => { p with pin := false }) else s)

/-- R488, R489: the cut at a ledger close. -/
def closeWarn (p : Power) : Power :=
  let whole := if p.pinInWindow then 0 else p.wholeWindows + 1
  let p' := { p with pinInWindow := p.pin }
  if !p.warn then p'
  else if 16 ≤ whole then { p' with warn := false, cut := false, wholeWindows := 0 }
  else { p' with cut := true, wholeWindows := whole }

/-! ### Measurements -/

/-- R610: energy measured of a tile, in microjoules. -/
def drawTile (s : State) (t e : Nat) : State :=
  let x := countEnergy s .pwrTileEnergy t (s.power.tileEnergy.getD t 0) e
  modPower x.2 (fun p => { p with tileEnergy := p.tileEnergy.set t x.1 })

/-- R474, R478, R609: a window's measurements taken: the balance has fallen by the input energy. -/
def measured (s : State) (r : WindowReadings) : State :=
  let s := (List.range 4).foldl (fun s t => drawTile s t (r.tiles.getD t 0).toNat) (drawInput s r.energy.toNat)
  let js := (List.range 26).map (fun i => (r.junctions.getD i 0).toNat)
  { s with readings := ⟨r.voltage.toNat, r.current.toNat, r.power.toNat, r.inlet.toNat, r.flow.toNat, js.foldl max 0, js⟩ }

/-- R490: the latch of a junction at or above 100 °C, held until every junction is at or below 90 °C. -/
def hotAfter (was : Bool) (junctions : List Nat) : Bool :=
  junctions.any (fun t => decide (1000 ≤ t)) || (was && junctions.any (fun t => decide (900 < t)))

/-- R490: the thermal cap of the readings. -/
def capOf (hot : Bool) (inlet flow : Nat) : Nat :=
  if hot || decide (450 < inlet) || decide (flow < 400) then 1536
  else if 400 ≤ inlet then 4352 - 16 * (inlet - 400)
  else 4352

/-- R490, R531: the thermal cap set; a fall below 4,352 raises an event. -/
def closeThermal (s : State) : State :=
  let hot := hotAfter s.power.hot s.readings.junctions
  let cap := capOf hot s.readings.inlet s.readings.flow
  let fell := decide (cap < 4352 ∧ s.power.thermalCap = 4352)
  let s := modPower s (fun p => { p with hot := hot, thermalCap := cap })
  if fell then raiseEvent (setFlag s .pwrStatus 4 0 18) (coreSrc 4 15) else s

/-! ### The close -/

/-- R477: the programmed allowance in effect at a close, `closes` closes after reset, this one included. -/
def programmedNow (s : State) : Nat :=
  match s.power.programmed with
  | some m => m
  | none => if s.power.closes ≤ 16 then 1536 else getBits (getReg s .pwrCfg 4 0) 16 16

/-- R477: the module allowance of the next window. -/
def moduleAllowance (s : State) : Nat :=
  let m := min (programmedNow s) s.power.thermalCap
  if s.power.cut || s.beat.lost then min m 1536 else m

/-- R486: what BUDGET_SET has set takes effect. -/
def applySets (s : State) : State :=
  let s := s.power.nextSets.foldl (fun s x => if partActive s x.1 then setPartPower s x.1 { partPower s x.1 with set := x.2 } else s) s
  modPower s (fun p => { p with
    programmed := if p.nextProgrammed.isSome then p.nextProgrammed else p.programmed, nextProgrammed := none, nextSets := [] })

/-- The active partitions. -/
def activeParts (s : State) : List Nat := (List.range 16).filter (partActive s)

/-- R481: the sum of the set allowances of the active partitions. -/
def setSum (s : State) : Nat := (activeParts s).foldl (fun n p => n + ((partPower s p).set.getD 0)) 0

/-- R481: a partition's effective allowance under a module allowance `m`. -/
def effectiveOf (m sum unset : Nat) (set : Option Nat) : Nat :=
  match set with
  | some a => if sum ≤ m then a else a * m / sum
  | none => if sum ≤ m then (m - sum) / unset else 0

/-- R481, R482: a partition's allowance and balance at a close. -/
def closePart (m sum unset : Nat) (s : State) (p : Nat) : State :=
  let v := partPower s p
  let e := effectiveOf m sum unset v.set
  setPartPower s p { v with eff := e, balance := min (v.balance + 1000 * (e : Int)) (1000 * ((bankFactor s * e : Nat) : Int)) }

/-- R481, R482: the partitions at a close. -/
def closeParts (s : State) : State :=
  let l := activeParts s
  l.foldl (closePart s.power.meff (setSum s) ((l.filter (fun p => (partPower s p).set.isNone)).length)) s

/-- R478: the module balance at a close. -/
def refill (p : Power) : Power := { p with balance := min (p.balance + 1000 * (p.meff : Int)) (1000 * (p.meff : Int)) }

/-- The BUDGET_SET commands that wait for a close. -/
def budgetWaits (s : State) : List Nat := (s.cmds.filter (fun c => c.wait == .ledgerClose)).map (·.id)

/-- R479: power hold after a close: it ends when the balance lies above −L, and comes into force when it does not. -/
def closeHold (s : State) : State := if overdrawn s then enterHold s else modPower s (fun p => { p with hold := false })

/-- R476, R483: the corrections that waited for the close. -/
def applyCorrections (s : State) : State :=
  modPower (s.power.corrections.foldl (fun s x => adjustBalance s x.1 x.2) s) (fun p => { p with corrections := [] })

/-- R475 to R482, R486, R489, R490: a ledger close, and the corrections that follow it in its beat (R476). -/
def ledgerCloseNow (s : State) (r : WindowReadings) : State :=
  let s := checkHold (measured s r)
  let s := closeThermal (applySets s)
  let s := modPower s (fun p => closeWarn { p with closes := p.closes + 1, closeDue := false })
  let s := modPower s (fun p => refill { p with meff := moduleAllowance s })
  let ids := budgetWaits s
  closeHold (applyCorrections (completeAll (closeParts s) ids { status := .ok }))

/-- LEDGER_CLOSE (R475): a close that has fallen due, or one of the local clock while BEAT_LOST is in force. -/
def execLedgerClose (r : WindowReadings) (s : State) : Host.Outcome State Fault Refusal :=
  .next (if isRunning s && (s.power.closeDue || s.beat.lost) then ledgerCloseNow s r else s)

/-! ### BUDGET_SET and LEDGER_READ -/

/-- R486: BUDGET_SET of a partition: the refusals in order. -/
def budgetError (s : State) (c : Cmd) (p credits : Nat) : Option (Status × Nat) :=
  firstError
    [((queueWho s c.queue).any (fun x => x != p), .denied, 0x2E40),
     (decide (4352 < credits) && credits != 0xFFFFFFFF, .badParam, 0x2E01),
     (!partActive s p, .badParam, 0x2E02)]

/-- BUDGET_SET with MODULE = 0 (R486). -/
def startBudgetSet (p credits : Nat) (s : State) (c : Cmd) : State :=
  orFail s c (budgetError s c p credits)
    (setWait (modPower s (fun v => { v with
      nextSets := v.nextSets ++ [(p, if credits = 0xFFFFFFFF then none else some credits)] })) c.id .ledgerClose)

/-- BUDGET_SET. -/
def execBudgetSet (h : Hdr) (partition : Fin 16) (credits : BitVec 32) (s : State) : Host.Outcome State Fault Refusal :=
  .next (command s h (.budgetSet h partition credits) .any none (startBudgetSet partition.val credits.toNat))

/-- BUDGET_SET with MODULE = 1 (R486). -/
def startBudgetSetModule (credits : Nat) (s : State) (c : Cmd) : State :=
  orFail s c
    (firstError
      [((queueWho s c.queue).isSome, .denied, 0x2E40), (decide (credits < 1536) || decide (4352 < credits), .badParam, 0x2E01)])
    (setWait (modPower s (fun v => { v with nextProgrammed := some credits })) c.id .ledgerClose)

/-- BUDGET_SET with MODULE. -/
def execBudgetSetModule (h : Hdr) (partition : Fin 16) (credits : BitVec 32) (s : State) : Host.Outcome State Fault Refusal :=
  .next (command s h (.budgetSetModule h partition credits) .any none (startBudgetSetModule credits.toNat))

/-- `PWR_STATUS` bits [15:0]. -/
def pwrCauses (s : State) : Nat :=
  let p := s.power
  boolNat (p.programmed.isNone && decide (p.closes ≤ 16)) + 2 * boolNat p.warn + 4 * boolNat p.cut + 8 * boolNat s.beat.lost
    + 16 * boolNat (decide (p.thermalCap < 4352)) + 32 * boolNat p.hold + 64 * boolNat p.pin

/-- R484: the rates of a partition's running slices, saturating at 0xFFFF. -/
def partRate (s : State) (p : Nat) : Nat :=
  min 0xFFFF ((s.runs.filter (fun r => r.partition == p)).foldl (fun n r => n + runRate s r) 0)

/-- R487: SET of a partition: 0xFFFF_FFFF when unset or inactive. -/
def partSet (s : State) (p : Nat) : Nat := if partActive s p then (partPower s p).set.getD 0xFFFFFFFF else 0xFFFFFFFF

/-- R487: a partition's entry of LEDGER_READ. -/
def ledgerEntry (s : State) (p : Nat) : List Byte :=
  let v := partPower s p
  let on := partActive s p
  leBytes 4 (partSet s p) ++ leBytes 2 (if on then v.eff else 0) ++ leBytes 2 (partRate s p)
    ++ leBytes 8 (twosBits 64 (if on then wholeCredits v.balance else 0))

/-- R487: the record of LEDGER_READ. -/
def ledgerBytes (s : State) (who : Option Nat) : List Byte :=
  let p := s.power
  leBytes 8 s.beat.count ++ leBytes 2 (p.programmed.getD 0) ++ leBytes 2 p.meff ++ leBytes 2 (overdraft s)
    ++ leBytes 2 (pwrCauses s) ++ leBytes 8 (twosBits 64 (wholeCredits p.balance))
    ++ leBytes 8 (getBits (getReg s .pwrEnergy 4 0) 0 63) ++ leBytes 32 0
    ++ (List.range 16).flatMap (fun i => if who.any (fun x => x != i) then leBytes 16 0 else ledgerEntry s i)

/-- LEDGER_READ (R487). -/
def startLedgerRead (dest : Nat) (s : State) (c : Cmd) : State :=
  let s := sampleEnergy s
  deliver s c dest (ledgerBytes s (queueWho s c.queue))

/-- LEDGER_READ. -/
def execLedgerRead (h : Hdr) (dest : BitVec 64) (s : State) : Host.Outcome State Fault Refusal :=
  .next (command s h (.ledgerRead h dest) .any none (startLedgerRead dest.toNat))

end Sys2Proof.Machine
end

