-- ==== Sys2Proof/Machine/Exchange.lean ====
section
/-!
DEFINITION. The exchange engines (08_experts_sequence.md): the doorbell (R242 to R245), the exchange descriptor (R244), placement (R248),
the five exchanges and their completion (R246 to R256), and the load counters (R255).
-/
namespace Sys2Proof.Machine

/-! ### Configuration -/

/-- R236 to R239: a partition's exchange configuration: its route table range, its shape with strides in bytes, and its areas. -/
structure ExchConfig where
  base  : Nat
  len   : Nat
  cap   : Nat
  srcs  : Nat
  inStride  : Nat
  outStride : Nat
  inBase  : Nat
  cntBase : Nat
  outBase : Nat
  retBase : Nat
  deriving DecidableEq, Repr

/-- A partition's exchange configuration. -/
def exchConfig (s : State) (p : Nat) : ExchConfig :=
  let r := fun k => getReg s k 0 p
  let addr := fun k => getBits (r k) 0 44
  { base := getBits (r .expPartTable) 0 16, len := getBits (r .expPartTable) 16 17
    cap := getBits (r .expPartShape) 0 16, srcs := getBits (r .expPartShape) 16 4 + 1
    inStride := 32 * getBits (r .expPartShape) 32 16, outStride := 32 * getBits (r .expPartShape) 48 16
    inBase := addr .expPartIn, cntBase := addr .expPartCnt, outBase := addr .expPartOut, retBase := addr .expPartRet }

/-- R236: a route table entry: its home's E coordinate and tile, its slot and its spill expert. -/
structure Route where
  homeE : Nat
  tile  : Nat
  spill : Option Nat
  slot  : Nat
  deriving DecidableEq, Repr

/-- R237, R238: the entry of an expert number of a partition; none when the route is unrouted. -/
def routeOf (s : State) (p : Nat) (g : ExchConfig) (e : Nat) : Option Route :=
  let n := g.base + e
  let w := getReg s .expRoute 0 n
  let valid := natBit (getReg s .expRouteValid 0 (n / 64)).toNat (n % 64)
  if e < g.len ∧ valid ∧ getBits w 0 16 < (axisOf s p 3).2.1 then
    some ⟨getBits w 0 16, getBits w 16 2, if natBit w.toNat 18 then some (getBits w 19 16) else none, getBits w 35 12⟩
  else none

/-! ### The descriptor -/

/-- R244: an exchange descriptor's fields; `count` is EXP_COUNT + 1. -/
structure ExchDesc where
  op     : Nat
  recv   : Nat
  done   : Nat
  k      : Nat
  src    : Nat
  id     : Nat
  n      : Nat
  rowLen : Nat
  srcAddr : Nat
  route  : Nat
  weight : Nat
  out    : Nat
  tokenBase : Nat
  tensor : Nat
  first  : Nat
  count  : Nat
  yFmt   : Nat
  outFmt : Nat
  sr     : Bool
  axis   : Nat
  step   : Int
  deriving DecidableEq, Repr

/-- R244: a descriptor read. -/
def exchDesc (d : List Byte) : ExchDesc :=
  let b := fun o => fieldLe d o 1
  let a44 := fun o => fieldLe d o 8 % 2 ^ 44
  { op := b 0 % 16, recv := b 0 / 16 % 4, done := b 1 % 64, k := b 2 % 8 + 1, src := b 3 % 16, id := fieldLe d 4 2
    n := fieldLe d 8 4 % 2 ^ 17, rowLen := fieldLe d 12 3, srcAddr := a44 16, route := a44 24, weight := a44 32, out := a44 40
    tokenBase := fieldLe d 48 4, tensor := fieldLe d 52 4, first := fieldLe d 56 2, count := fieldLe d 58 2 + 1
    yFmt := b 60 % 16, outFmt := b 60 / 16, sr := natBit (b 61) 0, axis := b 61 / 2 % 8
    step := (BitVec.ofNat 16 (fieldLe d 62 2)).toInt }

/-- R244: a 44-bit address field at byte `o`: zero unless the OP names it, its upper bits zero, and aligned. -/
def exchAddr (d : List Byte) (o : Nat) (named : Bool) (align : Nat) : List (Bool × Nat) :=
  [((!named && fieldLe d o 8 % 2 ^ 44 != 0) || fieldLe d o 8 % 2 ^ 44 % align != 0, o),
    (fieldLe d (o + 5) 1 / 16 != 0 || !zeroBytes d (o + 6) 2, o + 5)]

/-- R244, R247: the lowest faulty byte offset of a descriptor under a configuration (log entry 30). -/
def exchFault (g : ExchConfig) (d : List Byte) : Option Nat :=
  let x := exchDesc d
  let op := x.op
  let disp := op == 0
  let comb := op == 2
  let shift := op == 4
  let counted := disp || comb || shift || (op == 3 && x.recv == 2)
  let z := fun (named : Bool) (o n : Nat) => (!named && !zeroBytes d o n, o)
  lowestBad (
    [(decide (4 < op) || (op == 3 && x.recv == 3) || (op != 3 && x.recv != 0) || decide (64 ≤ fieldLe d 0 1), 0),
      (decide (64 ≤ fieldLe d 1 1), 1), (decide (8 ≤ fieldLe d 2 1) || (!(disp || comb) && x.k != 1), 2),
      (decide (16 ≤ fieldLe d 3 1) || decide (g.srcs ≤ x.src), 3), (!zeroBytes d 6 2, 6),
      (if counted then x.n == 0 || decide (65536 < x.n) else x.n != 0, 8), (decide (2 ≤ fieldLe d 10 2), 10),
      (x.rowLen % 32 != 0 || (disp && (decide (g.inStride < x.rowLen) || g.cap == 0))
        || ((op == 1 || comb) && decide (g.outStride < x.rowLen)), 12), (fieldLe d 15 1 != 0, 15)]
    ++ exchAddr d 16 (disp || shift) 32 ++ exchAddr d 24 (disp || comb) 4 ++ exchAddr d 32 comb 4
    ++ exchAddr d 40 (comb || shift) 32
    ++ [z comb 48 4, z comb 52 4, (if comb then decide (2 < x.yFmt ∨ 2 < x.outFmt) else fieldLe d 60 1 != 0, 60),
      (decide (16 ≤ fieldLe d 61 1) || (!comb && x.sr) || (if shift then decide (4 < x.axis) else x.axis != 0), 61),
      z shift 62 2, (!zeroBytes d 64 64, 64)])

/-! ### Reads and writes of an exchange -/

/-- What an exchange has done so far: the state, the detail of the first access that was answered POISONED (R280, R313), whether it
sent anything to another module. -/
structure ExchAcc where
  s      : State
  poison : Option Nat
  remote : Bool

/-- An exchange's read for a partition. -/
def exchRead (acc : ExchAcc) (p a n : Nat) : List Byte × ExchAcc :=
  let r := readRange acc.s (waysOf acc.s (some p)) a n
  let f := fillPieces r.1 r.2
  (f.1, { acc with s := f.2, poison := acc.poison <|> (firstPoison r.1).map (poisonDetail f.2) })

/-- R267: an exchange's read of one row: a row of 32 bytes in HBM runs on the sector tap. -/
def exchRow (acc : ExchAcc) (p a n : Nat) : List Byte × ExchAcc :=
  if n = 32 ∧ a % 32 = 0 ∧ inHbm a then
    let r := tapRead acc.s (waysOf acc.s (some p)) (a / 32)
    match r.1 with
    | some b => (b, { acc with s := r.2 })
    | none =>
      let f := freeBytes r.2 32
      (f.1, { acc with s := f.2, poison := acc.poison <|> some (poisonDetail f.2 a) })
  else exchRead acc p a n

/-- R267: an exchange's write of one row for a partition, on the sector tap when it is one of 32 bytes in HBM. -/
def exchWrite (acc : ExchAcc) (p a : Nat) (b : List Byte) : ExchAcc :=
  let ways := waysOf acc.s (some p)
  let s := if b.length = 32 ∧ a % 32 = 0 ∧ inHbm a then tapWrite acc.s ways (a / 32) b else writeRange acc.s ways a b
  { acc with s := s, poison := acc.poison <|> writeLost s a b.length }

/-- R251: `n` records counted at a tile. -/
def holdRecord (s : State) (t p id kind src : Nat) (n : Nat) : State :=
  let e := exchEngine s t
  let same := fun (h : ExchHeld) => h.partition == p && h.exchId == id && h.kind == kind && h.srcIdx == src
  let old := match e.records.find? same with
    | some h => h.count
    | none => 0
  setExch s t { e with records := e.records.filter (fun h => !same h) ++ [⟨p, id, kind, src, old + n⟩] }

/-- A row of a record written for a partition, on the sector tap when it is one of 32 bytes in HBM (R267). -/
def writeRow (p site : Nat) (s : State) (r : BitVec 44 × List Byte) : State :=
  let a := r.1.toNat
  if r.2.length = 32 ∧ a % 32 = 0 ∧ inHbm a then
    match accessError s (some p) site a 32 with
    | some e => accessEvent s e
    | none => tapWrite s (waysOf s (some p)) (a / 32) r.2
  else storeFor s (some p) site a r.2

/-- The rows of a record written for a partition. -/
def writeRows (p site : Nat) (s : State) (rows : List (BitVec 44 × List Byte)) : State := rows.foldl (writeRow p site) s

/-- R313: the detail of the first row whose write was answered POISONED. -/
def rowsLost (s : State) (rows : List (BitVec 44 × List Byte)) : Option Nat :=
  (rows.filterMap (fun r => writeLost s r.1.toNat r.2.length)).head?

/-- R249, R252, R256: one record and its rows go to a tile of a module: this module's own memory and engine, or another
module, once the transport sends (R341, R351). -/
def sendRecord (acc : ExchAcc) (p tile pkg : Nat) (r : ExchRecord) : ExchAcc :=
  if pkg = ownPkg acc.s then
    let s := writeRows p tile acc.s r.rows
    { acc with s := holdRecord s tile p r.exchId.toNat r.kind.val r.srcIdx.val 1, poison := acc.poison <|> rowsLost s r.rows }
  else if transportOn acc.s then { acc with s := { acc.s with exchOut := acc.s.exchOut ++ [⟨pkg, tile, r⟩] }, remote := true }
  else { acc with s := { acc.s with exchWait := acc.s.exchWait ++ [⟨pkg, tile, r⟩] }, remote := true }

/-- A record of a partition. -/
def exchRecord (p id : Nat) (kind : Fin 3) (src : Nat) (rows : List (Nat × List Byte)) : ExchRecord :=
  ⟨Fin.ofNat 16 p, BitVec.ofNat 16 id, kind, Fin.ofNat 16 src, rows.map (fun r => (BitVec.ofNat 44 r.1, r.2))⟩

/-- The tile that serves a partition's doorbell line (R242). -/
def doorbellTile (s : State) (p : Nat) : Nat := homeOf s (getBits (getReg s .expPartDoorbell 0 p) 0 44)

/-! ### Placement (R248) -/

/-- What placement has decided so far: the next position of each expert, the placed routes as (token row, slot, expert,
position), the routes it dropped and considered by their own expert, and the routes that were unrouted. -/
structure Placement where
  pos      : SMap Nat
  placed   : List (Nat × Nat × Nat × Nat)
  dropped  : List Nat
  routed   : List Nat
  unrouted : Nat
  deriving DecidableEq, Repr

/-- An expert number lies in the exchange's range. -/
def inRange (x : ExchDesc) (e : Nat) : Bool := decide (x.first ≤ e ∧ e < x.first + x.count)

/-- The position an expert next fills. -/
def posOf (a : Placement) (e : Nat) : Nat := mapGet (fun _ => 0) a.pos e

/-- R248: token row `n` and slot `m` placed in an expert. -/
def placeIn (a : Placement) (n m e : Nat) : Placement :=
  { a with pos := mapSet (fun _ => 0) a.pos e (posOf a e + 1), placed := a.placed ++ [(n, m, e, posOf a e)] }

/-- R248: one route placed, spilled or dropped. A spill expert outside the exchange, or itself unrouted, takes none. -/
def placeRoute (table : Nat → Option Route) (x : ExchDesc) (cap : Nat) (a : Placement) (n m e : Nat) : Placement :=
  if e = 0xFFFFFFFF then a
  else
    match table e with
    | none => { a with unrouted := a.unrouted + 1 }
    | some r =>
      let a := { a with routed := a.routed ++ [e] }
      if posOf a e < cap then placeIn a n m e
      else
        match r.spill with
        | some e2 =>
          if inRange x e2 && (table e2).isSome && decide (posOf a e2 < cap) then placeIn a n m e2
          else { a with dropped := a.dropped ++ [e] }
        | none => { a with dropped := a.dropped ++ [e] }

/-- R248: the routes of an exchange placed in ascending token row and slot; `route n m` is the expert number. -/
def placeAll (table : Nat → Option Route) (x : ExchDesc) (cap : Nat) (route : Nat → Nat → Nat) : Placement :=
  (List.range x.n).foldl (fun a n => (List.range x.k).foldl (fun a m => placeRoute table x cap a n m (route n m)) a)
    ⟨[], [], [], [], 0⟩

/-- R235: the expert number of token row `n` and slot `m` in a route list. -/
def routeAt (list : List Byte) (n m : Nat) : Nat := fieldLe list (32 * n + 4 * m) 4

/-- R248: a route names an expert outside the exchange's range. -/
def routeOutside (x : ExchDesc) (route : Nat → Nat → Nat) : Bool :=
  (List.range x.n).any (fun n => (List.range x.k).any (fun m =>
    let e := route n m
    decide (e ≠ 0xFFFFFFFF) && !inRange x e))

/-! ### Load counters -/

/-- R255: an expert's load count raised on a tile. -/
def countLoad (dropped : Bool) (base tile : Nat) (s : State) (e : Nat) : State :=
  let w := getReg s .expLoad tile (base + e)
  let r := getBits w 0 32
  let d := getBits w 32 31
  let full := if dropped then decide (0x7FFFFFFE ≤ d) else decide (0xFFFFFFFE ≤ r)
  let w := if dropped then setBits w 32 31 (min (d + 1) 0x7FFFFFFF) else setBits w 0 32 (min (r + 1) 0xFFFFFFFF)
  setReg s .expLoad tile (base + e) (if full then setBits w 63 1 1 else w)

/-! ### Ends -/

/-- The cluster that now serves the slice and the rank for which an exchange was requested: none once the slice has ended, or while it
is suspended. -/
def exchServer (s : State) (r : ExchReq) : Option Nat :=
  (List.range 64).find? (fun c =>
    let v := cluster s c
    clusterServes v && v.run == r.run && v.slice == r.slice && v.rank == r.rank)

/-- The slice for which an exchange was requested has not ended. -/
def exchLives (s : State) (r : ExchReq) : Bool :=
  match findRun s r.run with
  | some x => (sliceRun x r.slice).status != .completed
  | none => false

/-- R247: an exchange ends the slice that requested it; one that is suspended ends with its run, and nothing is left to end of a slice
that has ended (R458). -/
def exchEnds (s : State) (r : ExchReq) (st : Status) (detail : Nat) : State :=
  match exchServer s r with
  | some c => endSlice s c st detail
  | none => if exchLives s r then faultRun s r.run st detail else s

/-- R247: a fault of an exchange: recorded, and the requesting cluster's slice ends. -/
def exchFails (s : State) (tile : Nat) (r : ExchReq) (code offset : Nat) (st : Status) (detail : Nat) : State :=
  let s := setField (setFlag s .expStatus tile 0 9) .expStatus tile 0 10 2 code
  let s := if code = 0 then setField s .expStatus tile 0 16 8 offset else s
  exchEnds (raiseEvent s (tileSrc tile 27)) r st detail

/-- R245: a held doorbell write enters the queue when it has room. -/
def admitHeld (s : State) (t : Nat) : State :=
  let e := exchEngine s t
  match e.held with
  | [] => s
  | r :: rest => if e.queue.length < 256 then setExch s t { e with queue := e.queue ++ [r], held := rest } else s

/-- R245: the first request of a queue that its cluster has waiting, of an OP or of a reserved one. -/
def firstRequest (op : Nat) : List Nat → List ExchReq → Option ExchReq
  | _, [] => none
  | seen, r :: t =>
    let o := fieldLe r.desc 0 1 % 16
    if !seen.contains r.cluster && (o == op || decide (4 < o)) then some r else firstRequest op (r.cluster :: seen) t

/-- The first of equal requests removed. -/
def dropRequest (r : ExchReq) : List ExchReq → List ExchReq
  | [] => []
  | x :: t => if x = r then t else x :: dropRequest r t

/-- An exchange that has begun is running until its completion. -/
def addExch (s : State) (t : Nat) (v : ExchRun) : State :=
  let e := exchEngine s t
  setExch s t { e with running := e.running ++ [v] }

/-- An exchange whose effects are done runs until its bytes have arrived; one that read poison ends the slice (R280, log entry
31). -/
def closeExch (acc : ExchAcc) (t p : Nat) (r : ExchReq) (x : ExchDesc) : State :=
  match acc.poison with
  | some d => exchEnds acc.s r .poisoned d
  | none => addExch acc.s t ⟨r, p, x.id, 0, x.src, 0, false, acc.s.beat.waits, acc.remote⟩

/-- The first of a list of ranges that lies outside the partition's memory, which is its extents (R432): a cluster store is none of
it. -/
def rangesError (s : State) (p tile : Nat) : List (Nat × Nat) → Option (Option Nat)
  | [] => none
  | (a, n) :: t =>
    if n ≠ 0 && inStore a then some none
    else
      match accessError s (some p) tile a n with
      | some e => some e
      | none => rangesError s p tile t

/-- R247: an address of an exchange outside its partition's memory. -/
def exchDenied (s : State) (tile : Nat) (r : ExchReq) (e : Option Nat) : State :=
  exchFails (accessEvent s e) tile r 1 0 .denied 0x2590

/-! ### The exchanges -/

/-- R248: q and G: this source's index and the number of sources. -/
def sourceIndex (s : State) (p : Nat) (g : ExchConfig) (src : Nat) : Nat × Nat :=
  ((axisOf s p 3).1 * g.srcs + src, (axisOf s p 3).2.1 * g.srcs)

/-- R249: what a DISPATCH sends to the home of one expert: its count word, its placed rows and its zero positions. -/
def dispatchRows (g : ExchConfig) (region : Nat) (e : Nat) (a : Placement) (row : Nat → List Byte) :
    List (Nat × List Byte) :=
  let at_ := fun p => g.inBase + (region * g.cap + p) * g.inStride
  (g.cntBase + 4 * region, leBytes 4 (posOf a e))
    :: (a.placed.filter (fun t => t.2.2.1 == e)).map (fun t => (at_ t.2.2.2, row t.1))
    ++ (List.range (g.cap - posOf a e)).map (fun i => (at_ (posOf a e + i), List.replicate g.inStride 0))

/-- R249, R250: a DISPATCH sends to the home of one expert. -/
def dispatchExpert (p : Nat) (g : ExchConfig) (x : ExchDesc) (a : Placement) (row : Nat → List Byte) (q gsize : Nat)
    (acc : ExchAcc) (e : Nat) : ExchAcc :=
  match routeOf acc.s p g e with
  | none => acc
  | some r =>
    sendRecord acc p r.tile (packageAt acc.s p [(3, r.homeE)])
      (exchRecord p x.id 0 q (dispatchRows g (r.slot * gsize + q) e a row))

/-- The expert numbers of an exchange. -/
def expertsOf (x : ExchDesc) : List Nat := (List.range x.count).map (fun i => x.first + i)

/-- R352: a home of the exchange that the axis map leaves unroutable. -/
def homesUnroutable (s : State) (p : Nat) (g : ExchConfig) (x : ExchDesc) : Bool :=
  (expertsOf x).any (fun e => match routeOf s p g e with
    | some r => packageAt s p [(3, r.homeE)] == 0xFFFF
    | none => false)

/-- R352: a transfer to an unroutable module ends the slice. -/
def exchNoRoute (s : State) (r : ExchReq) : State := exchEnds s r .noResource 0x2A02

/-- R249: the areas that a DISPATCH writes in this module: the count words and regions of the experts at home here. -/
def dispatchAreas (s : State) (p : Nat) (g : ExchConfig) (x : ExchDesc) : List (Nat × Nat) :=
  let qg := sourceIndex s p g x.src
  (expertsOf x).flatMap (fun e => match routeOf s p g e with
    | some r =>
      if packageAt s p [(3, r.homeE)] = ownPkg s then
        let region := r.slot * qg.2 + qg.1
        [(g.cntBase + 4 * region, 4), (g.inBase + region * g.cap * g.inStride, g.cap * g.inStride)]
      else []
    | none => [])

/-- DISPATCH (R248 to R250, R255). -/
def doDispatch (s : State) (t p : Nat) (g : ExchConfig) (r : ExchReq) (x : ExchDesc) : State :=
  match rangesError s p t ([(x.route, 32 * (x.n - 1) + 4 * x.k), (x.srcAddr, x.n * x.rowLen)] ++ dispatchAreas s p g x) with
  | some e => exchDenied s t r e
  | none =>
    let l := exchRead ⟨s, none, false⟩ p x.route (32 * (x.n - 1) + 4 * x.k)
    let route := routeAt l.1
    if routeOutside x route then exchFails l.2.s t r 0 24 .badParam (0x2500 + 24)
    else if homesUnroutable l.2.s p g x then exchNoRoute l.2.s r
    else
      let a := placeAll (routeOf s p g) x g.cap route
      let d := (List.range x.n).foldl (fun (q : List (List Byte) × ExchAcc) n =>
        let r := exchRow q.2 p (x.srcAddr + n * x.rowLen) x.rowLen
        (q.1 ++ [r.1], r.2)) ([], l.2)
      let row := fun n => d.1.getD n []
      let qg := sourceIndex s p g x.src
      let acc := (expertsOf x).foldl (dispatchExpert p g x a row qg.1 qg.2) d.2
      let s := a.routed.foldl (countLoad false g.base t) acc.s
      let s := a.dropped.foldl (countLoad true g.base t) s
      let s := if a.unrouted = 0 then s else count s .expUnrouted t 0 a.unrouted
      closeExch { acc with s := s } t p r x

/-- R252: the rows of one expert and source that a RETURN sends, as many as its count word says. -/
def returnRows (acc : ExchAcc) (p : Nat) (g : ExchConfig) (x : ExchDesc) (region retRegion : Nat) :
    List (Nat × List Byte) × ExchAcc :=
  let c := exchRead acc p (g.cntBase + 4 * region) 4
  let n := min (fieldLe c.1 0 4) g.cap
  (List.range n).foldl (fun a i =>
    let d := exchRow a.2 p (g.outBase + (region * g.cap + i) * g.outStride) x.rowLen
    (a.1 ++ [(g.retBase + (retRegion * g.cap + i) * g.outStride, d.1)], d.2)) ([], c.2)

/-- R252: a RETURN sends one expert's rows to one source. -/
def returnTo (t p : Nat) (g : ExchConfig) (x : ExchDesc) (gsize e slot : Nat) (acc : ExchAcc) (q : Nat) : ExchAcc :=
  let src := q % g.srcs
  let rows := returnRows acc p g x (slot * gsize + q) (src * x.count + (e - x.first))
  sendRecord rows.2 p t (packageAt acc.s p [(3, q / g.srcs)]) (exchRecord p x.id 1 src rows.1)

/-- The experts of an exchange that this tile of this module serves, with their slots. -/
def servedHere (s : State) (t p : Nat) (g : ExchConfig) (x : ExchDesc) : List (Nat × Nat) :=
  (expertsOf x).filterMap (fun e => match routeOf s p g e with
    | some r => if r.homeE = (axisOf s p 3).1 ∧ r.tile = t then some (e, r.slot) else none
    | none => none)

/-- R252: the areas that a RETURN writes in this module: the regions of the experts it serves for the sources that are its own. -/
def returnAreas (s : State) (p : Nat) (g : ExchConfig) (x : ExchDesc) (mine : List (Nat × Nat)) : List (Nat × Nat) :=
  ((List.range (sourceIndex s p g 0).2).filter (fun q => packageAt s p [(3, q / g.srcs)] == ownPkg s)).flatMap (fun q =>
    mine.map (fun e => (g.retBase + (q % g.srcs * x.count + (e.1 - x.first)) * g.cap * g.outStride, g.cap * g.outStride)))

/-- RETURN (R252). -/
def doReturn (s : State) (t p : Nat) (g : ExchConfig) (r : ExchReq) (x : ExchDesc) : State :=
  let gsize := (sourceIndex s p g 0).2
  let mine := servedHere s t p g x
  let areas := mine.flatMap (fun e => [(g.cntBase + 4 * (e.2 * gsize), 4 * gsize),
    (g.outBase + e.2 * gsize * g.cap * g.outStride, gsize * g.cap * g.outStride)])
  match rangesError s p t (areas ++ returnAreas s p g x mine) with
  | some e => exchDenied s t r e
  | none =>
    if !mine.isEmpty && (List.range (axisOf s p 3).2.1).any (fun c => packageAt s p [(3, c)] == 0xFFFF) then
      exchNoRoute s r
    else
      closeExch (mine.foldl (fun acc e =>
        (List.range gsize).foldl (returnTo (doorbellTile s p) p g x gsize e.1 e.2) acc) ⟨s, none, false⟩) t p r x

/-- R253: one element of a combined row, rounded and converted. -/
def combineElem (x : ExchDesc) (seed : BitVec 64) (terms : List (F32 × List Byte)) (n j : Nat) : Nat :=
  let y := fmtOf x.yFmt
  let b := fmtBits y / 8
  let sum := rndFp32 (xSum (terms.map (fun t => extMul (decode32 t.1) (elemDecode y (fieldLe t.2 (b * j) b)))))
  encodePlain (fmtOf x.outFmt) (convMode x.sr seed x.tensor ((x.tokenBase + n) % 2 ^ 32) j) false (decode32 sum)

/-- R253: one output row of a COMBINE read, summed and written. -/
def combineRow (p : Nat) (g : ExchConfig) (x : ExchDesc) (seed : BitVec 64) (a : Placement) (weights : List Byte)
    (acc : ExchAcc) (n : Nat) : ExchAcc :=
  let width := x.rowLen / (fmtBits (fmtOf x.yFmt) / 8)
  let bytes := fmtBits (fmtOf x.outFmt) / 8
  let r := (a.placed.filter (fun t => t.1 == n)).foldl (fun q t =>
    let d := exchRow q.2 p (g.retBase + ((x.src * x.count + (t.2.2.1 - x.first)) * g.cap + t.2.2.2) * g.outStride) x.rowLen
    (q.1 ++ [(wordAt weights (8 * n + t.2.1), d.1)], d.2)) ([], acc)
  let out := (List.range width).flatMap (fun j => leBytes bytes (combineElem x seed r.1 n j))
  exchWrite r.2 p (x.out + n * width * bytes) out

/-- COMBINE (R253). -/
def doCombine (s : State) (t p : Nat) (g : ExchConfig) (r : ExchReq) (x : ExchDesc) : State :=
  let list := 32 * (x.n - 1) + 4 * x.k
  let out := x.n * (x.rowLen / (fmtBits (fmtOf x.yFmt) / 8)) * (fmtBits (fmtOf x.outFmt) / 8)
  match rangesError s p t [(x.route, list), (x.weight, list),
      (g.retBase + x.src * x.count * g.cap * g.outStride, x.count * g.cap * g.outStride), (x.out, out)] with
  | some e => exchDenied s t r e
  | none =>
    let l := exchRead ⟨s, none, false⟩ p x.route list
    let route := routeAt l.1
    if routeOutside x route then exchFails l.2.s t r 0 24 .badParam (0x2500 + 24)
    else
      let w := exchRead l.2 p x.weight list
      let a := placeAll (routeOf s p g) x g.cap route
      closeExch ((List.range x.n).foldl (combineRow p g x r.seed a w.1) w.2) t p r x

/-- R251: the records a RECEIVE expects. -/
def recordsExpected (s : State) (t p : Nat) (g : ExchConfig) (x : ExchDesc) : Nat :=
  match x.recv with
  | 0 => (sourceIndex s p g 0).2 * (servedHere s t p g x).length
  | 1 => ((expertsOf x).filter (fun e => (routeOf s p g e).isSome)).length
  | _ => x.n

/-- RECEIVE (R251): it waits for its records. -/
def doReceive (s : State) (t p : Nat) (g : ExchConfig) (r : ExchReq) (x : ExchDesc) : State :=
  addExch s t ⟨r, p, x.id, x.recv, x.src, recordsExpected s t p g x, true, s.beat.waits, false⟩

/-- R256: the coordinate of a SHIFT's target on its axis. -/
def shiftCoord (s : State) (p : Nat) (x : ExchDesc) : Nat :=
  let a := axisOf s p x.axis
  (((a.1 : Int) + x.step) % (a.2.1 : Int)).toNat

/-- SHIFT (R256). -/
def doShift (s : State) (t p : Nat) (r : ExchReq) (x : ExchDesc) : State :=
  let c := shiftCoord s p x
  let pkg := packageAt s p [(x.axis, c)]
  if (axisOf s p x.axis).2.1 ≤ c ∨ pkg = 0xFFFF then exchNoRoute s r
  else
    let n := x.n * x.rowLen
    match rangesError s p t ((x.srcAddr, n) :: (if pkg = ownPkg s then [(x.out, n)] else [])) with
    | some e => exchDenied s t r e
    | none =>
      let d := (List.range x.n).foldl (fun (q : List (Nat × List Byte) × ExchAcc) i =>
        let r := exchRow q.2 p (x.srcAddr + i * x.rowLen) x.rowLen
        (q.1 ++ [(x.out + i * x.rowLen, r.1)], r.2)) ([], ⟨s, none, false⟩)
      closeExch (sendRecord d.2 p (doorbellTile s p) pkg (exchRecord p x.id 2 0 d.1)) t p r x

/-- R244, R245, R247: a tile's engine starts its next request of an OP: the descriptor is checked, then carried out. -/
def startExch (s : State) (t op : Nat) (go : State → Nat → ExchConfig → ExchReq → ExchDesc → State) : State :=
  if s.phase != .running then s
  else
    let e := exchEngine s t
    match firstRequest op [] e.queue with
    | none => s
    | some r =>
      let s := admitHeld (setExch s t { e with queue := dropRequest r e.queue }) t
      let p := r.partition
      let g := exchConfig s p
      match exchFault g r.desc with
      | some o => exchFails s t r 0 o .badParam (0x2500 + o)
      | none => go s p g r (exchDesc r.desc)

/-- DISPATCH. -/
def execExchDispatch (tile : Fin 4) (s : State) : Host.Outcome State Fault Refusal :=
  .next (startExch s tile.val 0 (fun s p g r x => doDispatch s tile.val p g r x))

/-- RETURN. -/
def execExchReturn (tile : Fin 4) (s : State) : Host.Outcome State Fault Refusal :=
  .next (startExch s tile.val 1 (fun s p g r x => doReturn s tile.val p g r x))

/-- COMBINE. -/
def execExchCombine (tile : Fin 4) (s : State) : Host.Outcome State Fault Refusal :=
  .next (startExch s tile.val 2 (fun s p g r x => doCombine s tile.val p g r x))

/-- RECEIVE. -/
def execExchReceive (tile : Fin 4) (s : State) : Host.Outcome State Fault Refusal :=
  .next (startExch s tile.val 3 (fun s p g r x => doReceive s tile.val p g r x))

/-- SHIFT. -/
def execExchShift (tile : Fin 4) (s : State) : Host.Outcome State Fault Refusal :=
  .next (startExch s tile.val 4 (fun s p _ r x => doShift s tile.val p r x))

/-! ### Records and completion -/

/-- EXCHANGE_RECORD_ARRIVE (R251): a record from another module arrives at a tile with its rows and is counted; nothing arrives before the
first resynchronisation since reset (R341). -/
def execExchangeRecordArrive (tile : Fin 4) (r : ExchRecord) (s : State) : Host.Outcome State Fault Refusal :=
  .next (
    let p := r.partition.val
    if s.phase != .running || !s.beat.synced || !partActive s p then s
    else holdRecord (writeRows p tile.val s r.rows) tile.val p r.exchId.toNat r.kind.val r.srcIdx.val 1)

/-- A held record is one a RECEIVE counts (R251): a return record only under its source index. -/
def recordMatches (v : ExchRun) (h : ExchHeld) : Bool :=
  h.partition == v.partition && h.exchId == v.exchId && h.kind == v.kind && (v.kind != 1 || h.srcIdx == v.srcIdx)

/-- R251: the records that have arrived for a RECEIVE. -/
def recordsFor (e : ExchEngine) (v : ExchRun) : Nat := (e.records.filter (recordMatches v)).foldl (fun n h => n + h.count) 0

/-- A running exchange of a tile. -/
def exchRun (s : State) (t n : Nat) : Option ExchRun := (exchEngine s t).running[n]?

/-- A running exchange leaves its engine, with the records a RECEIVE counted. -/
def dropExch (s : State) (t n : Nat) (v : ExchRun) : State :=
  let e := exchEngine s t
  setExch s t { e with
    running := e.running.eraseIdx n
    records := if v.receive then e.records.filter (fun h => !recordMatches v h) else e.records }

/-- R246, R341: a record of an exchange still waits to be sent. -/
def exchUnsent (s : State) (v : ExchRun) : Bool :=
  v.remote && s.exchWait.any (fun e => e.rec_.partition.val == v.partition && e.rec_.exchId.toNat == v.exchId)

/-- EXCHANGE_COMPLETE (R246, R247, R251): the `n`-th running exchange of a tile completes and its DONE_TOKEN count is added, a
RECEIVE once its records have arrived; `lost` says that the network has abandoned one of its transfers. The count goes to the cluster
that serves the requesting slice: it waits while that is suspended, and goes nowhere once it has ended (log entry 78). -/
def execExchangeComplete (tile : Fin 4) (n : Nat) (lost : Bool) (s : State) : Host.Outcome State Fault Refusal :=
  .next (
    let t := tile.val
    match exchRun s t n with
    | none => s
    | some v =>
      let done := fun (s : State) => match exchServer s v.req with
        | some c => addToken (dropExch s t n v) c (exchDesc v.req.desc).done 1 3
        | none => if exchLives s v.req then s else dropExch s t n v
      if v.receive then (if v.expect ≤ recordsFor (exchEngine s t) v then done s else s)
      else if lost then
        (if v.remote then exchFails (dropExch s t n v) t v.req 3 0 .peerLost 0x2592 else s)
      else if exchUnsent s v then s
      else done s)

/-- RECEIVE_LIMIT_EXPIRE (R247): a RECEIVE has waited `EXP_RECV_LIMIT` beats. -/
def execReceiveLimitExpire (tile : Fin 4) (n : Nat) (s : State) : Host.Outcome State Fault Refusal :=
  .next (
    let t := tile.val
    match exchRun s t n with
    | none => s
    | some v =>
      let limit := getBits (getReg s .expRecvLimit t 0) 0 32
      if v.receive && decide (recordsFor (exchEngine s t) v < v.expect) && decide (v.since + limit ≤ s.beat.waits) then
        exchFails (dropExch s t n { v with receive := false }) t v.req 2 0 .peerLost 0x2591
      else s)

/-! ### The doorbell and the load counters -/

/-- EXP_DOORBELL_WRITE (R242, R243): a cluster writes a doorbell line: its own partition's whole line is a request, any other
write that the partition may make is stored and is a misuse. -/
def execExpDoorbellWrite (c : Fin 64) (addr : BitVec 44) (data : List Byte) (s : State) : Host.Outcome State Fault Refusal :=
  .next (
    let a := addr.toNat
    let p := (cluster s c.val).partition
    if !clusterServes (cluster s c.val) || !isDoorbell s (a / 128) || decide (128 < a % 128 + data.length) then s
    else if data.length = 128 ∧ doorbellOf s p = some a then ringDoorbell s c.val none a data
    else storeFor s (some p) (c.val / 16) a data)

/-- EXP_LOAD_READ (R10, R255): a 64-bit read of `EXP_LOAD` returns both counts and clears them. -/
def execExpLoadRead (a : Agent) (tile : Fin 4) (entry : Fin 65536) (s : State) : Host.Outcome State Fault Refusal :=
  .next (
    if s.phase != .running then s
    else
      let w := getReg s .expLoad tile.val entry.val
      answer (setReg s .expLoad tile.val entry.val (setBits w 0 63 0)) a false w)

end Sys2Proof.Machine
end

