-- ==== Sys2Proof/Machine/MemoryEvents.lean ====
section
/-!
DEFINITION. What happens to the memory by itself or by an access of its registers (09_memory.md), and a POISONED reply (R280, R315).
-/
namespace Sys2Proof.Machine

/-- STACK_DOWN (R264): a stack or channel stops answering. -/
def execStackDown (u : MemUnit) (s : State) : Host.Outcome State Fault Refusal :=
  .next (if s.phase = .off then s
    else { s with unitDown := mapSet (fun _ => false) s.unitDown (unitIndex u) true })

/-- The cellar lines that satisfy a test written back and invalidated. -/
def flushLines (s : State) (ok : Nat → Bool) : State :=
  ((mapKeys (fun c => c.isSome) s.cellar).filter ok).foldl evictLine s

/-- R262: a partition that is not free holds memory in a tile's range. -/
def tileHeld (s : State) (t : Nat) : Bool :=
  (List.range 16).any (fun p => (part s p).state != .free &&
    (part s p).desc.extents.any (fun e => decide (e.1 < 320 * (t + 1) ∧ 320 * t < e.1 + e.2)))

/-- SPREAD_CHANGE (R262, R263): a write of `MEM_CFG`.SPREAD; one that changes it is refused while a partition holds memory of the
tile. -/
def execSpreadChange (a : Agent) (tile : Fin 4) (spread : Bool) (s : State) : Host.Outcome State Fault Refusal :=
  .next (
    let t := tile.val
    if s.phase != .running then s
    else if natBit (getReg s .memCfg t 0).toNat 0 = spread then answer s a false 0
    else if tileHeld s t then reservedWrite (setFlag s .memStatus t 0 9) a (tileSrc t 20)
    else
      let s := flushLines s (fun l => inHbm (128 * l) && hbmTile (128 * l) == t)
      answer (setField (undefineRange s (t * 0x5000000000) 0x5000000000) .memCfg t 0 0 1 (boolNat spread)) a false 0)

/-- The scrub register of a unit. -/
def scrubReg (s : State) (u : Nat) : Word := getReg s (if u < 16 then .memScrub else .capScrub) (unitSite u) 0

/-- SCRUB_READ (R275): the patrol scrub reads a sector of memory that is not retired, while it is enabled and the beat is not
lost. -/
def execScrubRead (sector : BitVec 39) (s : State) : Host.Outcome State Fault Refusal :=
  .next (
    let a := 32 * sector.toNat
    if s.phase != .running || !isMemory s a || isRetired s a || s.beat.lost then s
    else if natBit (scrubReg s (unitOf s a)).toNat 40 then senseSector s sector.toNat else s)

/-- CORRECTION_ENTRY_EXPIRE (R281): an entry of a unit's correction table older than WINDOW beats is freed. -/
def execCorrectionEntryExpire (u : MemUnit) (sector : BitVec 39) (s : State) : Host.Outcome State Fault Refusal :=
  .next (
    let n := unitIndex u
    let window := getBits (getReg s (if n < 16 then .memRetireThresh else .capRetireThresh) (unitSite n) 0) 16 40
    let tab := mapGet (fun _ => []) s.corr n
    { s with corr := mapSet (fun _ => []) s.corr n (tab.filter (fun e =>
        !(e.sector == sector.toNat && decide (e.since + window < s.beat.waits)))) })

/-- R283: a report as the register shows it. -/
def reportWord (q : ReportQueue) : Word :=
  match q.reports with
  | [] => 0
  | r :: _ => BitVec.ofNat 64 (2 ^ 63 + boolNat q.overflow * 2 ^ 62 + r.count % 256 * 2 ^ 48 + r.unit % 16 * 2 ^ 44 + r.addr % 2 ^ 44)

/-- R4, R5: the `CAP_` block of a core site is absent. -/
def capAbsent (s : State) (site : Nat) : Bool := decide (4 ≤ site) && !capPresent s

/-- RETIRE_REPORT_READ (R283): a 64-bit read returns the oldest report and removes it. -/
def execRetireReportRead (a : Agent) (site : Fin 6) (s : State) : Host.Outcome State Fault Refusal :=
  .next (
    let q := mapGet (fun _ => (⟨[], false⟩ : ReportQueue)) s.reports site.val
    if s.phase != .running then s
    else if capAbsent s site.val then refuseAccess s a (controlSrc site.val)
    else if q.reports.isEmpty then answer s a false 0
    else answer { s with reports := mapSet (fun _ => ⟨[], false⟩) s.reports site.val ⟨q.reports.drop 1, false⟩ } a false (reportWord q))

/-- INJECT_WRITE (R290): the management controller arms the injection of bit errors, or disarms it with BITS 0; a write by any
other agent is ignored and raises an event. -/
def execInjectWrite (a : Agent) (site : Fin 6) (v : Word) (s : State) : Host.Outcome State Fault Refusal :=
  .next (
    if s.phase != .running then s
    else if capAbsent s site.val then refuseAccess s a (controlSrc site.val)
    else if a ≠ .mmc then reservedWrite s a (controlSrc site.val)
    else
      let bits := getBits v 44 2
      answer { s with inject := mapSet (fun _ => (0, 0)) s.inject site.val (bits, getBits v 5 39) } a false 0)

/-- R280: the detail of a POISONED reply to a data mover: the unit's code when the line's memory was poisoned (R315), else the
home's. -/
def poisonReplyDetail (s : State) (h : CohHdr) (payload : List Byte) : Nat :=
  let d := fieldLe payload 0 2
  if 0x2810 ≤ d ∧ d < 0x2814 then unitPoison s (128 * h.line) else d

/-- R280: the exchange that an engine has had running longest ends its slice. -/
def poisonExchange (s : State) (t detail : Nat) : State :=
  let e := exchEngine s t
  match e.running with
  | [] => s
  | x :: rest => exchEnds (setExch s t { e with running := rest }) x.req .poisoned detail

/-- R389: the contribution in progress, of a tile's jobs in their order, that an access answered POISONED belongs to: its command
completes POISONED with its roll, and data not yet encoded is held back. -/
def poisonClearing (s : State) (t detail : Nat) : State :=
  match (s.clr.filter (fun j => jobTile j == t)).findSome? (fun j =>
    ((List.range j.buckets.length).find? (fun b => (bucketOf j b).own.isSome)).map (fun b => (j.id, b))) with
  | none => s
  | some x => modBucket s x.1 x.2 (fun k => { k with own := k.own.map (fun o => { o with poison := o.poison <|> some detail }) })

/-- R507, row 1: a mill's oldest frame, or when it decodes none the picture it encodes, ends POISONED. -/
def poisonMill (s : State) (t detail : Nat) : State :=
  let d : Done := { status := .poisoned, detail := detail }
  match oldestFrame s t with
  | some (g, x, y) => endFrame s t g x y g.judged (1, d) x.fed
  | none =>
    let m := millOf s t
    match m.units.head?.bind (fun u => (findStream s u.stream).bind (fun x => (x.feeds.find? (fun f => f.number == u.feed)).map (fun f => (u, x, f)))) with
    | some (u, x, f) =>
      closeIfDone (endFeed (setMill s t { m with units := m.units.filter (fun k => k.feed != u.feed) }) u.stream x f (unparsed f 4 d)) u.stream
    | none => s

/-- R280, R302, R312, R315: a requester's access ends POISONED: a data mover whose cluster still serves the slice for which it was sent ends
it with the detail, and an exchange engine, a clearing unit or a mill ends what it has had in progress longest. An arriving
packet's accesses settle within its own row, so the network holds none to end (log entry 77). -/
def poisonRequester (s : State) (o : Outstanding) (detail : Nat) : State :=
  let src := o.req.src
  if o.serves.isSome && moverServes s src == o.serves then endSlice s (src - 132) .poisoned detail
  else if 196 ≤ src ∧ src < 200 then poisonExchange s (src % 4) detail
  else if 200 ≤ src ∧ src < 204 then poisonClearing s (src % 4) detail
  else if 204 ≤ src ∧ src < 208 then poisonMill s (src % 4) detail
  else s

/-- POISONED (R315, R280): the requester's access ends without data. -/
def execCohPoisoned (home : Fin 4) (m : CohMsg) (s : State) : Host.Outcome State Fault Refusal :=
  .next (cohReplyRow s home.val 0x16 m (fun h o =>
    let s := replied s h
    poisonRequester s o (poisonReplyDetail s h m.payload)))

/-- COHERENCE_REQUEST_TIMEOUT (R302): a request without a reply for 128 beats completes as POISONED at its requester, with detail
0x2830 + its home, and raises an event; the request itself may still be carried out. -/
def execCoherenceRequestTimeout (agent : Fin 256) (tag : BitVec 16) (s : State) : Host.Outcome State Fault Refusal :=
  .next (
    match s.outstanding.find? (fun o => o.req.src == agent.val && o.req.tag == tag.toNat) with
    | none => s
    | some o =>
      if s.beat.waits < o.since + 128 then s
      else
        let home := lineTile s o.req.line
        let s := { s with outstanding := s.outstanding.filter (fun x => !(x.req.src == agent.val && x.req.tag == tag.toNat)) }
        poisonRequester (raiseEvent s (tileSrc home 21)) o (0x2830 + home))

end Sys2Proof.Machine
end

