-- ==== Sys2Proof/Machine/Data.lean ====
section
/-!
DEFINITION. The data commands (R285 to R289, R410 to R413): COPY, FILL, GATHER_SECTORS, SCATTER_SECTORS, REMOTE_WRITE, REMOTE_READ
and PLACE. A command whose areas lie outside its issuer's rights completes DENIED before it moves anything (log entry 10).
-/
namespace Sys2Proof.Machine

/-! ### Local moves -/

/-- The first of several areas, as (address, bytes), that a command's issuer may not access. -/
def areasError (s : State) (c : Cmd) : List (Nat × Nat) → Option (Option Nat)
  | [] => none
  | (a, n) :: t =>
    match accessError s (queueWho s c.queue) (c.queue % 4) a n with
    | some e => some e
    | none => areasError s c t

/-- A command acts on areas that its issuer may access. -/
def withAreas (s : State) (c : Cmd) (areas : List (Nat × Nat)) (go : State) : State :=
  match areasError s c areas with
  | some e => fail (accessEvent s e) c.id .denied 0
  | none => go

/-- R280, R313: a data command completes, POISONED with the detail of the first access that was answered so. -/
def endData (s : State) (c : Cmd) (poison : Option Nat) : State :=
  match poison with
  | some d => fail s c.id .poisoned d
  | none => succeed s c.id 0

/-- What a COPY leaves where its two ranges overlap without being the same: the spec does not say in which order a COPY moves its
sectors, so the bytes are an unstated function of those its source held (log entry 33). -/
def blurOverlap (s : State) (ways src dst n : Nat) (held : List Byte) : State :=
  let lo := max src dst
  let hi := min src dst + n
  if src = dst ∨ hi ≤ lo then s
  else writeRange s ways lo ((List.range (hi - lo)).map (Config.copyOverlap src dst n held))

/-- COPY acts (R280). -/
def actCopy (src dst n : Nat) (s : State) (c : Cmd) : State :=
  let ways := waysOf s (queueWho s c.queue)
  let r := readRange s ways src n
  let w := copyPieces ways src dst ((firstPoison r.1).map (poisonDetail r.2)) r.1 r.2
  endData (blurOverlap w.2 ways src dst n (pieceBytes r.1)) c w.1

/-- COPY. -/
def startCopy (src dst n : Nat) (s : State) (c : Cmd) : State := withAreas s c [(src, n), (dst, n)] (actCopy src dst n s c)

/-- COPY. -/
def execCopy (h : Hdr) (src dst : BitVec 44) (len : BitVec 40) (s : State) : Host.Outcome State Fault Refusal :=
  .next (command s h (.copy h src dst len) .any (firstBad [(len.toNat % 32 != 0, 16)]) (startCopy src.toNat dst.toNat len.toNat))

/-- FILL: the pattern repeated. -/
def fillBytes (pattern n : Nat) : List Byte := (List.replicate (n / 8) (leBytes 8 pattern)).flatten

/-- FILL. -/
def startFill (dst n pattern : Nat) (s : State) (c : Cmd) : State :=
  withAreas s c [(dst, n)] (
    let w := putRange s (waysOf s (queueWho s c.queue)) dst (fillBytes pattern n)
    endData w.2 c w.1)

/-- FILL. -/
def execFill (h : Hdr) (dst : BitVec 44) (len : BitVec 40) (pattern : BitVec 64) (s : State) : Host.Outcome State Fault Refusal :=
  .next (command s h (.fill h dst len pattern) .any (firstBad [(len.toNat % 32 != 0, 8)])
    (startFill dst.toNat len.toNat pattern.toNat))

/-! ### Sectors -/

/-- The 8-byte entries of a list. -/
def listEntries : Nat → List Byte → List Nat
  | 0, _ => []
  | n + 1, l => leNat (l.take 8) :: listEntries n (l.drop 8)

/-- R412: an entry of all ones names no sector. -/
def noSector (e : Nat) : Bool := e == 2 ^ 64 - 1

/-- The areas that a list's entries name. -/
def entryAreas (es : List Nat) : List (Nat × Nat) := (es.filter (fun e => !noSector e)).map (fun e => (e, 32))

/-- R412: every entry is a 32-byte aligned address. -/
def entriesAligned (es : List Nat) : Bool := es.all (fun e => noSector e || e % 32 == 0)

/-- One sector read on the sector tap (R267), or in a cluster store (R212). -/
def readSector (s : State) (ways a : Nat) : Option (List Byte) × State :=
  if inStore a then
    let b := windowBytes s a 32
    (some b.1, b.2)
  else tapRead s ways (a / 32)

/-- One sector written on the sector tap, or in a cluster store. -/
def writeSector (s : State) (ways a : Nat) (b : List Byte) : State :=
  if inStore a then setBytes s a b else tapWrite s ways (a / 32) b

/-- R313: one sector's write was answered POISONED. -/
def sectorLost (s : State) (a : Nat) : Option Nat := writeLost s a 32

/-- R412: a gather's entries, with the detail of the first access so far that was answered POISONED; a poisoned sector leaves its
destination undefined (R280). -/
def gatherEntries (ways : Nat) : Nat → Option Nat → List Nat → State → Option Nat × State
  | _, p, [], s => (p, s)
  | dst, p, e :: t, s =>
    if noSector e then
      let w := putRange s ways dst (List.replicate 32 0)
      gatherEntries ways (dst + 32) (p <|> w.1) t w.2
    else
      let r := readSector s ways e
      let f := match r.1 with
        | some b => (b, r.2)
        | none => freeBytes r.2 32
      let p := p <|> (if r.1.isNone then some (poisonDetail r.2 e) else none)
      let w := putRange f.2 ways dst f.1
      gatherEntries ways (dst + 32) (p <|> w.1) t w.2

/-- A command reads its list of sector addresses and goes on with it; a misaligned entry is a malformed parameter. -/
def withList (s : State) (c : Cmd) (list n : Nat) (go : State → List Nat → State) : State :=
  readFor s c list (8 * n) (fun s b =>
    let es := listEntries n b
    if entriesAligned es then go s es else fail s c.id .badParam 0)

/-- GATHER_SECTORS (R412). -/
def startGather (list dst n : Nat) (s : State) (c : Cmd) : State :=
  withList s c list n (fun s es => withAreas s c ((dst, 32 * n) :: entryAreas es) (
    let r := gatherEntries (waysOf s (queueWho s c.queue)) dst none es s
    endData r.2 c r.1))

/-- GATHER_SECTORS. -/
def execGatherSectors (h : Hdr) (list dst : BitVec 44) (n : BitVec 32) (s : State) : Host.Outcome State Fault Refusal :=
  .next (command s h (.gatherSectors h list dst n) .any none (startGather list.toNat dst.toNat n.toNat))

/-- What an accumulating scatter applies: the operation, the element size, and the mask of R412. -/
structure Accumulate where
  aop  : Nat
  size : Nat
  deriving DecidableEq, Repr

/-- R412: the EMASK of an accumulating scatter. -/
def Accumulate.mask (o : Accumulate) : Nat := if o.size = 8 then 15 else 255

/-- R316, R319: one REDUCE applied at a sector's home, its line's holders invalidated and their modified data taken back first; the
detail of a POISONED answer (R313, R315). -/
def reduceAt (s : State) (ways : Nat) (o : Accumulate) (a : Nat) (opd : List Byte) : Option Nat × State :=
  let line := a / 128
  let h := homeOf s a
  let e := engineOpen s ways line true (some (a / 32 % 4))
  if e.1 then (some (poisonDetail e.2 a), e.2)
  else
    let s := fetchLine e.2 line ways
    match cellarLine s line with
    | none => (none, s)
    | some c =>
      if natBit c.poison.toNat (a / 32 % 4) then (some (poisonDetail s a), poisonSeen s h)
      else
        let s := clearReservations (count s .celAtomics h 0) line none
        (none, pokeLine s line (a % 128) (reduceSector o.aop o.size o.mask (slice c.data (a % 128) 32) opd))

/-- R412: one entry of a scatter, its 32 bytes known, with the detail of a POISONED answer. -/
def scatterOne (s : State) (ways : Nat) (o : Option Accumulate) (a : Nat) (b : List Byte) : Option Nat × State :=
  match o with
  | some o => reduceAt s ways o a b
  | none =>
    let s := writeSector s ways a b
    (sectorLost s a, s)

/-- What an entry whose source is poisoned leaves: a plain scatter's destination is undefined (R280); nothing is sent to
accumulate. -/
def scatterLost (s : State) (ways : Nat) (o : Option Accumulate) (a : Nat) : State :=
  match o with
  | some _ => s
  | none =>
    let f := freeBytes s 32
    writeSector f.2 ways a f.1

/-- R412: a scatter's entries in ascending order, with the detail of the first access so far that was answered POISONED. -/
def scatterEntries (ways : Nat) (o : Option Accumulate) : Nat → Option Nat → List Nat → State → Option Nat × State
  | _, p, [], s => (p, s)
  | src, p, e :: t, s =>
    if noSector e then scatterEntries ways o (src + 32) p t s
    else
      let r := readRange s ways src 32
      match firstPoison r.1 with
      | some x => scatterEntries ways o (src + 32) (p <|> some (poisonDetail r.2 x)) t (scatterLost r.2 ways o e)
      | none =>
        let q := scatterOne r.2 ways o e (pieceBytes r.1)
        scatterEntries ways o (src + 32) (p <|> q.1) t q.2

/-- R321: an entry that a REDUCE may not name, the first of them: it lies outside HBM and the capacity tier. -/
def reduceOutside (s : State) (o : Option Accumulate) (es : List Nat) : Bool :=
  o.isSome && es.any (fun e => !noSector e && !isMemory s e)

/-- SCATTER_SECTORS (R412). -/
def startScatter (list src n : Nat) (o : Option Accumulate) (s : State) (c : Cmd) : State :=
  withList s c list n (fun s es => withAreas s c ((src, 32 * n) :: entryAreas es) (
    if reduceOutside s o es then fail (raiseEvent s (controlSrc (c.queue % 4))) c.id .denied 0
    else
      let r := scatterEntries (waysOf s (queueWho s c.queue)) o src none es s
      endData r.2 c r.1))

/-- R317, R321: an operation that REDUCE accepts at an element size. -/
def reduceOk (aop : Nat) (size8 : Bool) : Bool := decide (2 ≤ aop ∧ aop ≤ 12) && !(size8 && decide (10 ≤ aop))

/-- SCATTER_SECTORS. -/
def execScatterSectors (h : Hdr) (list src : BitVec 44) (n : BitVec 32) (accumulate : Bool) (aop : Fin 16) (size : Bool)
    (s : State) : Host.Outcome State Fault Refusal :=
  .next (command s h (.scatterSectors h list src n accumulate aop size) .any
    (firstBad [(accumulate && !reduceOk aop.val size, 20)])
    (startScatter list.toNat src.toNat n.toNat
      (if accumulate then some ⟨aop.val, if size then 8 else 4⟩ else none)))

/-! ### Remote transfers -/

/-- The good parts of a read, joined where they touch, as (offset from the base, bytes). -/
def goodRuns (base : Nat) : List Piece → List (Nat × List Byte)
  | [] => []
  | p :: t =>
    match p.data with
    | none => goodRuns base t
    | some b =>
      match goodRuns base t with
      | (o, x) :: rest => if o = p.addr - base + p.len then (p.addr - base, b ++ x) :: rest else (p.addr - base, b) :: (o, x) :: rest
      | [] => [(p.addr - base, b)]

/-- R329, R421: the parts of a transfer sent on a path; the last packet of the last part completes the command. -/
def sendParts (s : State) (pkg path dst : Nat) (id : Nat) : List (Nat × List Byte) → State
  | [] => s
  | (o, b) :: t =>
    let m := takeMsg s
    sendParts (sendChunksOf m.2 pkg path (dst + o) m.1 id t.isEmpty b) pkg path dst id t
where
  /-- One part as one message; only the last part's last packet is the command's last. -/
  sendChunksOf (s : State) (pkg path addr msg id : Nat) (last : Bool) (b : List Byte) : State :=
    let k := pathKey pkg path
    let before := (outPath s k).unacked.length
    let s := sendTransfer s pkg path 0 addr msg b (some id)
    if last then s
    else
      let o := outPath s k
      setOutPath s k { o with unacked := o.unacked.mapIdx (fun i p => if before ≤ i then { p with last := false } else p) }

/-- The parts of a transfer sent to a host. -/
def sendRoceParts (s : State) (qp dst rkey id : Nat) : List (Nat × List Byte) → State
  | [] => s
  | (o, b) :: t => sendRoceParts (sendRoce s ⟨qp, .write, dst + o, rkey, b.length, b, some id, t.isEmpty⟩) qp dst rkey id t

/-- REMOTE_WRITE acts (R280, R421, R423): what is not poisoned is sent. -/
def actRemoteWrite (src dst n path : Nat) (kind : Bool) (rkey : Nat) (s : State) (c : Cmd) : State :=
  let r := readRange s (waysOf s (queueWho s c.queue)) src n
  let parts := goodRuns src r.1
  let p := firstPoison r.1
  let p := p.map (poisonDetail r.2)
  if parts.isEmpty then endData r.2 c p
  else
    let s := setWait r.2 c.id (if kind then .remoteWrite 2 (path % 1024) p else .remoteWrite 1 path p)
    if kind then sendRoceParts s (path % 1024) dst rkey c.id parts
    else sendParts s (dst / 2 ^ 48) path dst c.id parts

/-- REMOTE_WRITE. -/
def startRemoteWrite (src dst n path : Nat) (kind : Bool) (rkey : Nat) (s : State) (c : Cmd) : State :=
  withAreas s c [(src, n)] (orFail s c (if kind then none else transferError s (dst / 2 ^ 48) path)
    (actRemoteWrite src dst n path kind rkey s c))

/-- R413: PATH holds a reserved value: a clearing path, or no queue pair when KIND names one. -/
def pathBad (path : Nat) (kind : Bool) : Bool := decide (0xFFC ≤ path) || (kind && decide (1024 ≤ path))

/-- R403, R413: the reserved values of a REMOTE_WRITE's parameters. -/
def remoteWriteBad (dst len path : Nat) (kind : Bool) : Option Nat :=
  firstBad [(!kind && spaceBad dst, 8), (len % 32 != 0, 16), (pathBad path kind, 20)]

/-- REMOTE_WRITE. -/
def execRemoteWrite (h : Hdr) (src : BitVec 44) (dst : BitVec 64) (len : BitVec 32) (path : BitVec 12) (kind : Bool)
    (rkey : BitVec 32) (s : State) : Host.Outcome State Fault Refusal :=
  .next (command s h (.remoteWrite h src dst len path kind rkey) .any
    (remoteWriteBad dst.toNat len.toNat path.toNat kind)
    (startRemoteWrite src.toNat dst.toNat len.toNat path.toNat kind rkey.toNat))

/-- R330: the payload of a READ_REQ. -/
def readReqBody (ret len : Nat) : List Byte := beBytes 8 ret ++ beBytes 4 len ++ beBytes 4 0

/-- REMOTE_READ acts (R330, R339): the request is sent and its answer awaited. -/
def actRemoteRead (src dst n path : Nat) (kind : Bool) (rkey : Nat) (s : State) (c : Cmd) : State :=
  let s := setWait s c.id .remoteRead
  if kind then
    let s := { s with reads := s.reads ++ [⟨c.id, queueWho s c.queue, 0, 4096 + path % 1024, 0, dst, n, 0⟩] }
    sendRoce s ⟨path % 1024, .readReq, src, rkey, n, [], some c.id, true⟩
  else
    let m := takeMsg s
    let pkg := src / 2 ^ 48
    let s := { m.2 with reads := m.2.reads ++ [⟨c.id, queueWho s c.queue, pkg, path, m.1, dst, n, 0⟩] }
    sendPacket s pkg path { plainFields 1 with last := true, addr := src, msg := m.1 }
      (readReqBody (ownPkg s * 2 ^ 48 + dst) n) (some c.id)

/-- REMOTE_READ. -/
def startRemoteRead (src dst n path : Nat) (kind : Bool) (rkey : Nat) (s : State) (c : Cmd) : State :=
  withAreas s c [(dst, n)] (orFail s c (if kind then none else transferError s (src / 2 ^ 48) path)
    (actRemoteRead src dst n path kind rkey s c))

/-- R330: the length of a REMOTE_READ is out of range. -/
def readLenBad (n : Nat) (kind : Bool) : Bool := decide (2 ^ 24 < n) || (!kind && (n == 0 || n % 32 != 0))

/-- R403, R413: the reserved values of a REMOTE_READ's parameters. -/
def remoteReadBad (src len path : Nat) (kind : Bool) : Option Nat :=
  firstBad [(!kind && spaceBad src, 0), (readLenBad len kind, 16), (pathBad path kind, 20)]

/-- REMOTE_READ. -/
def execRemoteRead (h : Hdr) (src : BitVec 64) (dst : BitVec 44) (len : BitVec 25) (path : BitVec 12) (kind : Bool)
    (rkey : BitVec 32) (s : State) : Host.Outcome State Fault Refusal :=
  .next (command s h (.remoteRead h src dst len path kind rkey) .any
    (remoteReadBad src.toNat len.toNat path.toNat kind)
    (startRemoteRead src.toNat dst.toNat len.toNat path.toNat kind rkey.toNat))

/-! ### PLACE -/

/-- R289: the first check of a PLACE that fails, for `n` bytes from `a`; `home` for the action HOME. -/
def placeCheck (s : State) (c : Cmd) (addr a n : Nat) (home : Bool) : Option (Status × Nat) :=
  firstError [(inCap addr && !capPresent s, .noResource, 0x8004),
    ((!inHbm addr && !inCap addr) || (home && inHbm addr), .badParam, 0x2702),
    ((queueWho s c.queue).any (fun p => !inPartition s p a n), .denied, 0x2790)]

/-- The table of retired units that owns an address: of its tile, or of the capacity tier. -/
def retiredTable (a : Nat) : Nat := if inHbm a then hbmTile a else 4

/-- R285: a unit's cellar lines are dropped without being written back. -/
def dropUnit (s : State) (unit : Nat) : State :=
  { s with cellar := s.cellar.filter (fun e => e.1 / 32 != unit) }

/-- PLACE with RETIRE (R285, R289). -/
def startPlaceRetire (addr : Nat) (s : State) (c : Cmd) : State :=
  let unit := addr / 4096
  let k := retiredTable addr
  let tab := mapGet (fun _ => []) s.retired k
  orFail s c (placeCheck s c addr (4096 * unit) 4096 false) (
    if tab.contains unit then succeed s c.id 0
    else if 256 ≤ tab.length then fail s c.id .limitReached 0x2791
    else
      let s := dropUnit s unit
      succeed { s with retired := mapSet (fun _ => []) s.retired k (tab ++ [unit]) } c.id 0)

/-- PLACE with RETIRE. -/
def execPlaceRetire (h : Hdr) (addr : BitVec 44) (s : State) : Host.Outcome State Fault Refusal :=
  .next (command s h (.placeRetire h addr) .any none (startPlaceRetire addr.toNat))

/-- The lines that the homes know of: those with a directory entry, an open transaction or a waiting request. -/
def knownLines (s : State) : List Nat :=
  (mapKeys (fun e => e.isSome) s.dir ++ s.txns.flatMap (fun t => t.req.line :: t.awaiting.map (·.2))
    ++ (s.homeQueue ++ s.reserved).flatMap (fun e => e.2.map (·.line))).eraseDups

/-- R288: a 1 GiB region's entry of `CAP_HOME` written. -/
def setHome (s : State) (gib tile : Nat) (fixed : Bool) : State :=
  setReg s .capHome 4 (gib - 0x1000) (BitVec.ofNat 64 (tile + 4 * boolNat fixed))

/-- R288, R298: the lines of a region that change their home leave the directory of their current one: what waits for them comes to its
end, and the agents that hold them give them up (log entry 77). -/
def recallRegion (s : State) (gib tile : Nat) (fixed : Bool) : State :=
  let t := setHome s gib tile fixed
  ((knownLines s).filter (fun l => 128 * l / 2 ^ 30 == gib && homeOf t (128 * l) != homeOf s (128 * l))).foldl
    (fun s l => (engineOpen s allWays l true).2) s

/-- PLACE with HOME (R288, R289). -/
def startPlaceHome (addr tile : Nat) (fixed : Bool) (s : State) (c : Cmd) : State :=
  let gib := addr / 2 ^ 30
  orFail s c (placeCheck s c addr (gib * 2 ^ 30) (2 ^ 30) true) (
    let s := flushLines (recallRegion s gib tile fixed) (fun l => 128 * l / 2 ^ 30 == gib)
    succeed (setHome s gib tile fixed) c.id 0)

/-- PLACE with HOME. -/
def execPlaceHome (h : Hdr) (addr : BitVec 44) (tile : Fin 4) (fixed : Bool) (s : State) : Host.Outcome State Fault Refusal :=
  .next (command s h (.placeHome h addr tile fixed) .any none (startPlaceHome addr.toNat tile.val fixed))

end Sys2Proof.Machine
end

