-- ==== Sys2Proof/Machine/Program.lean ====
section
/-!
DEFINITION. The compute commands (R187 to R192, R225, R226, R233, R240, R414, R415, R444, R546): LOAD_PROGRAM, RUN, RUN_STEP,
CASK_FLUSH, SET_SEED, ROUTE_TABLE_WRITE, and AUDIT_ARM, AUDIT_READ and TALLY_READ (R149, R545, R551).
-/
namespace Sys2Proof.Machine

/-! ### Program images -/

/-- R187: the header of an image. -/
structure ImageHdr where
  imageLen : Nat
  slices   : Nat
  sections : Nat
  words    : Nat
  reqFeat  : Nat
  sliceOff : Nat
  sectOff  : Nat
  codeOff  : Nat
  deriving DecidableEq, Repr

/-- R187: the header of an image's bytes. -/
def imageHdr (b : List Byte) : ImageHdr :=
  { imageLen := fieldLe b 8 4, slices := fieldLe b 12 2, sections := fieldLe b 14 2, words := fieldLe b 16 2
    reqFeat := fieldLe b 24 8, sliceOff := fieldLe b 32 4, sectOff := fieldLe b 36 4, codeOff := fieldLe b 40 4 }

/-- R187: a reserved field of the header is not 0. -/
def hdrReserved (b : List Byte) : Bool :=
  !(zeroBytes b 6 2 && zeroBytes b 18 2 && zeroBytes b 20 4 && zeroBytes b 44 16)

/-- R188: a reserved field of a slice table entry is not 0, or its CLASS is reserved. -/
def sliceReserved (e : List Byte) : Bool :=
  let w := fieldLe e 0 8
  natBit w 15 || natBit w 31 || natBit w 47 || natBit w 63 || decide (64 ≤ fieldLe e 12 1 ∨ 4 ≤ fieldLe e 13 1) || !zeroBytes e 18 2

/-- R189: a reserved field of a section table entry is not 0. -/
def sectReserved (e : List Byte) : Bool := decide (2 ^ 24 ≤ fieldLe e 8 4) || !zeroBytes e 12 4

/-- The entries of a table in an image, each `size` bytes. -/
def tableEntries (b : List Byte) (off size n : Nat) : List (List Byte) := (List.range n).map (fun i => slice b (off + size * i) size)

/-- R190, check 0x2404: the entries that lie wholly within the image hold no reserved value. -/
def tablesReserved (b : List Byte) (x : ImageHdr) : Bool :=
  (tableEntries b x.sliceOff 32 x.slices).any (fun e => e.length == 32 && sliceReserved e)
    || (tableEntries b x.sectOff 16 x.sections).any (fun e => e.length == 16 && sectReserved e)

/-- R190, check 0x2405: counts out of range, or a table, the code or a section outside the image or misaligned. -/
def badLayout (b : List Byte) (x : ImageHdr) : Bool :=
  decide (x.slices = 0 ∨ 4096 < x.slices ∨ x.words = 0 ∨ 32768 < x.words
    ∨ x.sliceOff % 32 ≠ 0 ∨ x.sectOff % 16 ≠ 0 ∨ x.codeOff % 8 ≠ 0
    ∨ x.imageLen < x.sliceOff + 32 * x.slices ∨ x.imageLen < x.sectOff + 16 * x.sections
    ∨ x.imageLen < x.codeOff + 8 * x.words)
  || (tableEntries b x.sectOff 16 x.sections).any (fun e => decide (x.imageLen < fieldLe e 0 4 + fieldLe e 4 4))

/-- R188: the entry points of a slice table entry. -/
def entryPoints (e : List Byte) : List Nat :=
  let w := fieldLe e 0 8
  [w % 2 ^ 15, w / 2 ^ 16 % 2 ^ 15, w / 2 ^ 32 % 2 ^ 15, w / 2 ^ 48 % 2 ^ 15]

/-- R187: the code words of an image. -/
def imageCode (b : List Byte) (x : ImageHdr) : List Word :=
  (tableEntries b x.codeOff 8 x.words).map (fun e => BitVec.ofNat 64 (leNat e))

/-- R190, check 0x2407: the loops of a program from word `pos` on, with the last words of the bodies that enclose it, innermost
first, lie inside the code, nest properly and nest 4 deep at most. A LOOP that is the last word of another body has its body
outside that one (DEDUCED, log entry 45). -/
def loopsOk (n : Nat) : Nat → List Nat → List Word → Bool
  | _, _, [] => true
  | pos, open_, w :: t =>
    let body := getBits w 33 15
    if getBits w 56 8 ≠ 0xE2 ∨ body = 0 then loopsOk n (pos + 1) open_ t
    else
      let inside := open_.filter (fun e => decide (pos < e))
      decide (pos + body < n) && inside.all (fun e => decide (pos + body ≤ e)) && decide (inside.length < 4)
        && loopsOk n (pos + 1) ((pos + body) :: inside) t

/-- R189: a section of a slice: where it goes and what it holds. -/
def sectionOf (b : List Byte) (e : List Byte) : Nat × List Byte :=
  (fieldLe e 8 4 % 2 ^ 24, slice b (fieldLe e 0 4) (fieldLe e 4 4))

/-- R189, check 0x2408: a section table entry that no store holds. -/
def badSection (e : List Byte) : Bool :=
  let len := fieldLe e 4 4
  let at_ := fieldLe e 8 4
  decide (len % 32 ≠ 0 ∨ at_ % 32 ≠ 0 ∨ 2 ^ 24 < at_ + len)

/-- Two sections, as (address, bytes), share a byte. -/
def sectionsMeet (a b : Nat × List Byte) : Bool :=
  !a.2.isEmpty && !b.2.isEmpty && decide (a.1 < b.1 + b.2.length ∧ b.1 < a.1 + a.2.length)

/-- Some two sections of a slice overlap. -/
def sectionsOverlap : List (Nat × List Byte) → Bool
  | [] => false
  | a :: t => t.any (sectionsMeet a) || sectionsOverlap t

/-- R188: the sections of a slice table entry. -/
def sliceSections (b : List Byte) (x : ImageHdr) (e : List Byte) : List (Nat × List Byte) :=
  ((tableEntries b x.sectOff 16 x.sections).drop (fieldLe e 14 2)).take (fieldLe e 16 2) |>.map (sectionOf b)

/-- R188: a slice table entry. -/
def sliceOf (b : List Byte) (x : ImageHdr) (e : List Byte) : SliceDesc :=
  { entries := entryPoints e, energy := fieldLe e 8 4, clusters := fieldLe e 12 1 % 64 + 1, cls := fieldLe e 13 1
    sections := sliceSections b x e, preds := (List.range 4).map (fun i => fieldLe e (20 + 2 * i) 2), duration := fieldLe e 28 4 }

/-- R190, check 0x2408. -/
def badSections (b : List Byte) (x : ImageHdr) (es : List (List Byte)) : Bool :=
  (tableEntries b x.sectOff 16 x.sections).any badSection
    || es.any (fun e => decide (x.sections < fieldLe e 14 2 + fieldLe e 16 2) || sectionsOverlap (sliceSections b x e))

/-- R190, check 0x2409: a predecessor that is not below its slice. -/
def badPreds (slices : List SliceDesc) : Bool :=
  (slices.mapIdx (fun i d => d.preds.any (fun p => p != 0xFFFF && decide (i ≤ p)))).any id

/-- R190, R42: the lowest feature bit that a program needs and the compute dies do not enable: every one above BASELINE. -/
def missingFeature (req : Nat) : Option Nat := (bitsSet req 64).find? (fun b => b != 0)

/-- R190: the first check that an image fails. -/
def imageError (b : List Byte) (len : Nat) : Option (Status × Nat) :=
  let x := imageHdr b
  let es := tableEntries b x.sliceOff 32 x.slices
  let slices := es.map (sliceOf b x)
  match firstError [(decide (fieldLe b 0 4 ≠ 0x0900F4E1 ∨ fieldLe b 4 2 ≠ 1), .badParam, 0x2401),
      (decide (x.imageLen ≠ len ∨ x.imageLen < 64 ∨ 0x10000000 < x.imageLen), .badParam, 0x2402),
      (crc32c (clear4 b 60) != fieldLe b 60 4, .badParam, 0x2403),
      (hdrReserved b || tablesReserved b x, .badParam, 0x2404),
      (badLayout b x, .badParam, 0x2405),
      (es.any (fun e => (entryPoints e).any (fun p => decide (x.words ≤ p))), .badParam, 0x2406),
      (!loopsOk x.words 0 [] (imageCode b x), .badParam, 0x2407),
      (badSections b x es, .badParam, 0x2408),
      (badPreds slices, .badParam, 0x2409),
      (slices.any (fun d => d.energy == 0 || d.duration == 0), .badParam, 0x240A)] with
  | some e => some e
  | none => (missingFeature x.reqFeat).map (fun f => (.noResource, 0x8100 + f))

/-! ### LOAD_PROGRAM -/

/-- The programs of a partition. -/
def programsOf (s : State) (p : Nat) : List Program := s.programs.filter (fun g => g.partition == p)

/-- A handle that no program of a partition has: which one is the module's choice (log entry 34). -/
def newHandle (s : State) (p : Nat) : Nat × State :=
  let used := (programsOf s p).map (·.handle)
  let f := takeFreeNat s
  ((((List.range 65536).filter (fun h => !used.contains h))).getD (f.1 % (65536 - used.length)) 0, f.2)

/-- LOAD_PROGRAM puts an accepted image into the program area, after the images already there (R190, R414); a write of it that its home
answers POISONED ends the command (R313, R457). -/
def loadImage (s : State) (c : Cmd) (p : Nat) (b : List Byte) : State :=
  let used := (programsOf s p).foldl (fun n g => n + g.len) 0
  let d := (part s p).desc
  if 256 ≤ (programsOf s p).length ∨ d.progLen < used + b.length then fail s c.id .limitReached 0x2C22
  else
    let x := imageHdr b
    let w := putRange s (waysOf s (some p)) (d.progBase + used) b
    match w.1 with
    | some e => fail w.2 c.id .poisoned e
    | none =>
      let h := newHandle w.2 p
      let g : Program := ⟨p, h.1, d.progBase + used, b.length, imageCode b x, (tableEntries b x.sliceOff 32 x.slices).map (sliceOf b x)⟩
      succeed { h.2 with programs := h.2.programs ++ [g] } c.id h.1

/-- LOAD_PROGRAM (R190, R414). -/
def startLoadProgram (src len : Nat) (s : State) (c : Cmd) : State :=
  let p := (queueWho s c.queue).getD 0
  readFor s c src (min len 0x10000000) (fun s b => orFail s c (imageError b len) (loadImage s c p b))

/-- LOAD_PROGRAM. -/
def execLoadProgram (h : Hdr) (src : BitVec 44) (len : BitVec 32) (s : State) : Host.Outcome State Fault Refusal :=
  .next (command s h (.loadProgram h src len) .partition none (startLoadProgram src.toNat len.toNat))

/-! ### RUN and RUN_STEP -/

/-- R441, R444: the first check of a run that fails. -/
def runError (s : State) (c : Cmd) (x h : Nat) : Option (Status × Nat) :=
  match ctxError s c.queue x with
  | some e => some e
  | none =>
    let k := ctxOf s x
    match findProgram s k.partition h with
    | none => some (.badParam, 0x2D06)
    | some g =>
      let room := min k.saveRanks (popCount (part s k.partition).desc.clusters 64)
      if g.slices.any (fun d => decide (room < d.clusters)) then some (.badParam, 0x2D05) else none

/-- A run put in place: none of its slices has started, and those without predecessors are eligible. -/
def openRun (s : State) (c : Cmd) (x h : Nat) (scalars : List Word) (step : Nat) (gated : Bool) : State :=
  let p := (ctxOf s x).partition
  let n := match findProgram s p h with
    | some g => g.slices.length
    | none => 0
  let r : Run := ⟨s.nextRun, c.id, x, p, h, c.seed.getD 0, c.seed.isNone, scalars, List.replicate n SliceRun.fresh, step, gated, 0, none, []⟩
  refreshRun (setWait { s with runs := s.runs ++ [r], nextRun := s.nextRun + 1 } c.id (.run r.id)) r.id

/-- RUN and RUN_STEP (R192, R225, R233, R444): the scalar block is read as the run starts. -/
def startRunWith (x h at_ step : Nat) (gated : Bool) (s : State) (c : Cmd) : State :=
  orFail s c (runError s c x h) (readFor s c at_ 128 (fun s b =>
    openRun s c x h ((listEntries 16 b).map (BitVec.ofNat 64)) step gated))

/-- RUN. -/
def startRun (x h at_ : Nat) (s : State) (c : Cmd) : State := startRunWith x h at_ 0 false s c

/-- RUN. -/
def execRun (h : Hdr) (ctx : Fin 256) (program : BitVec 16) (scalars : BitVec 44) (s : State) : Host.Outcome State Fault Refusal :=
  .next (command s h (.run h ctx program scalars) .partition (firstBad [(scalars.toNat % 128 != 0, 8)])
    (startRun ctx.val program.toNat scalars.toNat))

/-- RUN_STEP. -/
def startRunStep (x h at_ step : Nat) (gated : Bool) (s : State) (c : Cmd) : State := startRunWith x h at_ step gated s c

/-- RUN_STEP. -/
def execRunStep (h : Hdr) (ctx : Fin 256) (program : BitVec 16) (scalars : BitVec 44) (step : BitVec 48) (gate : Bool)
    (s : State) : Host.Outcome State Fault Refusal :=
  .next (command s h (.runStep h ctx program scalars step gate) .partition (firstBad [(scalars.toNat % 128 != 0, 8)])
    (startRunStep ctx.val program.toNat scalars.toNat step.toNat gate))

/-! ### CASK_FLUSH and SET_SEED -/

/-- R226: the cask slices of a run that have not started are promoted. -/
def promoteCask (g : Program) (r : Run) : Run :=
  { r with slices := r.slices.mapIdx (fun i v => if (sliceDesc g i).cls = 1 ∧ unstarted v then { v with promoted := true } else v) }

/-- R226: a run of a context promoted. -/
def flushRun (x : Nat) (s : State) (r : Run) : State :=
  if r.ctx = x then
    match programOf s r with
    | some g => modRun s r.id (promoteCask g)
    | none => s
  else s

/-- R226: the cask slices of a context that are unstarted or running, as (run, slice). -/
def flushSlices (s : State) (x : Nat) : List (Nat × Nat) :=
  (s.runs.filter (fun r => r.ctx == x)).flatMap (fun r =>
    match programOf s r with
    | none => []
    | some g => ((List.range r.slices.length).filter (fun i =>
        (sliceDesc g i).cls == 1 && (unstarted (sliceRun r i) || (sliceRun r i).status == .running))).map (fun i => (r.id, i)))

/-- R226: slices that have all completed; a run that is gone has. -/
def flushed (s : State) (l : List (Nat × Nat)) : Bool :=
  l.all (fun p => (findRun s p.1).all (fun r => sliceDone r p.2))

/-- R226: a CASK_FLUSH completes once the cask slices it waits for have. -/
def finishFlush (s : State) (c : Cmd) (l : List (Nat × Nat)) : State := if flushed s l then succeed s c.id 0 else s

/-- CASK_FLUSH (R226). -/
def startCaskFlush (x : Nat) (s : State) (c : Cmd) : State :=
  orFail s c (ctxError s c.queue x) (
    let l := flushSlices s x
    finishFlush (setWait (s.runs.foldl (flushRun x) s) c.id (.caskFlush l)) c l)

/-- CASK_FLUSH. -/
def execCaskFlush (h : Hdr) (ctx : Fin 256) (s : State) : Host.Outcome State Fault Refusal :=
  .next (command s h (.caskFlush h ctx) .partition none (startCaskFlush ctx.val))

/-- SET_SEED (R101, R233): it sets the seed unless one accepted after it has set it already. -/
def startSetSeed (x : Nat) (seed : Word) (s : State) (c : Cmd) : State :=
  let k := ctxOf s x
  orFail s c (ctxError s c.queue x)
    (succeed (if c.id < k.seedCmd then s else setCtx s x { k with seed := some seed, seedCmd := c.id }) c.id 0)

/-- SET_SEED. -/
def execSetSeed (h : Hdr) (ctx : Fin 256) (seed : BitVec 64) (s : State) : Host.Outcome State Fault Refusal :=
  .next (command s h (.setSeed h ctx seed) .partition none (startSetSeed ctx.val seed))

/-! ### ROUTE_TABLE_WRITE -/

/-- R415: the configuration block's five addresses as (register, alignment), in order. -/
def cfgRegs : List (RegKind × Nat) :=
  [(.expPartDoorbell, 128), (.expPartIn, 256), (.expPartCnt, 256), (.expPartOut, 256), (.expPartRet, 256)]

/-- R415: a configuration block holds a reserved value. -/
def cfgBad (b : List Byte) : Bool :=
  decide (fieldLe b 0 8 / 2 ^ 20 % 2 ^ 12 ≠ 0)
    || (List.range 5).any (fun i =>
      let a := fieldLe b (8 + 8 * i) 8
      decide (2 ^ 44 ≤ a ∨ a % (if i = 0 then 128 else 256) ≠ 0))

/-- R240: a route entry of the source buffer holds a non-zero reserved bit. -/
def routeBad (e : Nat) : Bool := decide (e / 2 ^ 47 % 2 ^ 16 ≠ 0)

/-- One route table entry written, its load counts cleared in every copy when asked. -/
def putRoute (clear : Bool) (s : State) (p : Nat × Nat) : State :=
  let s := setReg s .expRoute 0 p.1 (BitVec.ofNat 64 (p.2 % 2 ^ 47))
  let s := setField s .expRouteValid 0 (p.1 / 64) (p.1 % 64) 1 (p.2 / 2 ^ 63)
  if clear then (List.range 4).foldl (fun s t => setReg s .expLoad t p.1 0) s else s

/-- R415: one of the configuration block's addresses written. -/
def putCfg (p : Nat) (b : List Byte) (s : State) (i : Nat) : State :=
  match cfgRegs[i]? with
  | some r => setReg s r.1 0 p (BitVec.ofNat 64 (2 ^ 63 + fieldLe b (8 + 8 * i) 8))
  | none => s

/-- R240: the entries and the configuration block applied as one update. -/
def applyRoutes (s : State) (c : Cmd) (p first cfg : Nat) (clear : Bool) (es : List Nat) (b : List Byte) : State :=
  if es.any routeBad || (cfg != 0 && cfgBad b) then fail s c.id .badParam 0
  else
    let base := getBits (getReg s .expPartTable 0 p) 0 16 + first
    let s := (es.mapIdx (fun i e => (base + i, e))).foldl (putRoute clear) s
    let s := if cfg = 0 then s
      else (List.range 5).foldl (putCfg p b) (setReg s .expPartShape 0 p (BitVec.ofNat 64 (fieldLe b 0 8)))
    succeed s c.id 0

/-- R240: a ROUTE_TABLE_WRITE goes on when no run of its partition is in progress. -/
def goRouteWrite (first n src cfg : Nat) (clear : Bool) (s : State) (c : Cmd) : State :=
  let p := (queueWho s c.queue).getD 0
  if s.runs.any (fun r => r.partition == p) then s
  else if getBits (getReg s .expPartTable 0 p) 16 17 < first + n then fail s c.id .badParam 0
  else
    readFor s c src (8 * n) (fun s l =>
      let es := listEntries n l
      if cfg = 0 then applyRoutes s c p first cfg clear es []
      else readFor s c cfg 48 (fun s b => applyRoutes s c p first cfg clear es b))

/-- ROUTE_TABLE_WRITE (R240, R415). -/
def startRouteTableWrite (first n src cfg : Nat) (clear : Bool) (s : State) (c : Cmd) : State :=
  goRouteWrite first n src cfg clear (setWait s c.id .routeWrite) c

/-- ROUTE_TABLE_WRITE. -/
def execRouteTableWrite (h : Hdr) (first : BitVec 16) (n : BitVec 17) (src cfg : BitVec 44) (clear : Bool) (s : State) :
    Host.Outcome State Fault Refusal :=
  .next (command s h (.routeTableWrite h first n src cfg clear) .partition
    (firstBad [(decide (65536 < n.toNat), 4), (cfg.toNat % 64 != 0, 16)])
    (startRouteTableWrite first.toNat n.toNat src.toNat cfg.toNat clear))

/-! ### The commit gate's commands -/

/-- R545: SPIKE is +0 or a finite value above 1. -/
def spikeOk (v : F32) : Bool := v == 0 || (!f32NonFinite v && extLt (decode32 0x3F800000#32) (decode32 v))

/-- R545: the first check of AUDIT_ARM that fails. -/
def armError (s : State) (c : Cmd) (x warmup : Nat) (spike : F32) (loss : Nat) : Option (Status × Nat) :=
  match ctxError s c.queue x with
  | some e => some e
  | none =>
    firstError [(decide (65535 < warmup) || !spikeOk spike, .badParam, 0x3003),
      (loss != 0 && (loss % 64 != 0 || !inPartition s (ctxOf s x).partition loss 64), .badParam, 0x3004)]

/-- R545: a gated step of a context, other than one that waits behind the given command, is in flight. -/
def gatedInFlight (s : State) (c : Cmd) (x : Nat) : Bool :=
  s.cmds.any (fun d => gatedCtx d.instr == some x && (decide (d.id < c.id) || d.wait != .notStarted))

/-- R545: AUDIT_ARM acts once no gated step of its context is in flight. -/
def goAuditArm (x warmup : Nat) (spike : F32) (loss : Nat) (armed : Bool) (s : State) (c : Cmd) : State :=
  if gatedInFlight s c x then s
  else
    let k := ctxOf s x
    let g : Gate := { k.gate with armed := armed, warmup := if warmup = 0 then 100 else warmup, spike := spike, lossAddr := loss
                                  mean := none, seen := 0 }
    succeed (setCtx s x { k with gate := g }) c.id 0

/-- AUDIT_ARM (R545). -/
def startAuditArm (x warmup : Nat) (spike : F32) (loss : Nat) (armed : Bool) (s : State) (c : Cmd) : State :=
  orFail s c (armError s c x warmup spike loss) (goAuditArm x warmup spike loss armed (setWait s c.id .auditArm) c)

/-- AUDIT_ARM. -/
def execAuditArm (h : Hdr) (ctx : Fin 256) (warmup : BitVec 32) (spike : BitVec 32) (loss : BitVec 44) (s : State) :
    Host.Outcome State Fault Refusal :=
  .next (command s h (.auditArm h ctx warmup spike loss) .partition none (startAuditArm ctx.val warmup.toNat spike loss.toNat true))

/-- AUDIT_ARM with DISARM. -/
def execAuditDisarm (h : Hdr) (ctx : Fin 256) (warmup : BitVec 32) (spike : BitVec 32) (loss : BitVec 44) (s : State) :
    Host.Outcome State Fault Refusal :=
  .next (command s h (.auditDisarm h ctx warmup spike loss) .partition none
    (startAuditArm ctx.val warmup.toNat spike loss.toNat false))

/-- R615: the sum of a counter's four shares, saturating at 48 bits. -/
def auditSum (s : State) (k : RegKind) (x : Nat) : Nat :=
  let shares := (List.range 4).map (fun t => getReg s k t x)
  let n := shares.foldl (fun n w => n + getBits w 0 48) 0
  let cut := shares.any (fun w => natBit w.toNat 63) || decide (2 ^ 48 - 1 ≤ n)
  min n (2 ^ 48 - 1) + boolNat cut * 2 ^ 63

/-- R548: gated steps left in warm-up. -/
def warmupLeft (g : Gate) : Nat := g.warmup - g.seen

/-- R551: the 64 bytes of AUDIT_READ. -/
def auditBytes (s : State) (x : Nat) : List Byte :=
  let g := (ctxOf s x).gate
  leBytes 8 (auditSum s .audNonfinite x) ++ leBytes 8 (auditSum s .audSaturated x) ++ leBytes 8 (auditSum s .audMalformed x)
    ++ leBytes 8 (auditSum s .audClrNonfinite x) ++ leBytes 8 (getReg s .audTrips 0 x).toNat
    ++ leBytes 4 (g.mean.getD 0).toNat ++ leBytes 4 g.lastLoss.toNat ++ leBytes 2 (warmupLeft g)
    ++ leBytes 1 (boolNat g.armed + 2 * boolNat g.mean.isSome + 4 * boolNat g.lastWithheld) ++ leBytes 1 0
    ++ leBytes 6 g.lastStep ++ leBytes 6 0

/-- R551: a destination is not memory of a partition, or not 64-byte aligned. -/
def reportDestBad (s : State) (c : Cmd) (dest : Nat) (n : Nat) : Bool :=
  match destOf s c.queue dest with
  | .local_ a => a % 64 != 0 || (queueWho s c.queue).any (fun p => !inPartition s p a n)
  | _ => true

/-- AUDIT_READ (R551). -/
def startAuditRead (x dest : Nat) (s : State) (c : Cmd) : State :=
  orFail s c (ctxError s c.queue x) (
    if reportDestBad s c dest 64 then fail s c.id .badParam 0x3005 else deliver s c dest (auditBytes s x))

/-- AUDIT_READ. -/
def execAuditRead (h : Hdr) (ctx : Fin 256) (dest : BitVec 64) (s : State) : Host.Outcome State Fault Refusal :=
  .next (command s h (.auditRead h ctx dest) .partition none (startAuditRead ctx.val dest.toNat))

/-! ### TALLY_READ -/

/-- R149: one bin's count over the four tiles, and whether it is flagged: by a tile's flag, which stands from the top count on, or by a sum
above the top (DESIGN CHOICE, log entry 74). -/
def tallySum (s : State) (slot b : Nat) : Nat × Bool :=
  let ws := (List.range 4).map (fun t => getReg s .vatTallyBin t slot b)
  let n := ws.foldl (fun n w => n + getBits w 0 32) 0
  (min n 0xFFFFFFFF, ws.any (fun w => natBit w.toNat 63) || decide (0xFFFFFFFF < n))

/-- R149: the 264 bytes of TALLY_READ. -/
def tallyBytes (s : State) (slot : Nat) : List Byte :=
  let bins := (List.range 64).map (tallySum s slot)
  leBytes 8 ((List.range 64).foldl (fun n b => if (bins.getD b (0, false)).2 then n + 2 ^ b else n) 0)
    ++ bins.flatMap (fun p => leBytes 4 p.1)

/-- R149: every copy of a slot cleared. -/
def clearTally (slot : Nat) (s : State) : State :=
  (List.range 4).foldl (fun s t => (List.range 64).foldl (fun s b => setReg s .vatTallyBin t slot 0 b) s) s

/-- R147: a slot belongs to a partition. -/
def ownsTally (s : State) (p slot : Nat) : Bool :=
  let w := getReg s .vatTallyOwner 0 slot
  natBit w.toNat 5 && getBits w 0 4 == p

/-- A local destination that the issuer may not write. -/
def destDenied (s : State) (c : Cmd) (dest n : Nat) : Bool :=
  match destOf s c.queue dest with
  | .local_ a => (accessError s (queueWho s c.queue) (c.queue % 4) a n).isSome
  | .control _ => true
  | _ => false

/-- TALLY_READ (R149): of a slot of the issuing partition. CLEAR acts once the record has been read, also where it then cannot reach a DEST
outside the module; a local DEST that is denied leaves the slot as it is (DESIGN CHOICE, log entry 10). -/
def startTallyRead (slot : Nat) (clear : Bool) (dest : Nat) (s : State) (c : Cmd) : State :=
  if (queueWho s c.queue).any (fun p => !ownsTally s p slot) then fail s c.id .denied 0
  else if destDenied s c dest 264 then deliver s c dest (tallyBytes s slot)
  else deliver (if clear then clearTally slot s else s) c dest (tallyBytes s slot)

/-- TALLY_READ. -/
def execTallyRead (h : Hdr) (slot : Fin 64) (clear : Bool) (dest : BitVec 64) (s : State) : Host.Outcome State Fault Refusal :=
  .next (command s h (.tallyRead h slot clear dest) .partition none (startTallyRead slot.val clear dest.toNat))

end Sys2Proof.Machine
end

