-- ==== Sys2Proof/Machine/Shake.lean ====
section
/-!
DEFINITION. SHAKE256, the digest of the security block (18_security_boot.md names FIPS 202 for it; log entry 35): the
permutation Keccak-f[1600] on 25 lanes of 64 bits, lane (x, y) at place x + 5y, and the sponge of rate 136 bytes.
-/
namespace Sys2Proof.Machine

/-- A lane of a Keccak state. -/
def lane (a : List Word) (x y : Nat) : Word := a.getD (x % 5 + 5 * (y % 5)) 0

/-- A state whose lane (x, y) is given by a function. -/
def lanes (f : Nat → Nat → Word) : List Word := (List.range 25).map (fun i => f (i % 5) (i / 5))

/-- The parity of column x. -/
def columnParity (a : List Word) (x : Nat) : Word := lane a x 0 ^^^ lane a x 1 ^^^ lane a x 2 ^^^ lane a x 3 ^^^ lane a x 4

/-- The step θ. -/
def keccakTheta (a : List Word) : List Word :=
  let c := (List.range 5).map (columnParity a)
  let d := (List.range 5).map (fun x => c.getD ((x + 4) % 5) 0 ^^^ (c.getD ((x + 1) % 5) 0).rotateLeft 1)
  lanes (fun x y => lane a x y ^^^ d.getD x 0)

/-- The walk of the step ρ over the lanes other than lane (0, 0): `n` steps from (x, y) on, each as the place of its lane and its
rotation, the triangular number of its step modulo 64. -/
def rhoWalk : Nat → Nat → Nat → Nat → List (Nat × Nat)
  | 0, _, _, _ => []
  | n + 1, step, x, y => (x + 5 * y, step * (step + 1) / 2 % 64) :: rhoWalk n (step + 1) y ((2 * x + 3 * y) % 5)

/-- The rotation of the lane at a place in the step ρ; lane (0, 0) stays. -/
def rhoOffset (place : Nat) : Nat := ((rhoWalk 24 1 1 0).lookup place).getD 0

/-- The steps ρ and π. -/
def keccakRhoPi (a : List Word) : List Word :=
  let b := a.mapIdx (fun i w => w.rotateLeft (rhoOffset i))
  lanes (fun x y => lane b (x + 3 * y) x)

/-- The step χ. -/
def keccakChi (a : List Word) : List Word := lanes (fun x y => lane a x y ^^^ (~~~(lane a (x + 1) y) &&& lane a (x + 2) y))

/-- The shift register of the step ι one step on: x^8 = x^6 + x^5 + x^4 + 1. -/
def iotaShift (r : Nat) : Nat := if r < 128 then 2 * r else (2 * r) ^^^ 0x171

/-- The bits that a round's constant has yet to take, bit j of them at place 2^j − 1, and the register after them. -/
def iotaBits : Nat → Nat → Nat → Nat × Nat
  | 0, _, r => (0, r)
  | n + 1, j, r =>
    let rest := iotaBits n (j + 1) (iotaShift r)
    (rest.1 + r % 2 * 2 ^ (2 ^ j - 1), rest.2)

/-- The first lane with a round's constant added. -/
def iotaLane (c : Nat) : List Word → List Word
  | [] => []
  | w :: t => (w ^^^ BitVec.ofNat 64 c) :: t

/-- `n` rounds, the shift register of ι carried from one to the next. -/
def keccakRounds : Nat → Nat → List Word → List Word
  | 0, _, a => a
  | n + 1, r, a =>
    let c := iotaBits 7 0 r
    keccakRounds n c.2 (iotaLane c.1 (keccakChi (keccakRhoPi (keccakTheta a))))

/-- The permutation. -/
def keccakF (a : List Word) : List Word := keccakRounds 24 1 a

/-- A block of 136 bytes as lanes, the capacity's lanes 0. -/
def blockLanes (b : List Byte) : List Word := (List.range 25).map (fun i => BitVec.ofNat 64 (fieldLe b (8 * i) 8))

/-- Blocks absorbed into a state; `fuel` bounds their number. -/
def absorb : Nat → List Byte → List Word → List Word
  | 0, _, a => a
  | fuel + 1, b, a =>
    if b.isEmpty then a
    else absorb fuel (b.drop 136) (keccakF ((a.zip (blockLanes (b.take 136))).map (fun p => p.1 ^^^ p.2)))

/-- A message padded for SHAKE256 to whole blocks. -/
def shakePad (b : List Byte) : List Byte :=
  let k := 136 - b.length % 136
  if k = 1 then b ++ [0x9F] else b ++ [0x1F] ++ List.replicate (k - 2) 0 ++ [0x80]

/-- Bytes squeezed from a state, block by block; `fuel` bounds the number of blocks. -/
def squeeze : Nat → List Word → List Byte
  | 0, _ => []
  | fuel + 1, a => (a.flatMap (fun w => leBytes 8 w.toNat)).take 136 ++ squeeze fuel (keccakF a)

/-- SHAKE256 with an output of `n` bytes. -/
def shake256 (n : Nat) (b : List Byte) : List Byte :=
  let p := shakePad b
  (squeeze (n / 136 + 1) (absorb (p.length / 136) p (List.replicate 25 0))).take n

end Sys2Proof.Machine
end

