-- ==== Sys2Proof/Machine/Flash.lean ====
section
/-!
DEFINITION. The flash of the security block and its proposals (R554, R555, R564 to R566, R569).
-/
namespace Sys2Proof.Machine

/-- R531: a source of the security block, by its offset among site 4's forwarded sources. -/
def secSrc (o : Nat) : Nat := coreSrc 4 o

/-- The security block's state changed. -/
def modSec (s : State) (f : Security → Security) : State := { s with sec := f s.sec }

/-! ### The copies (R555) -/

/-- R555: of two copies the valid one with the higher generation, copy 0 first. -/
def pickCopy {α : Type} (ok : α → Bool) (gen : α → Nat) (a b : Option α) : Option α :=
  match a.filter ok, b.filter ok with
  | some x, some y => if gen x < gen y then some y else some x
  | some x, none => some x
  | none, y => y

/-- The boot record in force; bank 0 with no trial when neither copy is valid. -/
def bootRecord (s : State) : BootRecord :=
  (pickCopy (·.crcOk) (·.generation) (s.sec.bootRecs[0]?) (s.sec.bootRecs[1]?)).getD ⟨true, 0, 0, false, 1⟩

/-- R555: a boot record written to both copies. -/
def writeBootRecord (s : State) (active : Nat) (trial : Bool) (previous : Nat) : State :=
  let r : BootRecord := ⟨true, ((bootRecord s).generation + 1) % 2 ^ 32, active, trial, previous⟩
  modSec s (fun x => { x with bootRecs := [r, r] })

/-- The generation and slots of the key-slot copy in force; all empty when neither copy is valid. -/
def keyCopy (s : State) : KeySlots :=
  (pickCopy (·.crcOk) (·.generation) (s.sec.keyCopies[0]?) (s.sec.keyCopies[1]?)).getD ⟨true, 0, List.replicate 8 none⟩

/-- The CONFIRM key of a slot. -/
def slotKey (s : State) (i : Nat) : Option (List Byte) := (keyCopy s).slots.getD i none

/-- R555: a key slot written in both copies. -/
def writeKeySlot (s : State) (i : Nat) (k : Option (List Byte)) : State :=
  let c := keyCopy s
  let c : KeySlots := ⟨true, (c.generation + 1) % 2 ^ 32, c.slots.set i k⟩
  modSec s (fun x => { x with keyCopies := [c, c] })

/-- Some slot holds a CONFIRM key. -/
def owned (s : State) : Bool := (List.range 8).any (fun i => (slotKey s i).isSome)

/-- Some slot other than one holds a CONFIRM key. -/
def ownedBeside (s : State) (i : Nat) : Bool := (List.range 8).any (fun k => k != i && (slotKey s k).isSome)

/-- R555: a copy that fails its CRC is rewritten from the other, and source 22 raised. -/
def repairBoot (s : State) : State :=
  if s.sec.bootRecs.all (·.crcOk) then s
  else
    let r := bootRecord s
    raiseEvent (modSec s (fun x => { x with bootRecs := [r, r] })) (secSrc 22)

/-- R555: a key-slot copy that fails its CRC is rewritten from the other, and source 22 raised. -/
def repairKeys (s : State) : State :=
  if s.sec.keyCopies.all (·.crcOk) then s
  else
    let r := keyCopy s
    raiseEvent (modSec s (fun x => { x with keyCopies := [r, r] })) (secSrc 22)

/-- A firmware bank. -/
def fwBank (s : State) (b : Nat) : Bank := s.sec.banks.getD b ⟨false, false, false, 0, 0, []⟩

/-! ### Proposals -/

/-- R564, R566: what a proposal changes: a partition, a window, a key slot, or the firmware. -/
inductive Target where
  | partition (p : Nat)
  | window (w : Nat)
  | slot (i : Nat)
  | firmware
  deriving DecidableEq, Repr

/-- R564: the target of a change record. -/
def targetOf (kind : Nat) (r : List Byte) : Target :=
  match kind with
  | 0 => .partition (fieldLe r 192 1)
  | 1 => .partition (fieldLe r 0 1)
  | 2 => .window (fieldLe r 0 1)
  | 3 => .slot (fieldLe r 0 1)
  | _ => .firmware

/-- The open proposals. -/
def openProposals (s : State) : List Proposal := s.sec.proposals.filterMap id

/-- An open proposal by its number. -/
def findProposal (s : State) (n : Nat) : Option Proposal := (openProposals s).find? (fun p => p.number == n)

/-- A proposal's entry freed. -/
def dropProposal (s : State) (n : Nat) : State :=
  modSec s (fun x => { x with proposals := x.proposals.map (fun e => if e.any (fun p => p.number == n) then none else e) })

/-- R566: a window's values break its order or its granularity. -/
def windowBad (r : List Byte) : Bool :=
  let base := fieldLe r 8 8
  let limit := fieldLe r 16 8
  decide (limit < base ∨ base % 32 ≠ 0 ∨ limit % 32 ≠ 0)

/-- R566: the first of the shared checks that a proposal fails. -/
def proposalError (s : State) (kind : Nat) (r : List Byte) : Option (Status × Nat) :=
  let claims := decide (kind = 3) && fieldLe r 1 1 == 1
  firstError [(!owned s && !claims, .denied, 0x3144),
    ((openProposals s).any (fun p => targetOf p.kind p.record == targetOf kind r), .badParam, 0x3103),
    (decide (kind = 2) && windowBad r, .badParam, 0x3104),
    (decide (kind = 3) && fieldLe r 1 1 == 0 && !ownedBeside s (fieldLe r 0 1), .badParam, 0x3105),
    (decide (16 ≤ (openProposals s).length), .limitReached, 0x3121)]

/-- The lowest free entry of a list of proposals takes one. -/
def placeProposal (p : Proposal) : List (Option Proposal) → List (Option Proposal)
  | [] => []
  | none :: t => some p :: t
  | some q :: t => some q :: placeProposal p t

/-- R566: a change recorded: its command completes AWAITING_SECOND_KEY with the proposal's number. -/
def record (s : State) (c : Cmd) (kind low : Nat) (r : List Byte) : State :=
  let n := s.sec.nextProposal
  let s := modSec s (fun x => { x with
    proposals := placeProposal ⟨n, kind, r, 0, s.beat.waits⟩ x.proposals, nextProposal := (n + 1) % 2 ^ 32 })
  complete s c.id { status := .awaitingSecondKey, value := n * 2 ^ 32 + low }

/-- R566: a command proposes a change, or is refused. -/
def propose (s : State) (c : Cmd) (kind low : Nat) (r : List Byte) : State :=
  orFail s c (proposalError s kind r) (record s c kind low r)

end Sys2Proof.Machine
end

