-- ==== Sys2Proof/Machine/Partitions.lean ====
section
/-!
DEFINITION. Partitions and contexts (R432 to R443, R450): PART_CREATE, PART_DESTROY, PART_SLICE, CONTEXT_OPEN, CONTEXT_CLOSE, and what a
confirmed change of a partition does.
-/
namespace Sys2Proof.Machine

/-- A partition replaced. -/
def setPart (s : State) (p : Nat) (v : Partition) : State :=
  { s with parts := mapSet (fun _ => Partition.none) s.parts p v }

/-! ### Descriptors -/

/-- R433: the used extents of a descriptor. -/
def descExtents (b : List Byte) : List (Nat × Nat) :=
  ((List.range 8).map (fun e => (fieldLe b (8 * e) 2, fieldLe b (8 * e + 2) 2))).filter (fun e => e.2 != 0)

/-- R433: a descriptor's values. -/
def partDescOf (b : List Byte) : PartDesc :=
  { extents := descExtents b, clusters := fieldLe b 64 8, tallySlots := fieldLe b 72 8
    progBase := fieldLe b 80 8 % 2 ^ 44, progLen := fieldLe b 88 8 % 2 ^ 40
    expBase := fieldLe b 96 2, expLen := fieldLe b 100 4 % 2 ^ 17, celWays := fieldLe b 104 2, maxContexts := fieldLe b 106 1
    axes := (List.range 5).map (fun a => (fieldLe b (112 + 6 * a) 2, fieldLe b (114 + 6 * a) 2, fieldLe b (116 + 6 * a) 2))
    pkgBase := fieldLe b 142 2 }

/-- R433: a coordinate that does not lie below its length. -/
def axisBad (x : Nat × Nat × Nat) : Bool := decide (max x.1 1 ≤ x.2.2)

/-- R433, R435: a descriptor field holds a reserved value or a non-zero reserved bit. -/
def descReserved (b : List Byte) : Bool :=
  let d := partDescOf b
  (List.range 8).any (fun e => !zeroBytes b (8 * e + 4) 4)
    || decide (d.clusters = 0 ∨ d.celWays = 0 ∨ 2 ^ 44 ≤ fieldLe b 80 8 ∨ d.progBase % 4096 ≠ 0 ∨ 2 ^ 40 ≤ fieldLe b 88 8
      ∨ d.progLen % 4096 ≠ 0 ∨ d.progLen = 0 ∨ 2 ^ 17 ≤ fieldLe b 100 4 ∨ 65536 < d.expBase + d.expLen)
    || !(zeroBytes b 98 2 && zeroBytes b 107 5 && zeroBytes b 144 48) || d.axes.any axisBad

/-- An extent touches the capacity tier. -/
def extentInCap (e : Nat × Nat) : Bool := decide (e.1 < 5120 ∧ 4096 < e.1 + e.2)

/-- R434: an extent lies wholly in HBM or wholly in the capacity tier. -/
def extentWhole (e : Nat × Nat) : Bool := decide (e.1 + e.2 ≤ 1280 ∨ (4096 ≤ e.1 ∧ e.1 + e.2 ≤ 5120))

/-- Two runs of units share one. -/
def runsMeet (a b : Nat × Nat) : Bool := decide (0 < a.2 ∧ 0 < b.2 ∧ a.1 < b.1 + b.2 ∧ b.1 < a.1 + a.2)

/-- Some two runs of a list share a unit. -/
def runsOverlap : List (Nat × Nat) → Bool
  | [] => false
  | a :: t => t.any (runsMeet a) || runsOverlap t

/-- R434, R435: the extents or the program area lie where they may not. -/
def memoryBad (d : PartDesc) : Bool :=
  d.extents.any (fun e => !extentWhole e) || runsOverlap d.extents || !eachGib (inExtents d) d.progBase d.progLen

/-- R432: two descriptors share an exclusive resource. -/
def descsMeet (a b : PartDesc) : Bool :=
  a.extents.any (fun e => b.extents.any (runsMeet e)) || a.clusters &&& b.clusters != 0 || a.tallySlots &&& b.tallySlots != 0
    || runsMeet (a.expBase, a.expLen) (b.expBase, b.expLen)

/-- R498: the pool of a mill as a run of GiB units. -/
def poolRun (s : State) (t : Nat) : Nat × Nat := (getBits (getReg s .milPool t 0) 0 16, getBits (getReg s .milPool t 0) 16 16)

/-- R432, R498: a resource of a descriptor is held by a partition that is not free, or by a mill's pool. -/
def resourceHeld (s : State) (d : PartDesc) : Bool :=
  (List.range 16).any (fun p => (part s p).state != .free && descsMeet d (part s p).desc)
    || (List.range 4).any (fun t => d.extents.any (runsMeet (poolRun s t)))

/-- R435: the first check of a descriptor that fails. -/
def descError (s : State) (b : List Byte) : Option (Status × Nat) :=
  let d := partDescOf b
  firstError [(descReserved b, .badParam, 0x2D01), (!capPresent s && d.extents.any extentInCap, .noResource, 0x8004),
    (memoryBad d, .badParam, 0x2D03), (resourceHeld s d, .badParam, 0x2D04)]

/-! ### PART_CREATE -/

/-- The lowest free partition number. -/
def freePart (s : State) : Option Nat := (List.range 16).find? (fun p => (part s p).state == .free)

/-- A partition number is held for a proposal that its command has recorded. -/
def holdPart (s : State) (p : Nat) (b : List Byte) : State := setPart s p ⟨.createProposed, partDescOf b, 0, b⟩

/-- PART_CREATE of a chosen number (R435, R436). -/
def createPart (p desc : Nat) (s : State) (c : Cmd) : State :=
  if desc % 64 ≠ 0 then fail s c.id .badParam 0x2D01
  else
    readFor s c desc 192 (fun s b =>
      orFail s c (descError s b) (
        let r := b ++ [BitVec.ofNat 8 p]
        match proposalError s 0 r with
        | some e => fail s c.id e.1 e.2
        | none => record (holdPart s p b) c 0 p r))

/-- PART_CREATE (R435). -/
def startPartCreate (p : Nat) (alloc : Bool) (desc : Nat) (s : State) (c : Cmd) : State :=
  if alloc then
    match freePart s with
    | none => fail s c.id .limitReached 0x2D20
    | some p => createPart p desc s c
  else if (part s p).state ≠ .free then fail s c.id .badParam 0x2D02
  else createPart p desc s c

/-- PART_CREATE. -/
def execPartCreate (h : Hdr) (partition : Fin 16) (alloc : Bool) (desc : BitVec 44) (s : State) :
    Host.Outcome State Fault Refusal :=
  .next (command s h (.partCreate h partition alloc desc) .system none (startPartCreate partition.val alloc desc.toNat))

/-- The numbers below 64 whose bits a mask sets. -/
def maskList (m : Nat) : List Nat := bitsSet m 64

/-- R437: one axis of a partition's map written. -/
def putAxis (p : Nat) (s : State) (e : Nat × Nat × Nat × Nat) : State :=
  setReg s .netAxisMap 0 p (BitVec.ofNat 64 (e.2.2.2 + e.2.1 * 2 ^ 16 + e.2.2.1 * 2 ^ 32)) e.1

/-- R437: VALID cleared in a run of the route table. -/
def clearRoutes (s : State) (base n : Nat) : State :=
  (List.range n).foldl (fun s i => setField s .expRouteValid 0 ((base + i) / 64) ((base + i) % 64) 1 0) s

/-- R437: a confirmed PART_CREATE: the descriptor's values written in every copy, and the partition active. -/
def activatePart (s : State) (p : Nat) : State :=
  let d := (part s p).desc
  let s := setPart s p { part s p with state := .active }
  let s := (maskList d.tallySlots).foldl (fun s n => clearTally n (setReg s .vatTallyOwner 0 n (BitVec.ofNat 64 (32 + p)))) s
  let s := setReg s .expPartTable 0 p (BitVec.ofNat 64 (d.expBase + d.expLen * 2 ^ 16))
  let s := setReg s .celPartWays 0 p (BitVec.ofNat 64 d.celWays)
  let s := (d.axes.mapIdx (fun i x => (i, x))).foldl (putAxis p) s
  let s := setReg s .netAxisMap 0 p (BitVec.ofNat 64 d.pkgBase) 5
  setPartPower (clearRoutes s d.expBase d.expLen) p PartPower.reset

/-! ### PART_DESTROY -/

/-- PART_DESTROY (R436): of a partition that is active, or whose change is already proposed. -/
def startPartDestroy (p : Nat) (s : State) (c : Cmd) : State :=
  if (part s p).state = .free ∨ (part s p).state = .destroying then fail s c.id .badParam 0
  else
    let r := [BitVec.ofNat 8 p]
    match proposalError s 1 r with
    | some e => fail s c.id e.1 e.2
    | none => record (setPart s p { part s p with state := .destroyProposed }) c 1 p r

/-- PART_DESTROY. -/
def execPartDestroy (h : Hdr) (partition : Fin 16) (s : State) : Host.Outcome State Fault Refusal :=
  .next (command s h (.partDestroy h partition) .system none (startPartDestroy partition.val))

/-- R537: an event route at its reset value. -/
def resetRoute (s : State) (src : Nat) : State :=
  setReg s .evtSrcRoute (src / 256) (src % 256) (BitVec.ofNat 64 (regLayout .evtSrcRoute).reset)

/-- R531: the audit source of a context. -/
def auditSrc (x : Nat) : Nat := tileSrc (x % 4) (64 + x / 4)

/-- The open contexts of a partition. -/
def contextsOf (s : State) (p : Nat) : List Nat :=
  (List.range 256).filter (fun x => (ctxOf s x).valid && (ctxOf s x).partition == p)

/-- The queues of a partition. -/
def queuesOf (s : State) (p : Nat) : List Nat :=
  (List.range 256).filter (fun q => (queue s q).valid && q != 0 && (queue s q).partition == p)

/-- R438, step 2: a queue freed, its commands in flight ended; a freed queue posts nothing. -/
def killQueue (s : State) (q : Nat) : State :=
  let s := silenceQueue s q s.nextCmd
  let ids := (s.cmds.filter (fun c => c.queue == q)).map (·.id)
  freeQueueNow (completeAll s ids { status := .contextKilled, detail := 0x2D31 }) q

/-- A partition's batches end with its queues. -/
def dropBatches (s : State) (p : Nat) : State :=
  { s with batches := s.batches.filter (fun e => e.2.any (fun b => b.partition != p)) }

/-- R438, R537: a confirmed PART_DESTROY begins: steps 1 and 2. -/
def beginDestroy (s : State) (p : Nat) : State :=
  let d := (part s p).desc
  let xs := contextsOf s p
  let s := setPart s p { part s p with state := .destroying }
  let s := xs.foldl (fun s x => endContext s x 0x2D31 true) s
  let s := (queuesOf s p).foldl killQueue s
  let s := (maskList d.clusters).foldl (fun s c => resetRoute s (clusterSrc c)) s
  dropBatches (xs.foldl (fun s x => resetRoute s (auditSrc x)) s) p

/-- R438, step 3: an address of a partition's memory that is written: its unit is not retired and answers. -/
def wiped (s : State) (d : PartDesc) (a : Nat) : Bool :=
  inExtents d a && !isRetired s a && !isDown s (unitOf s a)

/-- R290, R438: an injection armed for a sector that the zeroing writes leaves its bit errors. -/
def wipeInjection (d : PartDesc) (s : State) (site : Nat) : State :=
  let arm := mapGet (fun _ => (0, 0)) s.inject site
  if arm.1 ≠ 0 ∧ wiped s d (32 * arm.2) then
    setSectorErrors { s with inject := mapSet (fun _ => (0, 0)) s.inject site (0, 0) } arm.2 arm.1
  else s

/-- R264, R438: the units that do not answer drop the zeroing of what they hold, with an event. -/
def wipeDown (d : PartDesc) (s : State) (u : Nat) : State :=
  let holds := d.extents.any (fun e =>
    if u < 16 then decide (e.1 < 320 * (u / 4 + 1) ∧ 320 * (u / 4) < e.1 + e.2) else extentInCap e)
  if isDown s u && holds then raiseEvent s (unitSrc u) else s

/-- R438, step 3: a partition's memory becomes +0: its lines leave the cellars, no agent holds a copy, and no mark is left. -/
def wipeMemory (s : State) (d : PartDesc) : State :=
  let gone := fun (line : Nat) => inExtents d (128 * line) && !isRetired s (128 * line)
  let s' := { s with
    mem := s.mem.filter (fun e => !wiped s d e.1)
    undef := d.extents.foldl (fun l e => cutUndef (e.1 * 2 ^ 30) (e.2 * 2 ^ 30) l) s.undef
    poison := s.poison.filter (fun e => !wiped s d (32 * e.1))
    bitErrs := s.bitErrs.filter (fun e => !wiped s d (32 * e.1))
    cellar := s.cellar.filter (fun e => !gone e.1)
    dir := s.dir.filter (fun e => !gone e.1)
    copies := s.copies.filter (fun c => !gone c.line)
    reservations := s.reservations.filter (fun e => !e.2.any gone) }
  (List.range 32).foldl (wipeDown d) ((List.range 6).foldl (wipeInjection d) s')

/-- R243, R438: the zeroing writes the doorbell line too, as no exchange request. -/
def wipeDoorbell (s : State) (p : Nat) (d : PartDesc) : State :=
  let w := getReg s .expPartDoorbell 0 p
  if natBit w.toNat 63 && inExtents d (getBits w 0 44) then doorbellMisuse s (getBits w 0 44 / 128) else s

/-- R438, step 4: the registers that name a partition. -/
def resetPartRegs (s : State) (p : Nat) (d : PartDesc) : State :=
  let s := clearRoutes s d.expBase d.expLen
  let s := [RegKind.expPartTable, .expPartShape, .expPartDoorbell, .expPartIn, .expPartCnt, .expPartOut, .expPartRet].foldl
    (fun s k => setReg s k 0 p (BitVec.ofNat 64 (regLayout k).reset)) s
  let s := (maskList d.tallySlots).foldl (fun s n => setField s .vatTallyOwner 0 n 5 1 0) s
  let s := setReg s .celPartWays 0 p 0xFFFF
  (List.range 5).foldl (fun s a => setReg s .netAxisMap 0 p (setBits (getReg s .netAxisMap 0 p a) 16 16 0) a) s

/-- R438: a partition's clusters have stopped, and none of its contexts is left. -/
def partQuiet (s : State) (p : Nat) : Bool :=
  (contextsOf s p).isEmpty && (maskList (part s p).desc.clusters).all (fun c => clusterFree s c)

/-- R438, R571: a partition being destroyed is free once its clusters have stopped: steps 3 and 4. -/
def finishDestroy (s : State) (p : Nat) : State :=
  let d := (part s p).desc
  let s := wipeDoorbell (wipeMemory s d) p d
  let s := (maskList d.clusters).foldl clearCluster s
  let s := releasePrograms (resetPartRegs s p d) p
  setPartPower (setPart s p Partition.none) p PartPower.reset

/-! ### PART_SLICE -/

/-- PART_SLICE (R450). -/
def startPartSlice (p quantum : Nat) (s : State) (c : Cmd) : State :=
  if !partActive s p then fail s c.id .badParam 0
  else succeed (setPart s p { part s p with quantum := quantum }) c.id 0

/-- PART_SLICE. -/
def execPartSlice (h : Hdr) (partition : Fin 16) (quantum : BitVec 32) (s : State) : Host.Outcome State Fault Refusal :=
  .next (command s h (.partSlice h partition quantum) .system none (startPartSlice partition.val quantum.toNat))

/-! ### Contexts -/

/-- R440: the first check of CONTEXT_OPEN that fails. -/
def openError (s : State) (p base ranks : Nat) : Option (Status × Nat) :=
  firstError [(decide (256 ≤ contextsInUse s), .limitReached, 0x2D21),
    (decide ((part s p).desc.maxContexts + 1 ≤ (contextsOf s p).length), .limitReached, 0x2D22),
    (decide (ranks = 0 ∨ 64 < ranks ∨ base % 2 ^ 20 ≠ 0) || !inPartition s p base (ranks * 0x1100000), .badParam, 0x2D07)]

/-- R544: the audit counters of a context cleared. -/
def clearAudit (s : State) (x : Nat) : State :=
  (List.range 4).foldl (fun s t =>
    [RegKind.audNonfinite, .audSaturated, .audMalformed, .audClrNonfinite, .audTrips].foldl (fun s k => setReg s k t x 0) s) s

/-- The lowest context number that is not open. -/
def freeContext (s : State) : Nat := ((List.range 256).find? (fun x => !(ctxOf s x).valid)).getD 0

/-- CONTEXT_OPEN (R440, R544, R545). -/
def startContextOpen (base prio ranks : Nat) (s : State) (c : Cmd) : State :=
  let p := (queueWho s c.queue).getD 0
  orFail s c (openError s p base ranks) (
    let x := freeContext s
    succeed (clearAudit (setCtx s x ⟨true, false, p, prio, base, ranks, none, 0, [], [], Gate.opened⟩) x) c.id x)

/-- CONTEXT_OPEN. -/
def execContextOpen (h : Hdr) (saveBase : BitVec 44) (prio : Fin 16) (saveRanks : BitVec 32) (s : State) :
    Host.Outcome State Fault Refusal :=
  .next (command s h (.contextOpen h saveBase prio saveRanks) .partition none
    (startContextOpen saveBase.toNat prio.val saveRanks.toNat))

/-- CONTEXT_CLOSE (R442). -/
def startContextClose (x : Nat) (s : State) (c : Cmd) : State :=
  orFail s c (ctxError s c.queue x) (endContext (setWait s c.id (.contextStop x)) x 0x2D30 false)

/-- CONTEXT_CLOSE. -/
def execContextClose (h : Hdr) (ctx : Fin 256) (s : State) : Host.Outcome State Fault Refusal :=
  .next (command s h (.contextClose h ctx) .partition none (startContextClose ctx.val))

end Sys2Proof.Machine
end

