-- ==== Sys2Proof/Machine/TwoKey.lean ====
section
/-!
DEFINITION. Two-key control, firmware staging and attestation (R556, R557, R561 to R573).
-/
namespace Sys2Proof.Machine

/-! ### TWO_KEY_PROPOSE -/

/-- R565: a window record holds a reserved value. -/
def windowReserved (r : List Byte) : Bool :=
  decide (64 ≤ fieldLe r 0 1 ∨ 2 ^ 44 ≤ fieldLe r 8 8 ∨ 2 ^ 44 ≤ fieldLe r 16 8 ∨ 2 ^ 24 ≤ fieldLe r 32 4
    ∨ fieldLe r 24 8 / 2 ^ 60 % 8 ≠ 0 ∨ fieldLe r 24 8 / 2 ^ 32 % 2 ^ 21 ≠ 0)
    || !(zeroBytes r 1 7 && zeroBytes r 36 28)

/-- R565: a key-slot record holds a reserved value; without a role its key is reserved too. -/
def slotReserved (r : List Byte) : Bool :=
  decide (8 ≤ fieldLe r 0 1 ∨ 2 ≤ fieldLe r 1 1) || !zeroBytes r 2 62 || (fieldLe r 1 1 == 0 && !zeroBytes r 64 1952)

/-- R564: the KIND, the length and the reserved values of a change record, by TARGET. -/
def changeKind : Nat → Option (Nat × Nat × (List Byte → Bool))
  | 1 => some (2, 64, windowReserved)
  | 2 => some (3, 2016, slotReserved)
  | _ => none

/-- TWO_KEY_PROPOSE (R564 to R566). -/
def startTwoKeyPropose (target change len : Nat) (s : State) (c : Cmd) : State :=
  match changeKind target with
  | none => fail s c.id .badParam 0x3101
  | some k =>
    if len ≠ k.2.1 then fail s c.id .badParam 0x3101
    else if !rangeIsMemory s change len then fail s c.id .badParam 0x3102
    else
      readFor s c change len (fun s r => if k.2.2 r then fail s c.id .badParam 0x3101 else propose s c k.1 0 r)

/-- R403, R564: the reserved values of TARGET. -/
def targetBad (target : Fin 16) : Option Nat := firstBad [(target.val == 0 || decide (3 ≤ target.val), 0)]

/-- TWO_KEY_PROPOSE. -/
def execTwoKeyPropose (h : Hdr) (target : Fin 16) (change : BitVec 44) (len : BitVec 32) (s : State) :
    Host.Outcome State Fault Refusal :=
  .next (command s h (.twoKeyPropose h target change len) .system (targetBad target) (startTwoKeyPropose target.val change.toNat len.toNat))

/-! ### Lapse -/

/-- R436, R569: a lapsed proposal's partition returns to the state it held before. -/
def restoreTarget (s : State) (p : Proposal) : State :=
  match targetOf p.kind p.record with
  | .partition n => setPart s n (if p.kind = 0 then Partition.none else { part s n with state := .active })
  | _ => s

/-- R569: a proposal lapses. -/
def lapse (s : State) (p : Proposal) : State :=
  raiseEvent (count (dropProposal (restoreTarget s p) p.number) .secLapses 4 0) (secSrc 17)

/-- PROPOSAL_LAPSE (R569): `SEC_TWO_KEY_WINDOW` beats have passed since its command completed. -/
def execProposalLapse (proposal : BitVec 32) (s : State) : Host.Outcome State Fault Refusal :=
  .next (
    match findProposal s proposal.toNat with
    | none => s
    | some p => if p.since + getBits (getReg s .secTwoKeyWindow 4 0) 0 32 ≤ s.beat.waits then lapse s p else s)

/-! ### TWO_KEY_CONFIRM -/

/-- R572: the device's identity. -/
def deviceId : List Byte := shake256 32 ((List.range 1952).map Config.deviceKey)

/-- R567: the digest that a confirmer signs. -/
def proposalDigest (s : State) (p : Proposal) : List Byte :=
  shake256 64 (leBytes 4 0x09002EC0 ++ leBytes 4 p.number ++ leBytes 1 p.kind ++ leBytes 7 0 ++ deviceId
    ++ leBytes 32 s.sec.nonce ++ leBytes 4 p.record.length ++ leBytes 44 0 ++ p.record)

/-- R568: a confirmation refused. -/
def refuseConfirm (s : State) (c : Cmd) (st : Status) (detail : Nat) : State :=
  raiseEvent (fail (count s .secRefusals 4 0) c.id st detail) (secSrc 18)

/-- R568: a signature that does not verify counts against its proposal, which lapses at the fourth. -/
def badSignature (s : State) (c : Cmd) (p : Proposal) : State :=
  let s := refuseConfirm s c .denied 0x3142
  let p' := { p with refused := p.refused + 1 }
  if 4 ≤ p'.refused then lapse s p
  else modSec s (fun x => { x with proposals := x.proposals.map (fun e => if e.any (fun q => q.number == p.number) then some p' else e) })

/-- R571: a confirmation completes with its effect. -/
def confirmed (s : State) (id : Nat) : State := raiseEvent (succeed (count s .secConfirms 4 0) id 0) (secSrc 21)

/-- R571: the words and tag of a window written. -/
def putWindow (s : State) (r : List Byte) : State :=
  let w := fieldLe r 0 1
  let s := (List.range 3).foldl (fun s j => setReg s .netWindow 0 w (BitVec.ofNat 64 (fieldLe r (8 + 8 * j) 8)) j) s
  { s with rkeyTags := mapSet (fun _ => 0) s.rkeyTags w (fieldLe r 32 4 % 2 ^ 24) }

/-- R563: a confirmed FW_COMMIT. -/
def commitFirmware (s : State) : State :=
  match s.sec.staged with
  | none => s
  | some b => modSec (writeBootRecord s b true s.sec.bank) (fun x => { x with pendingCommit := true })

/-- R438, R571: the confirmation of a PART_DESTROY completes when the partition is free. -/
def tryDestroy (s : State) (id p : Nat) : State :=
  if partQuiet s p then confirmed (finishDestroy s p) id else s

/-- R571: a confirmed proposal takes effect. -/
def takeEffect (s : State) (c : Cmd) (p : Proposal) : State :=
  let s := dropProposal s p.number
  match p.kind with
  | 0 => confirmed (activatePart s (fieldLe p.record 192 1)) c.id
  | 1 =>
    let n := fieldLe p.record 0 1
    tryDestroy (beginDestroy (setWait s c.id (.partFree n)) n) c.id n
  | 2 => confirmed (putWindow s p.record) c.id
  | 3 => confirmed (writeKeySlot s (fieldLe p.record 0 1) (if fieldLe p.record 1 1 = 1 then some (slice p.record 64 1952) else none)) c.id
  | _ => confirmed (commitFirmware s) c.id

/-- R568: the key that a confirmation's SLOT gives: the slot's own, or, when no slot holds one, the key that the proposal puts
into that slot. -/
def confirmKey (s : State) (p : Proposal) (slot : Nat) : Option (List Byte) :=
  if owned s then slotKey s slot
  else if targetOf p.kind p.record = .slot slot ∧ fieldLe p.record 1 1 = 1 then some (slice p.record 64 1952)
  else none

/-- R568: the checks of a confirmation's record, in order. -/
def judgeConfirm (s : State) (c : Cmd) (p : Proposal) (r : List Byte) : State :=
  let slot := fieldLe r 0 1
  if 8 ≤ slot ∨ !(zeroBytes r 1 15 && zeroBytes r 3325 3) then refuseConfirm s c .badParam 0x3102
  else
    match confirmKey s p slot with
    | none => refuseConfirm s c .denied 0x3140
    | some key =>
      if targetOf p.kind p.record = .slot slot ∧ ownedBeside s slot then refuseConfirm s c .denied 0x3141
      else if Config.mldsaVerify key (proposalDigest s p) (slice r 16 3309) then takeEffect s c p
      else badSignature s c p

/-- TWO_KEY_CONFIRM (R568, R570, R571). -/
def startTwoKeyConfirm (number signature : Nat) (s : State) (c : Cmd) : State :=
  match findProposal s number with
  | none => refuseConfirm s c .badParam 0x3106
  | some p =>
    if signature % 64 ≠ 0 ∨ !rangeIsMemory s signature 3328 then refuseConfirm s c .badParam 0x3102
    else readFor s c signature 3328 (fun s r => judgeConfirm s c p r)

/-- TWO_KEY_CONFIRM. -/
def execTwoKeyConfirm (h : Hdr) (proposal : BitVec 32) (signature : BitVec 44) (s : State) : Host.Outcome State Fault Refusal :=
  .next (command s h (.twoKeyConfirm h proposal signature) .system none (startTwoKeyConfirm proposal.toNat signature.toNat))

/-! ### Firmware -/

/-- R557: the root key digest. -/
def rootDigest : List Byte := (List.range 32).map Config.rootKeyDigest

/-- R556: an image's fields are as set out for a copy of `len` bytes. -/
def imageFields (b : List Byte) (len : Nat) : Bool :=
  let body := fieldLe b 16 4
  decide (fieldLe b 0 4 = 0x0900F3A0 ∧ 1 ≤ body ∧ body ≤ 0x37FE000 ∧ len = 8192 + body ∧ fieldLe b 8 1 < 64)
    && zeroBytes b 9 7 && zeroBytes b 20 44 && zeroBytes b 5325 2867

/-- R557: an image's digest. -/
def imageDigest (b : List Byte) : List Byte := shake256 64 (b.take 2016 ++ b.drop 8192)

/-- R556, R557: a bank after a copy of an image. -/
def stagedBank (b : List Byte) (len : Nat) : Bank :=
  let key := slice b 64 1952
  let d := imageDigest b
  ⟨imageFields b len, shake256 32 key == rootDigest, Config.mldsaVerify key d (slice b 2016 3309), fieldLe b 8 1 % 64,
    fieldLe b 4 4, d⟩

/-- R561: the first check of a staged bank that fails. -/
def bankError (s : State) (b : Bank) : Option (Status × Nat) :=
  firstError [(!b.fieldsOk, .badParam, 0x3110), (!b.keyOk, .denied, 0x3111), (!b.sigOk, .denied, 0x3112),
    (decide (b.floor < s.sec.fusedFloor), .denied, 0x3113)]

/-- R557: a bank holds a valid image. -/
def bankValid (s : State) (b : Nat) : Bool := (bankError s (fwBank s b)).isNone

/-- R561: the bank that is not ACTIVE. -/
def idleBank (s : State) : Nat := 1 - (bootRecord s).active % 2

/-- R561: a bank's contents replaced; `ok` when they are a valid image. -/
def putBank (s : State) (n : Nat) (b : Bank) (ok : Bool) : State :=
  modSec s (fun x => { x with banks := x.banks.set n b, staged := if ok then some n else none })

/-- R561: a stage that has failed: the inactive bank cannot boot. -/
def failStage (s : State) (c : Cmd) (b : Bank) (st : Status) (detail : Nat) : State :=
  fail (raiseEvent (putBank s (idleBank s) b false) (secSrc 19)) c.id st detail

/-- R561: what was copied is checked. -/
def judgeStage (s : State) (c : Cmd) (bytes : List Byte) (len : Nat) : State :=
  let b := stagedBank bytes len
  match bankError s b with
  | some e => failStage s c b e.1 e.2
  | none => succeed (putBank s (idleBank s) b true) c.id 0

/-- FW_STAGE (R561); a source that is poisoned fails the stage. -/
def startFwStage (src len : Nat) (s : State) (c : Cmd) : State :=
  if !rangeIsMemory s src len ∨ 56 * 2 ^ 20 < len then fail s c.id .badParam 0x3102
  else if (openProposals s).any (fun p => p.kind == 4) then fail s c.id .badParam 0x3103
  else
    match accessError s none (c.queue % 4) src len with
    | some e => fail (accessEvent s e) c.id .denied 0
    | none =>
      let r := readBytes s allWays src len
      match r.2.1 with
      | some a => failStage r.2.2 c ⟨false, false, false, 0, 0, []⟩ .poisoned (poisonDetail r.2.2 a)
      | none => judgeStage r.2.2 c r.1 len

/-- FW_STAGE. -/
def execFwStage (h : Hdr) (src : BitVec 44) (len : BitVec 32) (s : State) : Host.Outcome State Fault Refusal :=
  .next (command s h (.fwStage h src len) .system none (startFwStage src.toNat len.toNat))

/-- FW_COMMIT (R562). -/
def startFwCommit (s : State) (c : Cmd) : State :=
  match s.sec.staged with
  | none => fail s c.id .badParam 0x3114
  | some n => propose s c 4 0 ((fwBank s n).digest ++ leBytes 4 (fwBank s n).version)

/-- FW_COMMIT. -/
def execFwCommit (h : Hdr) (s : State) : Host.Outcome State Fault Refusal :=
  .next (command s h (.fwCommit h) .system none startFwCommit)

/-! ### Attestation -/

/-- R573: what STATE_DIGEST covers: the descriptors of the active partitions, then the windows. -/
def stateImage (s : State) : List Byte :=
  (List.range 16).flatMap (fun p => if partActive s p then (part s p).raw else [])
    ++ (List.range 64).flatMap (fun w => (List.range 3).flatMap (fun j => leBytes 8 (getReg s .netWindow 0 w j).toNat))

/-- R572: the alias public key. -/
def aliasKeyBytes (s : State) : List Byte := (List.range 1952).map (Config.aliasKey s.sec.runDigest)

/-- R573: bytes 0 to 5,519 of a report. -/
def reportBody (s : State) (who : Option Nat) (nonce : List Byte) : List Byte :=
  let key := aliasKeyBytes s
  let cert := shake256 64 (deviceId ++ s.sec.runDigest ++ key)
  leBytes 4 0x0900A77E ++ leBytes 2 1 ++ leBytes 1 (who.getD 0xFF) ++ leBytes 1 0 ++ leBytes 8 s.beat.count ++ nonce
    ++ deviceId ++ s.sec.runDigest ++ leBytes 4 s.sec.runVersion ++ leBytes 1 s.sec.fusedFloor
    ++ leBytes 1 (s.sec.bank + 2 * boolNat (bootRecord s).trial + 4 * boolNat s.sec.fallback) ++ leBytes 2 0
    ++ leBytes 8 (modFloorValue s) ++ s.sec.keysDigest ++ s.sec.configDigest ++ shake256 32 (stateImage s)
    ++ key ++ (List.range 3309).map (Config.deviceSign cert) ++ leBytes 3 0

/-- R573: a report with its signature. -/
def reportBytes (s : State) (who : Option Nat) (nonce : List Byte) : List Byte :=
  let b := reportBody s who nonce
  b ++ (List.range 3309).map (Config.aliasSign s.sec.runDigest (shake256 64 b) s.free) ++ leBytes 3 0

/-- R573: a destination is misaligned, or on a partition queue not memory of the partition. -/
def attestDestBad (s : State) (c : Cmd) (dest : Nat) : Bool :=
  if c.queue = 0 then dest % 64 != 0 else reportDestBad s c dest 8832

/-- ATTEST (R573). -/
def startAttest (nonce dest : Nat) (s : State) (c : Cmd) : State :=
  if attestDestBad s c dest then fail s c.id .badParam 0x3102
  else
    readFor s c nonce 32 (fun s n =>
      deliver { s with free := s.free + 1 } c dest (reportBytes s (queueWho s c.queue) n))

/-- ATTEST. -/
def execAttest (h : Hdr) (nonce : BitVec 44) (dest : BitVec 64) (s : State) : Host.Outcome State Fault Refusal :=
  .next (command s h (.attest h nonce dest) .any none (startAttest nonce.toNat dest.toNat))

end Sys2Proof.Machine
end

