-- ==== Sys2Proof/Machine/Boot.lean ====
section
/-!
DEFINITION. Reset, boot and supply (01_composition_identity.md, 15_beat_power.md, 18_security_boot.md): what a reset loses (R473, R491),
the composition check's reports (R32 to R35), the boot of R558, and the thermal trip.
-/
namespace Sys2Proof.Machine

/-! ### Reset -/

/-- R554: what the flash and the fuses keep when everything else is lost. -/
def keptSecurity (x : Security) : Security :=
  { Security.factory with
    bootRecs := x.bootRecs, keyCopies := x.keyCopies, banks := x.banks, config := x.config, fusedFloor := x.fusedFloor }

/-- R473, R491: every die in reset has lost its state; the flash, the fuses, the straps and what stands outside the module stay. -/
def coldState (s : State) (ph : Phase) (mgmt : Mgmt) : State :=
  { State.reset with
    pending := s.pending, free := s.free, dies := s.dies, ga := s.ga, smbusDest := s.smbusDest, phase := ph, sec := keptSecurity s.sec, mgmt := mgmt }

/-- R591: the management service when MOD_RESET_N is asserted: its fault log stays, its subscriptions are lost. -/
def mgmtReset (m : Mgmt) : Mgmt := { Mgmt.reset with faultLog := m.faultLog }

/-- R591: the management service over a reset of the dies alone. -/
def mgmtKept (m : Mgmt) : Mgmt := { m with fatalSeen := false, http := none, smbus := none }

/-- The module holds a thermal trip that no release has cleared (R491). -/
def heldHot (s : State) : Bool := s.phase == .tripped || s.phase == .heldTripped

/-- R583: every die in reset while MOD_RESET_N is held low. -/
def assertReset (s : State) : State :=
  coldState s (if heldHot s then .heldTripped else .held) (mgmtReset s.mgmt)

/-- MOD_RESET_ASSERT (R583): MOD_RESET_N held low for at least 10 µs. -/
def execModResetAssert (s : State) : Host.Outcome State Fault Refusal :=
  .next (if s.phase = .off then s else assertReset s)

/-! ### The composition check -/

/-- A hexadecimal digit. -/
def hexDigit (n : Nat) : Char := "0123456789ABCDEF".toList.getD n '0'

/-- The `n` lowest hexadecimal digits of a number, the highest first. -/
def hexDigits : Nat → Nat → List Char
  | 0, _ => []
  | n + 1, v => hexDigits n (v / 16) ++ [hexDigit (v % 16)]

/-- A number as `n` hexadecimal digits. -/
def hexText (n v : Nat) : String := String.ofList (hexDigits n v)

/-- R34, R592: the arguments of a StrapFault message. -/
def strapArgs (detail strap stepping : Nat) : List String := [hexText 4 detail, hexText 4 strap, hexText 4 stepping]

/-- R33, R34: the report of a fault at a position. -/
def reportFault (s : State) (f : Nat × Nat) : State :=
  let d := dieAt s f.1
  let known := f.2 ≠ 1
  sendMgmt s "Freldo.1.0.StrapFault" true
    (strapArgs (0x1000 * f.1 + f.2) (if known then d.strap.toNat else 0) (if known then d.stepping.toNat else 0))

/-- R34: the report of a join that did not complete its training. -/
def reportJoin (s : State) (j : Nat) : State :=
  sendMgmt s "Freldo.1.0.StrapFault" true (strapArgs (0xF000 + 0x100 * j + 0x0A) 0 0)

/-- R32: the joins that do not complete their training. -/
def untrained (t : BitVec 14) : List Nat := (List.range 14).filter (fun j => !natBit t.toNat j)

/-! ### Boot -/

/-- R558: the bank that boots: ACTIVE, or else PREVIOUS, and whether it is the fallback. -/
def bootBank (s : State) : Option (Nat × Bool) :=
  let r := bootRecord s
  if bankValid s r.active then some (r.active, false)
  else if bankValid s r.previous then some (r.previous, true)
  else none

/-- R558 step 3: the fallback is recorded. -/
def recordFallback (s : State) (b : Nat) : State := raiseEvent (writeBootRecord s b false (bootRecord s).previous) (secSrc 20)

/-- R554: the values of the boot configuration in the order of R590. -/
def configValues (c : BootConfig) : List Nat :=
  let a := c.attach
  [a.ctrlKind.val, a.ringLog2.val, a.epoch.toNat, a.ringBase.toNat, a.cplAddr.toNat, a.pkg.toNat, a.path.toNat, a.rkey.toNat,
   a.retain.toNat, c.pkgId, c.ptpCfg, c.pwrCfg] ++ c.milPool.flatMap (fun p => [p.1, p.2])
   ++ [c.mgmtIp.1, c.mgmtIp.2.1, c.mgmtIp.2.2]

/-- R558 step 4: what is recorded of the running image, the key slots and the boot configuration. -/
def recordBoot (s : State) (b : Nat) (fallback : Bool) (nonce : Nat) : State :=
  let k := fwBank s b
  modSec s (fun x => { x with
    nonce := nonce, bank := b, fallback := fallback, runDigest := k.digest, runVersion := k.version
    keysDigest := shake256 32 (Config.keySlotFlash (keyCopy s).slots)
    configDigest := shake256 32 (Config.bootConfigFlash (configValues x.config)) })

/-- R497: a mill's pool as the boot configuration gives it. -/
def poolWord (p : Nat × Nat) : Word := BitVec.ofNat 64 (p.1 + 2 ^ 16 * p.2)

/-- R554, R558 step 6: the firmware applies the boot configuration. -/
def applyConfig (s : State) : State :=
  let c := s.sec.config
  let s := { s with mgmt := { s.mgmt with ipv4 := c.mgmtIp } }
  let s := setReg s .netPkgId 0 0 (BitVec.ofNat 64 c.pkgId)
  let s := setReg s .beatPtpCfg 4 0 (BitVec.ofNat 64 c.ptpCfg)
  let s := setReg s .pwrCfg 4 0 (BitVec.ofNat 64 c.pwrCfg)
  if millPresent s then (List.range 4).foldl (fun s t => setReg s .milPool t 0 (poolWord (c.milPool.getD t (0, 0)))) s else s

/-- R558 step 7: the attach clears TRIAL, burns the floor, and is reported. -/
def bootDone (s : State) : State :=
  let r := bootRecord s
  let s := if r.trial then writeBootRecord s r.active false r.previous else s
  let s := modSec s (fun x => { x with attached := true, fusedFloor := max x.fusedFloor (fwBank s x.bank).floor })
  sendMgmt s "Freldo.1.0.Booted" false
    [hexText 8 s.sec.runVersion, toString s.sec.bank, if s.sec.fallback then "Fallback" else "Normal"]

/-- R396, R558: queue 0 is attached with the parameters of the boot configuration. -/
def attachSystem (s : State) : State := bootDone (bindQp (setQueue s 0 (attachedQueue s.sec.config.attach 0 true 0 0)) 0)

/-- R558 steps 4 to 7: a bank's image runs. -/
def runBank (s : State) (b : Nat) (fallback : Bool) (nonce : Nat) : State :=
  let s := setReg (repairKeys s) .modJoinStatus 4 0 0x3FFF
  let s := applyConfig (recordBoot s b fallback nonce)
  if Config.firmwareAttaches s.sec.runDigest then attachSystem s else s

/-- R558, R559: the boot. -/
def boot (s : State) (nonce : Nat) : State :=
  let s := repairBoot { s with phase := .running }
  match bootBank s with
  | none => { s with phase := .silent }
  | some b => runBank (if b.2 then recordFallback s b.1 else s) b.1 b.2 nonce

/-- R16: the die in the place of site 4 enables its management controller: its strap word names site 4. -/
def controllerOn (s : State) : Bool := strapSite (dieAt s 8).strap == 4

/-- R16, R29 to R36, R558: MOD_RESET_N is released: the composition check, the training of the joins, and the boot when nothing
fails. Without a management controller the port stays silent and nothing is reported. -/
def release (s : State) (nonce : Nat) (trained : BitVec 14) : State :=
  if !controllerOn s then { s with phase := .silent }
  else
    let s := { s with phase := .rom }
    match compositionFaults s with
    | [] =>
      match untrained trained with
      | [] => boot s nonce
      | l => l.foldl reportJoin s
    | l => l.foldl reportFault s

/-- R491: a release after a thermal trip leaves the module in reset unless every junction is below 60 °C. -/
def releaseIf (s : State) (nonce : Nat) (trained : BitVec 14) (hottest : Nat) : State :=
  if s.phase = .heldTripped ∧ 600 ≤ hottest then { s with phase := .tripped } else release s nonce trained

/-- MOD_RESET_RELEASE (R33, R583): `nonce` is what the random generator draws, `trained` the joins that complete their training,
`hottest` the hottest junction's reading. -/
def execModResetRelease (nonce : BitVec 256) (trained : BitVec 14) (hottest : BitVec 16) (s : State) :
    Host.Outcome State Fault Refusal :=
  .next (if s.phase = .held ∨ s.phase = .heldTripped then releaseIf s nonce.toNat trained hottest.toNat else s)

/-- BOOT_TRIAL_TIMEOUT (R560): 10 s after the firmware's start queue 0 is still not attached. -/
def execBootTrialTimeout (nonce : BitVec 256) (trained : BitVec 14) (s : State) : Host.Outcome State Fault Refusal :=
  .next (
    if !isRunning s || s.sec.attached then s
    else if (bootRecord s).trial then
      let r := bootRecord s
      let s := writeBootRecord s r.previous false r.previous
      release (coldState s .held (mgmtKept s.mgmt)) nonce.toNat trained
    else raiseEvent s (secSrc 20))

/-! ### Thermal trip -/

/-- R609: the location name of a junction sensor, the sensors numbered in the order of the table. -/
def junctionName (i : Nat) : String :=
  if i < 4 then "Tile" ++ toString i ++ ".Compute"
  else if i < 8 then "Tile" ++ toString (i - 4) ++ ".Base"
  else if i < 24 then "Tile" ++ toString ((i - 8) / 4) ++ ".Stack" ++ toString (i % 4)
  else if i = 24 then "Core4" else "Core5"

/-- R491, R609: the first sensor of a reading at 115 °C or above, and its temperature. -/
def tripSensor : Nat → List Nat → Option (Nat × Nat)
  | _, [] => none
  | i, x :: t => if 1150 ≤ x then some (i, x) else tripSensor (i + 1) t

/-- A number of tenths in decimal. -/
def tenths (n : Nat) : String := toString (n / 10) ++ "." ++ toString (n % 10)

/-- THERMAL_TRIP (R491, R609): a reading of the 26 junctions, the tiles' and then the core dies', one of them at 115 °C or above: every
die is held in reset and the trip is reported. -/
def execThermalTrip (tiles cores : List (BitVec 16)) (s : State) : Host.Outcome State Fault Refusal :=
  .next (
    match tripSensor 0 ((tiles ++ cores).map (·.toNat)) with
    | none => s
    | some (i, x) =>
      if s.phase = .running ∨ s.phase = .rom then
        sendMgmt (coldState s .tripped (mgmtKept s.mgmt)) "Freldo.1.0.ThermalTrip" true [junctionName i, tenths x]
      else s)

/-! ### Supply -/

/-- R472, R473: the input is gone: all state is lost. -/
def powerOff (s : State) : State := coldState s .off Mgmt.reset

/-- UNDERVOLTAGE_LOCKOUT (R472): an input below 36.0 V for 20 µs. -/
def execUndervoltageLockout (s : State) : Host.Outcome State Fault Refusal := .next (powerOff s)

/-- OVERVOLTAGE_DISCONNECT (R471): an input above 50.0 V for 20 µs; as a lockout. -/
def execOvervoltageDisconnect (s : State) : Host.Outcome State Fault Refusal := .next (powerOff s)

/-- SUPPLY_RESTART (R471, R473, R577): both inputs above 37.5 V for 10 ms start a power-on reset. -/
def execSupplyRestart (s : State) : Host.Outcome State Fault Refusal :=
  .next (if s.phase = .off then { s with phase := .held } else s)

/-- SUPPLY_EXCURSION (R471): a supply outside the steady range for more than 10 ms. -/
def execSupplyExcursion (s : State) : Host.Outcome State Fault Refusal :=
  .next (if isRunning s then raiseEvent (setFlag s .pwrStatus 4 0 19) (coreSrc 4 15) else s)

/-! ### Joins -/

/-- JOIN_REPLAY_READ (R10): a 64-bit read of a replay count returns and clears it; the counts are at site 4. -/
def execJoinReplayRead (a : Agent) (join : Fin 14) (s : State) : Host.Outcome State Fault Refusal :=
  .next (
    if !isRunning s then s
    else
      let w := getReg s .modJoinReplay 4 join.val
      answer (setReg s .modJoinReplay 4 join.val (setBits w 0 32 0)) a false w)

end Sys2Proof.Machine
end

