-- ==== Sys2Proof/Machine/Management.lean ====
section
/-!
DEFINITION. The management port (19_electrical_mechanical.md): SMBus (R585, R586) and the Redfish service (R587 to R593).
-/
namespace Sys2Proof.Machine

/-! ### SMBus -/

/-- R585: a reading of `num / den` in LINEAR11: a mantissa of 11 bits, not negative here, and an exponent `k - 16`. -/
def linear11 (num den : Nat) : Nat :=
  let scaled := fun k => num * 2 ^ 16 / (den * 2 ^ k)
  let least := ((List.range 32).find? (fun k => decide (scaled k < 1023))).getD 31
  let ch := Config.linear11Choice num den
  let k := least + ch.1 % (32 - least)
  let up := ch.2 && decide (num * 2 ^ 16 % (den * 2 ^ k) ≠ 0)
  (k + 16) % 32 * 2 ^ 11 + (scaled k + boolNat up) % 2 ^ 11

/-- R585: the module's SMBus address. -/
def smbusAddress (s : State) : Nat := 0x58 + s.ga.val

/-- R585: a transfer to the module's address; one to another is not the module's. -/
def addressed (s : State) (go : State) : State := if s.smbusDest.toNat = smbusAddress s then go else s

/-- R586: an answer on SMBus; none while the management controller does not run its firmware. -/
def smbusAnswer (s : State) (data : Option (List Byte)) : State :=
  { s with mgmt := { s.mgmt with smbus := some ⟨if isRunning s then data else none⟩ } }

/-- R585: a reading answered in LINEAR11. -/
def smbusReading (s : State) (num den : Nat) : State := smbusAnswer s (some (leBytes 2 (linear11 num den)))

/-- The readings changed while the controller runs. -/
def modReadings (s : State) (f : Readings → Readings) : State := if isRunning s then { s with readings := f s.readings } else s

/-- CAPABILITY (R585). -/
def execSmbusCapability (s : State) : Host.Outcome State Fault Refusal :=
  .next (addressed s (smbusAnswer s (some [0xA0])))

/-- READ_VIN (R474, R585): the input voltage as the monitor reads it, in 10 mV. -/
def execReadVin (v : BitVec 16) (s : State) : Host.Outcome State Fault Refusal :=
  .next (addressed s (smbusReading (modReadings s (fun r => { r with voltage := v.toNat })) v.toNat 100))

/-- READ_IIN (R474, R585): the input current, in 10 mA. -/
def execReadIin (v : BitVec 16) (s : State) : Host.Outcome State Fault Refusal :=
  .next (addressed s (smbusReading (modReadings s (fun r => { r with current := v.toNat })) v.toNat 100))

/-- READ_PIN (R474, R585): the input power, in W. -/
def execReadPin (v : BitVec 16) (s : State) : Host.Outcome State Fault Refusal :=
  .next (addressed s (smbusReading (modReadings s (fun r => { r with power := v.toNat })) v.toNat 1))

/-- READ_TEMPERATURE_1 (R585): the coolant inlet, in 0.1 °C. -/
def execReadTemperature1 (v : BitVec 16) (s : State) : Host.Outcome State Fault Refusal :=
  .next (addressed s (smbusReading (modReadings s (fun r => { r with inlet := v.toNat })) v.toNat 10))

/-- READ_TEMPERATURE_2 (R585, R609): the hottest junction, in 0.1 °C. -/
def execReadTemperature2 (v : BitVec 16) (s : State) : Host.Outcome State Fault Refusal :=
  .next (addressed s (smbusReading (modReadings s (fun r => { r with hottest := v.toNat })) v.toNat 10))

/-- The bytes of a text. -/
def asciiBytes (t : String) : List Byte := t.toList.map (fun c => BitVec.ofNat 8 c.toNat)

/-- MFR_ID (R585). -/
def execMfrId (s : State) : Host.Outcome State Fault Refusal :=
  .next (addressed s (smbusAnswer s (some (asciiBytes "FRELDO"))))

/-- R27, R585: the part number of an SKU. -/
def partNumber (sku : Nat) : String :=
  if sku = 0x11 then "PT-900-A" else if sku = 0x12 then "PT-900-B" else if sku = 0x13 then "PT-900-C" else "unknown"

/-- MFR_MODEL (R585). -/
def execMfrModel (s : State) : Host.Outcome State Fault Refusal :=
  .next (addressed s (smbusAnswer s (some (asciiBytes (partNumber (strapSku (dieAt s 8).strap))))))

/-- R585: the command codes that are answered. -/
def smbusCodes : List Nat := [0x19, 0x88, 0x89, 0x97, 0x8D, 0x8E, 0x99, 0x9A]

/-- SMBUS_UNSUPPORTED_COMMAND (R585): a NACK of the command byte. -/
def execSmbusUnsupportedCommand (code : BitVec 8) (s : State) : Host.Outcome State Fault Refusal :=
  .next (addressed s (if smbusCodes.contains code.toNat then s else smbusAnswer s none))

/-! ### Resources -/

/-- R588: the resources of the service. -/
inductive Res where
  | root | chassis | module_ | sensors
  | sensor (i : Nat)
  | managers | mmc | reset_ | bootConfig | faultLog | eventService | subs
  | sub (n : Nat)
  deriving DecidableEq, Repr

/-- R588: the names of the six sensors. -/
def sensorNames : List String := ["InputVoltage", "InputCurrent", "InputPower", "CoolantInlet", "CoolantFlow", "HottestJunction"]

/-- R588: the URIs of the resources beside the sensors and the subscriptions. -/
def fixedUris : List (String × Res) :=
  [("/redfish/v1", .root), ("/redfish/v1/Chassis", .chassis), ("/redfish/v1/Chassis/Module", .module_),
   ("/redfish/v1/Chassis/Module/Sensors", .sensors), ("/redfish/v1/Managers", .managers), ("/redfish/v1/Managers/MMC", .mmc),
   ("/redfish/v1/Managers/MMC/Actions/Manager.Reset", .reset_),
   ("/redfish/v1/Managers/MMC/Oem/Freldo/BootConfiguration", .bootConfig),
   ("/redfish/v1/Managers/MMC/Oem/Freldo/FaultLog", .faultLog), ("/redfish/v1/EventService", .eventService),
   ("/redfish/v1/EventService/Subscriptions", .subs)]

/-- A sensor's URI. -/
def sensorUri (i : Nat) : String := "/redfish/v1/Chassis/Module/Sensors/" ++ sensorNames.getD i ""

/-- A subscription's URI. -/
def subUri (n : Nat) : String := "/redfish/v1/EventService/Subscriptions/" ++ toString n

/-- R588: every URI of the service. -/
def allUris : List (String × Res) :=
  fixedUris ++ (List.range 6).map (fun i => (sensorUri i, .sensor i)) ++ (List.range 4).map (fun n => (subUri n, .sub n))

/-- R588: the resource at a URI. -/
def resourceAt (uri : String) : Option Res := (allUris.find? (fun p => p.1 == uri)).map (·.2)

/-- R588: the methods that a resource supports. -/
def methodsOf : Res → List String
  | .reset_ => ["POST"]
  | .bootConfig => ["GET", "PATCH"]
  | .subs => ["GET", "POST"]
  | .sub _ => ["GET", "DELETE"]
  | _ => ["GET"]

/-- R37, R593: the management controller is in its ROM state. -/
def inRom (s : State) : Bool := s.phase == .rom || s.phase == .tripped

/-- R587, R593: the service answers. -/
def serves (s : State) : Bool := inRom s || isRunning s

/-- R587: the IPv6 link-local address that RFC 4862 forms from a MAC address: FE80::/64 and the modified EUI-64 identifier. -/
def linkLocal (mac : BitVec 48) : BitVec 128 :=
  let m := mac.toNat ^^^ 2 ^ 41
  BitVec.ofNat 128 (0xFE80 * 2 ^ 112 + (m / 2 ^ 24 * 2 ^ 40 + 0xFFFE * 2 ^ 24 + m % 2 ^ 24))

/-- R587, R590: the service's IPv4 address: of the boot configuration as the last boot applied it or of DHCPv4 in firmware state, else
one of 169.254.1.0 to 169.254.254.255 (RFC 3927). -/
def serviceIpv4 (s : State) : BitVec 32 :=
  if inRom s then BitVec.ofNat 32 (0xA9FE0100 + Config.romAddress % 65024)
  else if s.mgmt.ipv4.1 = 0 then Config.dhcpAddress
  else BitVec.ofNat 32 s.mgmt.ipv4.1

/-- R587: an address is one of the service's. -/
def isService (s : State) : MgmtAddr → Bool
  | .v4 a => a == serviceIpv4 s
  | .v6 a => a == linkLocal Config.mgmtMac

/-- An answer on the management port. -/
def httpAnswer (s : State) (code : Nat) (error : String) (body : List (String × JVal)) : State :=
  { s with mgmt := { s.mgmt with http := some ⟨code, error, body⟩ } }

/-- R587: a request to a service that does not answer, or to another address, leaves no answer. -/
def served (s : State) (dest : MgmtAddr) (go : State) : State :=
  if serves s && isService s dest then go else { s with mgmt := { s.mgmt with http := none } }

/-- R588, R589: the properties of a resource that no request writes (PRESUMED: DSP0266 gives them to every resource; log entry
65). -/
def readOnlyProps : List String := ["@odata.id", "@odata.type", "Id", "Name"]

/-- R589: what is wrong with a body of which the properties `known` may be written: its message and the property. -/
def bodyError (known : List String) : JBody → Option (String × Option String)
  | .malformed => some ("MalformedJSON", none)
  | .props l =>
    match l.find? (fun p => !known.contains p.1) with
    | some p => some (if readOnlyProps.contains p.1 then "PropertyNotWritable" else "PropertyUnknown", some p.1)
    | none => none

/-- A body's properties. -/
def bodyList : JBody → List (String × JArg)
  | .malformed => []
  | .props l => l

/-- The last value that a body gives a property. -/
def bodyValue (body : List (String × JArg)) (name : String) : Option JArg :=
  (body.reverse.find? (fun p => p.1 == name)).map (·.2)

/-- R589: a request whose body is checked first. -/
def withBody (s : State) (known : List String) (body : JBody) (go : List (String × JArg) → State) : State :=
  match bodyError known body with
  | some e => httpAnswer s 400 e.1 (e.2.toList.map (fun p => (p, .bool false)))
  | none => go (bodyList body)

/-- A subscription. -/
def subscription (s : State) (n : Nat) : Option Subscription := s.mgmt.subs.getD n none

/-! ### Contents -/

/-- A number as `n` lower-case hexadecimal digits. -/
def hexLower (n v : Nat) : String := String.ofList ((hexDigits n v).map Char.toLower)

/-- R588: the UUID of the module's DEVICE_ID in text form, all zeros in the ROM state. -/
def uuidText (s : State) : String :=
  let b := if inRom s then List.replicate 16 0 else deviceId.take 16
  hexLower 8 (fieldBe b 0 4) ++ "-" ++ hexLower 4 (fieldBe b 4 2) ++ "-" ++ hexLower 4 (fieldBe b 6 2) ++ "-"
    ++ hexLower 4 (fieldBe b 8 2) ++ "-" ++ hexLower 12 (fieldBe b 10 6)

/-- R592: Chassis Status.Health. -/
def health (s : State) : String := if inRom s || s.mgmt.fatalSeen then "Critical" else "OK"

/-- R588: the PartNumber of the Chassis. -/
def chassisPart (s : State) : String :=
  if (positionFault s 8).isSome then "unknown" else partNumber (strapSku (dieAt s 8).strap)

/-- R588: a sensor's Reading. -/
def sensorReading (r : Readings) : Nat → JVal
  | 0 => .dec r.voltage 100
  | 1 => .dec r.current 100
  | 2 => .dec r.power 1
  | 3 => .dec r.inlet 10
  | 4 => .dec r.flow 100
  | _ => .dec r.hottest 10

/-- An IPv4 address in text form. -/
def ipText (a : Nat) : String :=
  toString (a / 2 ^ 24 % 256) ++ "." ++ toString (a / 2 ^ 16 % 256) ++ "." ++ toString (a / 2 ^ 8 % 256) ++ "." ++ toString (a % 256)

/-- R590: a mill's pool. -/
def poolProps (c : BootConfig) (t : Nat) : List (String × JVal) :=
  let p := c.milPool.getD t (0, 0)
  [("MillPool." ++ toString t ++ ".FirstGiB", .num p.1), ("MillPool." ++ toString t ++ ".CountGiB", .num p.2)]

/-- R590: the boot configuration's properties. -/
def configProps (c : BootConfig) : List (String × JVal) :=
  let a := c.attach
  [("SystemQueue.CtrlKind", .num a.ctrlKind.val), ("SystemQueue.RingLog2", .num a.ringLog2.val),
   ("SystemQueue.Epoch", .num a.epoch.toNat), ("SystemQueue.RingBase", .num a.ringBase.toNat),
   ("SystemQueue.CplAddr", .num a.cplAddr.toNat), ("SystemQueue.Package", .num a.pkg.toNat), ("SystemQueue.Path", .num a.path.toNat),
   ("SystemQueue.RKey", .num a.rkey.toNat), ("SystemQueue.Retain", .num a.retain.toNat), ("PackageId", .num c.pkgId),
   ("PtpTransport", .str (if natBit c.ptpCfg 8 then "IEEE802.3" else "UDPv4")), ("PtpDomain", .num (c.ptpCfg % 128 : Nat)),
   ("PowerDefaultCredits", .num (c.pwrCfg / 2 ^ 16 % 2 ^ 16 : Nat)), ("PowerBank", .num (c.pwrCfg % 256 : Nat))]
  ++ (List.range 4).flatMap (poolProps c)
  ++ [("ManagementIPv4.Address", .str (ipText c.mgmtIp.1)), ("ManagementIPv4.PrefixLength", .num c.mgmtIp.2.1),
   ("ManagementIPv4.Gateway", .str (ipText c.mgmtIp.2.2))]

/-- R592: the severity of a message. -/
def severity (m : MgmtMsg) : String := if m.critical then "Critical" else if m.id = "Freldo.1.0.Booted" then "OK" else "Warning"

/-- R588, R592: a message of the fault log. -/
def msgProps (i : Nat) (m : MgmtMsg) : List (String × JVal) :=
  let p := "Members." ++ toString i ++ "."
  [(p ++ "MessageId", .str m.id), (p ++ "Severity", .str (severity m))]
    ++ m.args.mapIdx (fun k a => (p ++ "MessageArgs." ++ toString k, .str a))
    ++ (match m.stamp with
      | some t => [(p ++ "EventTimestamp", .time t)]
      | none => [])

/-- R588: a subscription's properties. -/
def subProps (x : Subscription) : List (String × JVal) :=
  [("Destination", .str x.destination), ("Protocol", .str "Redfish"), ("Context", .str x.context)]

/-- Links to members. -/
def memberLinks (l : List String) : List (String × JVal) := l.map (fun u => ("Members", .link u))

/-- R588, R593: a sensor. -/
def sensorProps (s : State) (i : Nat) : List (String × JVal) :=
  if inRom s then [("Status.State", .str "UnavailableOffline")] else [("Reading", sensorReading s.readings i)]

/-- R588: the management controller. -/
def mmcProps (s : State) : List (String × JVal) :=
  [("FirmwareVersion", .str (if inRom s then "none" else hexText 8 s.sec.runVersion)), ("DateTime", .time s.beat.count),
   ("Oem.Freldo.State", .str (if inRom s then "Rom" else "Firmware")), ("Oem.Freldo.BeatCount", .num s.beat.count),
   ("Oem.Freldo.ModFloor", .str (hexText 16 (modFloorValue s)))]

/-- R588: the contents of a resource. -/
def contents (s : State) : Res → List (String × JVal)
  | .root => [("RedfishVersion", .str Config.redfishVersion), ("UUID", .str (uuidText s)), ("Chassis", .link "/redfish/v1/Chassis"),
      ("Managers", .link "/redfish/v1/Managers"), ("EventService", .link "/redfish/v1/EventService")]
  | .chassis => memberLinks ["/redfish/v1/Chassis/Module"]
  | .module_ => [("Manufacturer", .str "Freldo Microsystems"), ("Model", .str "PT-900"), ("PartNumber", .str (chassisPart s)),
      ("SerialNumber", .str Config.serialNumber), ("PowerState", .str (if isRunning s then "On" else "Off")),
      ("Status.Health", .str (health s))]
  | .sensors => memberLinks ((List.range 6).map sensorUri)
  | .sensor i => sensorProps s i
  | .managers => memberLinks ["/redfish/v1/Managers/MMC"]
  | .mmc => mmcProps s
  | .reset_ => []
  | .bootConfig => configProps s.sec.config
  | .faultLog => s.mgmt.faultLog.mapIdx msgProps |>.flatten
  | .eventService => [("ServiceEnabled", .bool true), ("DeliveryRetryAttempts", .num 3), ("DeliveryRetryIntervalSeconds", .num 1)]
  | .subs => memberLinks (((List.range 4).filter (fun n => (subscription s n).isSome)).map subUri)
  | .sub n => match subscription s n with
    | some x => subProps x
    | none => []

/-- A resource exists: a subscription only once it has been created. -/
def exists_ (s : State) : Res → Bool
  | .sub n => (subscription s n).isSome
  | _ => true

/-- REDFISH_GET (R588, R589). -/
def execRedfishGet (q : Sent String) (s : State) : Host.Outcome State Fault Refusal :=
  .next (served s q.dest (
    match resourceAt q.what with
    | none => httpAnswer s 404 "" []
    | some r =>
      if !(methodsOf r).contains "GET" then httpAnswer s 405 "" []
      else if !exists_ s r then httpAnswer s 404 "" []
      else httpAnswer s 200 "" (contents s r)))

/-- REDFISH_UNSUPPORTED_REQUEST (R589): another URI, or a method that a listed URI does not support. -/
def execRedfishUnsupportedRequest (method : String) (q : Sent String) (s : State) : Host.Outcome State Fault Refusal :=
  .next (served s q.dest (
    match resourceAt q.what with
    | none => httpAnswer s 404 "" []
    | some r => if (methodsOf r).contains method then s else httpAnswer s 405 "" []))

/-! ### Text forms -/

/-- A text cut at every occurrence of a character. -/
def cutAt (c : Char) : List Char → List (List Char)
  | [] => [[]]
  | x :: t =>
    match cutAt c t with
    | [] => [[]]
    | h :: r => if x = c then [] :: h :: r else (x :: h) :: r

/-- The value of a decimal digit. -/
def digitOf (c : Char) : Option Nat := if '0'.toNat ≤ c.toNat ∧ c.toNat ≤ '9'.toNat then some (c.toNat - '0'.toNat) else none

/-- A decimal number of at most five digits. -/
def decimalOf (l : List Char) : Option Nat :=
  if l.isEmpty ∨ 5 < l.length then none
  else l.foldl (fun n c => match n, digitOf c with
    | some n, some d => some (10 * n + d)
    | _, _ => none) (some 0)

/-- A part of an IPv4 address. -/
def octetOf (l : List Char) : Option Nat := (decimalOf l).filter (fun n => decide (n < 256 ∧ l.length ≤ 3))

/-- An IPv4 address in dotted form. -/
def ipv4Of (l : List Char) : Option Nat :=
  match (cutAt '.' l).map octetOf with
  | [some a, some b, some c, some d] => some (a * 2 ^ 24 + b * 2 ^ 16 + c * 2 ^ 8 + d)
  | _ => none

/-- A hexadecimal digit. -/
def isHex (c : Char) : Bool := "0123456789abcdefABCDEF".toList.contains c

/-- The groups of an IPv6 address; an IPv4 address at its end counts as two. -/
def groupsOf (l : List Char) : List (List Char) :=
  let g := cutAt ':' l
  match g.getLast? with
  | some e => if e.contains '.' ∧ (ipv4Of e).isSome then g.dropLast ++ [['0'], ['0']] else g
  | none => g

/-- A group of an IPv6 address. -/
def isGroup (g : List Char) : Bool := decide (1 ≤ g.length ∧ g.length ≤ 4) && g.all isHex

/-- Where a list of groups leaves its run of zero groups out: the empty groups of an IPv6 address. -/
def emptyGroups (g : List (List Char)) : Nat := (g.filter (·.isEmpty)).length

/-- An IPv6 address in text form: eight groups, or fewer with one run left out. -/
def isIpv6 (l : List Char) : Bool :=
  let g := groupsOf l
  let full := g.filter (fun x => !x.isEmpty)
  let inner := (g.drop 1).dropLast
  full.all isGroup &&
    (if emptyGroups g = 0 then decide (g.length = 8)
     else decide (full.length ≤ 7 ∧ 3 ≤ g.length) && emptyGroups inner == 1
       && (!(g.headD []).isEmpty || (inner.headD ['0']).isEmpty)
       && (!(g.getLastD []).isEmpty || (inner.getLastD ['0']).isEmpty))

/-- What follows a prefix. -/
def afterPrefix (p l : List Char) : Option (List Char) := if l.take p.length = p then some (l.drop p.length) else none

/-- R591: a port number, after its colon, is absent or a number. -/
def portOk (l : List Char) : Bool :=
  match l with
  | [] => true
  | c :: t => c == ':' && (decimalOf t).any (fun n => decide (n < 65536))

/-- R591: an address, or an address in brackets, and a port. -/
def hostOk (l : List Char) : Bool :=
  match l with
  | '[' :: t =>
    match cutAt ']' t with
    | [a, p] => isIpv6 a && portOk p
    | _ => false
  | _ =>
    let a := (cutAt ':' l).headD []
    (ipv4Of a).isSome && portOk (l.drop a.length)

/-- R591: a Destination of the form http://address[:port]/path. -/
def destinationOk (d : String) : Bool :=
  match afterPrefix "http://".toList d.toList with
  | none => false
  | some r =>
    let h := (cutAt '/' r).headD []
    hostOk h && decide (h.length < r.length)

/-! ### Subscriptions -/

/-- The management service's state changed. -/
def modMgmt (s : State) (f : Mgmt → Mgmt) : State := { s with mgmt := f s.mgmt }

/-- R591: what a POST to Subscriptions asks for: a Destination in form, Protocol "Redfish", and a Context of at most 64 characters. -/
def wantedSub (body : List (String × JArg)) : Option Subscription :=
  match bodyValue body "Destination", bodyValue body "Protocol", bodyValue body "Context" with
  | some (.str d), some (.str p), none => if destinationOk d && p == "Redfish" then some ⟨d, ""⟩ else none
  | some (.str d), some (.str p), some (.str c) =>
    if destinationOk d && p == "Redfish" && decide (c.length ≤ 64) then some ⟨d, c⟩ else none
  | _, _, _ => none

/-- R591: a subscription takes the lowest free place. -/
def addSub (s : State) (x : Subscription) : State :=
  match (List.range 4).find? (fun n => (subscription s n).isNone) with
  | none => httpAnswer s 400 "CreateLimitReachedForResource" []
  | some n =>
    httpAnswer (modMgmt s (fun m => { m with subs := m.subs.set n (some x) })) 201 "" (("Id", .str (toString n)) :: subProps x)

/-- SUBSCRIPTION_CREATE (R589, R591): a POST whose body is a JSON object of the properties `l`, or no JSON object. -/
def execSubscriptionCreate (dest : MgmtAddr) (json : Bool) (l : List (String × JArg)) (s : State) :
    Host.Outcome State Fault Refusal :=
  .next (served s dest (withBody s ["Destination", "Protocol", "Context"] (if json then .props l else .malformed) (fun l =>
    match wantedSub l with
    | none => httpAnswer s 400 "" []
    | some x => addSub s x)))

/-- SUBSCRIPTION_DELETE (R588). -/
def execSubscriptionDelete (q : Sent (Fin 8)) (s : State) : Host.Outcome State Fault Refusal :=
  .next (served s q.dest (
    if (subscription s q.what.val).isNone then httpAnswer s 404 "" []
    else
      let s := modMgmt s (fun m => { m with
        subs := m.subs.set q.what.val none, queue := m.queue.filter (fun d => d.sub != q.what.val) })
      httpAnswer s Config.deleteCode "" []))

/-- R591: delivery `n` of those on their way to a subscription is retried, or dropped after its third retry; those sent before it have
been answered and leave the queue (log entry 65). -/
def retryAt (sub : Nat) : Nat → List Delivery → List Delivery
  | _, [] => []
  | n, d :: t =>
    if d.sub = sub then
      match n with
      | 0 => if 3 ≤ d.retries then t else { d with retries := d.retries + 1 } :: t
      | n + 1 => retryAt sub n t
    else d :: retryAt sub n t

/-- The deliveries on their way to a subscription. -/
def deliveriesTo (s : State) (sub : Nat) : Nat := (s.mgmt.queue.filter (fun d => d.sub == sub)).length

/-- EVENT_POST_RETRY (R591): a delivery got no 2xx answer for 1 s, those to the subscription before it having got one. -/
def execEventPostRetry (d : DeliveryAt) (s : State) : Host.Outcome State Fault Refusal :=
  .next (
    if serves s && decide (d.place < deliveriesTo s d.sub.val) then
      modMgmt s (fun m => { m with queue := retryAt d.sub.val d.place m.queue })
    else s)

/-- MANAGER_RESET (R583, R588): the module resets as when MOD_RESET_N is held low and released; ForceRestart only. -/
def execManagerReset (dest : MgmtAddr) (body : JBody) (x : ResetInputs) (s : State) : Host.Outcome State Fault Refusal :=
  .next (served s dest (withBody s ["ResetType"] body (fun l =>
    if bodyValue l "ResetType" = some (.str "ForceRestart") then releaseIf (assertReset s) x.nonce.toNat x.trained x.hottest.toNat
    else httpAnswer s 400 "" [])))

/-! ### The boot configuration -/

/-- R590: how a property's new value fares. -/
inductive Put where
  | ok (c : BootConfig)
  | notInList
  | outOfRange

/-- A number in a range put into the configuration. -/
def putNum (v : JArg) (lo hi : Int) (f : Nat → BootConfig) : Put :=
  match v with
  | .num n => if lo ≤ n ∧ n ≤ hi then .ok (f n.toNat) else .outOfRange
  | _ => .notInList

/-- An IPv4 address put into the configuration. -/
def putIp (v : JArg) (f : Nat → BootConfig) : Put :=
  match v with
  | .str t => match ipv4Of t.toList with
    | some a => .ok (f a)
    | none => .notInList
  | _ => .notInList

/-- A parameter of queue 0 replaced. -/
def withAttach (c : BootConfig) (f : AttachParams → AttachParams) : BootConfig := { c with attach := f c.attach }

/-- R427, R590: a parameter of queue 0. -/
def putQueue (c : BootConfig) (name : String) (v : JArg) : Option Put :=
  if name = "SystemQueue.CtrlKind" then some (putNum v 0 2 (fun n => withAttach c (fun a => { a with ctrlKind := Fin.ofNat 4 n })))
  else if name = "SystemQueue.RingLog2" then
    some (putNum v 0 16 (fun n => withAttach c (fun a => { a with ringLog2 := Fin.ofNat 32 n })))
  else if name = "SystemQueue.Epoch" then
    some (putNum v 0 (2 ^ 32 - 1) (fun n => withAttach c (fun a => { a with epoch := BitVec.ofNat 32 n })))
  else if name = "SystemQueue.RingBase" then
    some (putNum v 0 (2 ^ 44 - 1) (fun n => withAttach c (fun a => { a with ringBase := BitVec.ofNat 44 n })))
  else if name = "SystemQueue.CplAddr" then
    some (putNum v 0 (2 ^ 64 - 1) (fun n => withAttach c (fun a => { a with cplAddr := BitVec.ofNat 64 n })))
  else if name = "SystemQueue.Package" then
    some (putNum v 0 (2 ^ 16 - 1) (fun n => withAttach c (fun a => { a with pkg := BitVec.ofNat 16 n })))
  else if name = "SystemQueue.Path" then
    some (putNum v 0 (2 ^ 12 - 1) (fun n => withAttach c (fun a => { a with path := BitVec.ofNat 12 n })))
  else if name = "SystemQueue.RKey" then
    some (putNum v 0 (2 ^ 32 - 1) (fun n => withAttach c (fun a => { a with rkey := BitVec.ofNat 32 n })))
  else if name = "SystemQueue.Retain" then
    some (putNum v 0 (2 ^ 40 - 1) (fun n => withAttach c (fun a => { a with retain := BitVec.ofNat 40 n })))
  else none

/-- R590: a mill's pool. -/
def putPool (c : BootConfig) (name : String) (v : JArg) : Option Put :=
  (List.range 4).findSome? (fun t =>
    let p := c.milPool.getD t (0, 0)
    let set := fun q => { c with milPool := c.milPool.set t q }
    if name = "MillPool." ++ toString t ++ ".FirstGiB" then some (putNum v 0 65535 (fun n => set (n, p.2)))
    else if name = "MillPool." ++ toString t ++ ".CountGiB" then some (putNum v 0 65535 (fun n => set (p.1, n)))
    else none)

/-- R590: the remaining properties. -/
def putOther (c : BootConfig) (name : String) (v : JArg) : Option Put :=
  if name = "PackageId" then some (putNum v 0 65534 (fun n => { c with pkgId := n }))
  else if name = "PtpTransport" then
    some (match v with
      | .str t => if t = "UDPv4" then .ok { c with ptpCfg := c.ptpCfg % 256 }
          else if t = "IEEE802.3" then .ok { c with ptpCfg := c.ptpCfg % 256 + 256 } else .notInList
      | _ => .notInList)
  else if name = "PtpDomain" then some (putNum v 0 127 (fun n => { c with ptpCfg := c.ptpCfg / 256 * 256 + n }))
  else if name = "PowerDefaultCredits" then
    some (putNum v 1536 4352 (fun n => { c with pwrCfg := c.pwrCfg % 2 ^ 16 + 2 ^ 16 * n }))
  else if name = "PowerBank" then some (putNum v 1 255 (fun n => { c with pwrCfg := c.pwrCfg / 256 * 256 + n }))
  else if name = "ManagementIPv4.Address" then some (putIp v (fun a => { c with mgmtIp := (a, c.mgmtIp.2) }))
  else if name = "ManagementIPv4.PrefixLength" then
    some (putNum v 0 32 (fun n => { c with mgmtIp := (c.mgmtIp.1, n, c.mgmtIp.2.2) }))
  else if name = "ManagementIPv4.Gateway" then some (putIp v (fun a => { c with mgmtIp := (c.mgmtIp.1, c.mgmtIp.2.1, a) }))
  else none

/-- R590: one property of a PATCH; none when the resource has none of that name. -/
def putProp (c : BootConfig) (name : String) (v : JArg) : Option Put :=
  (putQueue c name v).or ((putPool c name v).or (putOther c name v))

/-- R590: the names of the properties in the order of its table. -/
def propOrder : List String := (configProps BootConfig.factory).map (·.1)

/-- R590: the properties put one by one in table order: the new configuration, or the first failure and its property. -/
def putAll (body : List (String × JArg)) : List String → BootConfig → BootConfig ⊕ (String × String)
  | [], c => .inl c
  | name :: t, c =>
    match bodyValue body name with
    | none => putAll body t c
    | some v =>
      match putProp c name v with
      | some (.ok c') => putAll body t c'
      | some .notInList => .inr ("PropertyValueNotInList", name)
      | _ => .inr ("PropertyValueOutOfRange", name)

/-- R497, R590: a mill's pool breaks the rules of `MIL_POOL`. -/
def poolBad (s : State) (t : Nat) (p : Nat × Nat) : Bool :=
  if millPresent s then decide (p.2 ≠ 0 ∧ (p.1 < 320 * t ∨ 320 * (t + 1) < p.1 + p.2)) else decide (p ≠ (0, 0))

/-- R590: the properties of a body put in table order, with the rules of the registers they feed: the 9 of SystemQueue, those up to
MillPool, and the rest. -/
def putChecked (s : State) (body : List (String × JArg)) (c : BootConfig) : BootConfig ⊕ (String × String) :=
  match putAll body (propOrder.take 9) c with
  | .inr e => .inr e
  | .inl c =>
    if (attachBad c.attach).isSome then .inr ("PropertyValueOutOfRange", "SystemQueue")
    else
      match putAll body ((propOrder.take 22).drop 9) c with
      | .inr e => .inr e
      | .inl c =>
        if (List.range 4).any (fun t => poolBad s t (c.milPool.getD t (0, 0))) then .inr ("PropertyValueOutOfRange", "MillPool")
        else putAll body (propOrder.drop 22) c

/-- BOOT_CONFIGURATION_PATCH (R589, R590). -/
def execBootConfigurationPatch (q : Sent JBody) (s : State) : Host.Outcome State Fault Refusal :=
  .next (served s q.dest (
    if inRom s then httpAnswer s 503 "" []
    else withBody s propOrder q.what (fun l =>
      match putChecked s l s.sec.config with
      | .inr e => httpAnswer s 400 e.1 [(e.2, .bool false)]
      | .inl c => httpAnswer (modSec s (fun x => { x with config := c })) 200 "" (configProps c))))

end Sys2Proof.Machine
end

