-- ==== Sys2Proof/Machine/Packet.lean ====
section
/-!
DEFINITION. Command packets (R397 to R404): their formats, the checks of R403 up to PARAM_LEN and the reserved bits, and the queue front
end that fetches them (R398 to R401).
-/
namespace Sys2Proof.Machine

/-! ### Formats -/

/-- A field of the parameters: its byte, its lowest bit counted from that byte's bit 0, and its width. -/
structure PField where
  byte : Nat
  lsb  : Nat
  width : Nat
  deriving DecidableEq, Repr

/-- The format of an opcode's parameters (R402, R410): how many bytes its table names, its scope, its fields, and the reserved
fields that its table sets out. -/
structure Format where
  last  : Nat
  scope : Scope
  fields : List PField
  rows  : List PField
  deriving DecidableEq, Repr

/-- The bit of a field, counted from bit 0 of parameter byte 0. -/
def PField.bit (f : PField) : Nat := 8 * f.byte + f.lsb

/-- The field of a whole number of bytes. -/
def bytes_ (b n : Nat) : PField := ⟨b, 0, 8 * n⟩

/-- An address field of 8 bytes. -/
def addr_ (b : Nat) : PField := ⟨b, 0, 44⟩

/-- The reserved bits of an address field. -/
def addrRest (b : Nat) : PField := ⟨b + 5, 4, 20⟩

/-- The opcodes 0x00 to 0x08. -/
def formatSystem : Nat → Option Format
  | 0x00 => some ⟨0, .any, [], []⟩
  | 0x01 => some ⟨48, .any, [bytes_ 0 1, ⟨1, 0, 3⟩, ⟨2, 0, 4⟩, ⟨3, 0, 5⟩, bytes_ 4 4, addr_ 8, bytes_ 16 8, bytes_ 24 2, ⟨26, 0, 12⟩,
      bytes_ 28 4, ⟨32, 0, 40⟩], [⟨1, 3, 5⟩, addrRest 8, bytes_ 40 8]⟩
  | 0x02 => some ⟨2, .any, [bytes_ 0 1, ⟨1, 0, 1⟩], []⟩
  | 0x03 => some ⟨0, .any, [], []⟩
  | 0x04 => some ⟨20, .any, [⟨0, 0, 2⟩, bytes_ 2 2, ⟨4, 0, 12⟩, bytes_ 8 8, bytes_ 16 4], []⟩
  | 0x05 => some ⟨16, .any, [bytes_ 0 1, bytes_ 4 4, bytes_ 8 8], []⟩
  | 0x06 => some ⟨8, .any, [bytes_ 0 1, bytes_ 4 4], []⟩
  | 0x07 => some ⟨8, .any, [bytes_ 0 8], []⟩
  | 0x08 => some ⟨7, .any, [⟨0, 0, 10⟩, ⟨2, 0, 4⟩, ⟨3, 0, 6⟩, ⟨4, 0, 2⟩, bytes_ 5 1, ⟨6, 0, 1⟩], []⟩
  | _ => none

/-- The opcodes 0x10 to 0x1E. -/
def formatData : Nat → Option Format
  | 0x10 => some ⟨16, .system, [⟨0, 0, 5⟩, addr_ 8], [addrRest 8]⟩
  | 0x11 => some ⟨1, .system, [⟨0, 0, 4⟩], []⟩
  | 0x12 => some ⟨8, .system, [⟨0, 0, 4⟩, bytes_ 4 4], []⟩
  | 0x13 => some ⟨16, .partition, [addr_ 0, ⟨8, 0, 4⟩, bytes_ 12 4], [addrRest 0]⟩
  | 0x14 => some ⟨1, .partition, [bytes_ 0 1], []⟩
  | 0x18 => some ⟨24, .any, [addr_ 0, addr_ 8, ⟨16, 0, 40⟩], [addrRest 0, addrRest 8, bytes_ 21 3]⟩
  | 0x19 => some ⟨24, .any, [addr_ 0, ⟨8, 0, 40⟩, bytes_ 16 8], [addrRest 0, bytes_ 13 3]⟩
  | 0x1A => some ⟨20, .any, [addr_ 0, addr_ 8, bytes_ 16 4], [addrRest 0, addrRest 8]⟩
  | 0x1B => some ⟨21, .any, [addr_ 0, addr_ 8, bytes_ 16 4, ⟨20, 0, 6⟩], [addrRest 0, addrRest 8]⟩
  | 0x1C => some ⟨28, .any, [addr_ 0, bytes_ 8 8, bytes_ 16 4, ⟨20, 0, 12⟩, ⟨22, 0, 1⟩, bytes_ 24 4], [addrRest 0]⟩
  | 0x1D => some ⟨28, .any, [bytes_ 0 8, addr_ 8, ⟨16, 0, 25⟩, ⟨20, 0, 12⟩, ⟨22, 0, 1⟩, bytes_ 24 4], [addrRest 8]⟩
  | 0x1E => some ⟨10, .any, [addr_ 0, ⟨8, 0, 2⟩, ⟨9, 0, 3⟩], [addrRest 0]⟩
  | _ => none

/-- The opcodes 0x30 to 0x42. -/
def formatCompute : Nat → Option Format
  | 0x30 => some ⟨12, .partition, [addr_ 0, bytes_ 8 4], [addrRest 0]⟩
  | 0x31 => some ⟨16, .partition, [bytes_ 0 1, bytes_ 2 2, addr_ 8], [addrRest 8]⟩
  | 0x32 => some ⟨23, .partition, [bytes_ 0 1, bytes_ 2 2, addr_ 8, bytes_ 16 6, ⟨22, 0, 1⟩], [addrRest 8]⟩
  | 0x33 => some ⟨1, .partition, [bytes_ 0 1], []⟩
  | 0x34 => some ⟨16, .partition, [bytes_ 0 1, bytes_ 8 8], []⟩
  | 0x35 => some ⟨25, .partition, [bytes_ 0 2, ⟨4, 0, 17⟩, addr_ 8, addr_ 16, ⟨24, 0, 1⟩], [addrRest 8, addrRest 16]⟩
  | 0x40 => some ⟨25, .partition, [bytes_ 0 1, bytes_ 4 4, bytes_ 8 4, addr_ 16, ⟨24, 0, 1⟩], [addrRest 16]⟩
  | 0x41 => some ⟨16, .partition, [bytes_ 0 1, bytes_ 8 8], []⟩
  | 0x42 => some ⟨16, .partition, [⟨0, 0, 6⟩, ⟨1, 0, 1⟩, bytes_ 8 8], []⟩
  | _ => none

/-- The opcodes 0x50 to 0x64. -/
def formatUnits : Nat → Option Format
  | 0x50 => some ⟨48, .partition, [⟨0, 0, 13⟩, ⟨0, 16, 23⟩, bytes_ 5 2, bytes_ 8 7, addr_ 16, ⟨24, 0, 60⟩, addr_ 32, bytes_ 40 4],
      [⟨1, 5, 3⟩, ⟨4, 7, 1⟩, bytes_ 7 1, bytes_ 15 1, addrRest 16, ⟨31, 4, 4⟩, addrRest 32, bytes_ 44 4]⟩
  | 0x51 => some ⟨3, .partition, [⟨0, 0, 12⟩, ⟨2, 0, 1⟩], []⟩
  | 0x52 => some ⟨28, .partition, [bytes_ 0 4, bytes_ 8 6, bytes_ 16 8, bytes_ 24 4], []⟩
  | 0x53 => some ⟨24, .partition, [bytes_ 0 3, bytes_ 8 6, bytes_ 16 8], []⟩
  | 0x54 => some ⟨16, .partition, [bytes_ 0 3, addr_ 8], [addrRest 8]⟩
  | 0x55 => some ⟨48, .partition, [bytes_ 0 2, ⟨2, 0, 2⟩, bytes_ 8 32, addr_ 40], [addrRest 40]⟩
  | 0x60 => some ⟨24, .partition, [⟨0, 0, 2⟩, ⟨1, 0, 3⟩, ⟨2, 0, 2⟩, ⟨3, 0, 4⟩, ⟨4, 0, 14⟩, ⟨6, 0, 14⟩, bytes_ 8 1, bytes_ 12 4,
      bytes_ 16 3], [⟨0, 2, 6⟩, ⟨1, 3, 5⟩, ⟨2, 2, 6⟩, ⟨3, 4, 4⟩, ⟨5, 6, 2⟩, ⟨7, 6, 2⟩, bytes_ 19 5]⟩
  | 0x61 => some ⟨2, .partition, [bytes_ 0 2], []⟩
  | 0x62 => some ⟨32, .partition, [bytes_ 0 2, addr_ 8, bytes_ 16 4, bytes_ 24 8], [addrRest 8]⟩
  | 0x63 => some ⟨32, .partition, [bytes_ 0 2, bytes_ 4 8, addr_ 16, addr_ 24], [addrRest 16, addrRest 24]⟩
  | 0x64 => some ⟨26, .partition, [⟨0, 0, 2⟩, ⟨1, 0, 1⟩, ⟨2, 0, 1⟩, bytes_ 4 5, bytes_ 12 4, addr_ 16, bytes_ 24 1, ⟨25, 0, 4⟩],
      [addrRest 16]⟩
  | _ => none

/-- The opcodes 0x70 to 0x7C. -/
def formatControl : Nat → Option Format
  | 0x70 => some ⟨12, .any, [⟨0, 0, 5⟩, bytes_ 8 4], []⟩
  | 0x71 => some ⟨16, .any, [bytes_ 8 8], []⟩
  | 0x78 => some ⟨20, .system, [⟨0, 0, 4⟩, addr_ 8, bytes_ 16 4], [addrRest 8]⟩
  | 0x79 => some ⟨16, .system, [bytes_ 4 4, addr_ 8], [addrRest 8]⟩
  | 0x7A => some ⟨24, .any, [addr_ 8, bytes_ 16 8], [addrRest 8]⟩
  | 0x7B => some ⟨20, .system, [addr_ 8, bytes_ 16 4], [addrRest 8]⟩
  | 0x7C => some ⟨0, .system, [], []⟩
  | _ => none

/-- R402, R410: the format of an opcode; none of a reserved one. -/
def formatOf (op : Nat) : Option Format :=
  (formatSystem op).or ((formatData op).or ((formatCompute op).or ((formatUnits op).or (formatControl op))))

/-- A field's value. -/
def PField.get (f : PField) (params : Nat) : Nat := params / 2 ^ f.bit % 2 ^ f.width

/-- The parameters with a field's bits cleared. -/
def PField.clear (f : PField) (params : Nat) : Nat := params - f.get params * 2 ^ f.bit

/-- R403: the byte of the lowest non-zero reserved field: a reserved row by its lowest bit, other bits by their own byte. -/
def reservedByte (f : Format) (params : Nat) : Option Nat :=
  let rows := (f.rows.filter (fun r => r.get params != 0)).map (fun r => r.bit / 8)
  let rest := (f.fields ++ f.rows).foldl (fun v r => r.clear v) params
  let bits := ((List.range 384).find? (natBit rest)).map (· / 8)
  (rows ++ bits.toList).min?

/-! ### Decoding -/

/-- A packet's command: an instruction, and the packet byte offset of a parameter whose value R403 refuses and no instruction holds. -/
structure Parsed where
  instr   : Instr
  bad     : Option Nat := none
  deriving DecidableEq, Repr

/-- An address parameter. -/
def pAddr (b : List Byte) (o : Nat) : BitVec 44 := BitVec.ofNat 44 (fieldLe b o 8)

/-- A parameter of `n` bytes in `w` bits. -/
def pNum (w : Nat) (b : List Byte) (o n : Nat) : BitVec w := BitVec.ofNat w (fieldLe b o n)

/-- A bit of a parameter byte. -/
def pBit (b : List Byte) (o i : Nat) : Bool := natBit (fieldLe b o 1) i

/-- A parameter byte as a number below 256. -/
def pByte (b : List Byte) (o : Nat) : Fin 256 := Fin.ofNat 256 (fieldLe b o 1)

/-- R427: the parameters of ATTACH. -/
def parseAttach (b : List Byte) : AttachParams :=
  { queue := pByte b 0, alloc := pBit b 1 0, ctrlKind := Fin.ofNat 4 (fieldLe b 1 1 / 2), partition := Fin.ofNat 16 (fieldLe b 2 1)
    ringLog2 := Fin.ofNat 32 (fieldLe b 3 1), epoch := pNum 32 b 4 4, ringBase := pAddr b 8, cplAddr := pNum 64 b 16 8
    pkg := pNum 16 b 24 2, path := pNum 12 b 26 2, rkey := pNum 32 b 28 4, retain := pNum 40 b 32 5 }

/-- R416: the parameters of JOB_OPEN. -/
def parseJob (b : List Byte) : JobParams :=
  let w := fieldLe b 0 8
  { jobId := Fin.ofNat 4096 w, alloc := natBit w 12, axes := BitVec.ofNat 5 (w / 2 ^ 16), fanin := BitVec.ofNat 5 (w / 2 ^ 21)
    rotate := natBit w 26, density := Fin.ofNat 4 (w / 2 ^ 27), wireSr := natBit w 29, divMode := Fin.ofNat 4 (w / 2 ^ 30)
    outFmt := Fin.ofNat 16 (w / 2 ^ 32), mode := Fin.ofNat 4 (w / 2 ^ 36), keepReserve := natBit w 38
    hop := Fin.ofNat 256 (w / 2 ^ 40), ctx := Fin.ofNat 256 (w / 2 ^ 48), firstStep := pNum 48 b 8 6, buckets := pByte b 14
    bucketTable := pAddr b 16, rollRing := pAddr b 24, rollEntries := BitVec.ofNat 16 (fieldLe b 24 8 / 2 ^ 44)
    rollSrc := pAddr b 32, rollSrcEntries := pNum 32 b 40 4 }

/-- R499: the parameters of STREAM_OPEN. -/
def parseStream (b : List Byte) : StreamParams :=
  { tile := Fin.ofNat 4 (fieldLe b 0 1), codec := Fin.ofNat 8 (fieldLe b 1 1), live := pBit b 2 0, subframe := pBit b 2 1
    priority := pNum 8 b 3 1, maxW := pNum 16 b 4 2, maxH := pNum 16 b 6 2, initQp := pNum 8 b 8 1, stale := pNum 32 b 12 4
    batch := pNum 16 b 16 2, ctx := pByte b 18 }

/-- The parameters of ENCODE_OPEN. -/
def parseEncode (b : List Byte) : EncodeParams :=
  { tile := Fin.ofNat 4 (fieldLe b 0 1), hevc := pBit b 1 0, subframe := pBit b 2 0, w := pNum 16 b 4 2, h := pNum 16 b 6 2
    initQp := pNum 8 b 8 1, rate := pNum 32 b 12 4, outRing := pAddr b 16, ctx := pByte b 24
    priority := Fin.ofNat 16 (fieldLe b 25 1) }

/-- The opcodes 0x00 to 0x08. -/
def parseSystem (h : Hdr) (b : List Byte) : Nat → Option Instr
  | 0x00 => some (.nop h)
  | 0x01 => some (.attach h (parseAttach b))
  | 0x02 => some (if pBit b 1 0 then .detachFree h (pByte b 0) else .detach h (pByte b 0))
  | 0x03 => some (.fence h)
  | 0x04 => some (.settle h (Fin.ofNat 4 (fieldLe b 0 1)) (pNum 16 b 2 2) (pNum 12 b 4 2) (pNum 64 b 8 8) (pNum 32 b 16 4))
  | 0x05 => some (.readResult h (pByte b 0) (pNum 32 b 4 4) (pNum 64 b 8 8))
  | 0x06 => some (.releaseResult h (pByte b 0) (pNum 32 b 4 4))
  | 0x07 => some (.queryCaps h (pNum 64 b 0 8))
  | 0x08 => some (.setEventRoute h (Fin.ofNat 1024 (fieldLe b 0 2)) (Fin.ofNat 16 (fieldLe b 2 1)) (Fin.ofNat 64 (fieldLe b 3 1))
      (Fin.ofNat 4 (fieldLe b 4 1)) (pByte b 5) (pBit b 6 0))
  | _ => none

/-- The opcodes 0x10 to 0x1E but for PLACE. -/
def parseData (h : Hdr) (b : List Byte) : Nat → Option Instr
  | 0x10 => some (.partCreate h (Fin.ofNat 16 (fieldLe b 0 1)) (pBit b 0 4) (pAddr b 8))
  | 0x11 => some (.partDestroy h (Fin.ofNat 16 (fieldLe b 0 1)))
  | 0x12 => some (.partSlice h (Fin.ofNat 16 (fieldLe b 0 1)) (pNum 32 b 4 4))
  | 0x13 => some (.contextOpen h (pAddr b 0) (Fin.ofNat 16 (fieldLe b 8 1)) (pNum 32 b 12 4))
  | 0x14 => some (.contextClose h (pByte b 0))
  | 0x18 => some (.copy h (pAddr b 0) (pAddr b 8) (pNum 40 b 16 5))
  | 0x19 => some (.fill h (pAddr b 0) (pNum 40 b 8 5) (pNum 64 b 16 8))
  | 0x1A => some (.gatherSectors h (pAddr b 0) (pAddr b 8) (pNum 32 b 16 4))
  | 0x1B => some (.scatterSectors h (pAddr b 0) (pAddr b 8) (pNum 32 b 16 4) (pBit b 20 0) (Fin.ofNat 16 (fieldLe b 20 1 / 2))
      (pBit b 20 5))
  | 0x1C => some (.remoteWrite h (pAddr b 0) (pNum 64 b 8 8) (pNum 32 b 16 4) (pNum 12 b 20 2) (pBit b 22 0) (pNum 32 b 24 4))
  | 0x1D => some (.remoteRead h (pNum 64 b 0 8) (pAddr b 8) (pNum 25 b 16 4) (pNum 12 b 20 2) (pBit b 22 0) (pNum 32 b 24 4))
  | _ => none

/-- The opcodes 0x30 to 0x42. -/
def parseCompute (h : Hdr) (b : List Byte) : Nat → Option Instr
  | 0x30 => some (.loadProgram h (pAddr b 0) (pNum 32 b 8 4))
  | 0x31 => some (.run h (pByte b 0) (pNum 16 b 2 2) (pAddr b 8))
  | 0x32 => some (.runStep h (pByte b 0) (pNum 16 b 2 2) (pAddr b 8) (pNum 48 b 16 6) (pBit b 22 0))
  | 0x33 => some (.caskFlush h (pByte b 0))
  | 0x34 => some (.setSeed h (pByte b 0) (pNum 64 b 8 8))
  | 0x35 => some (.routeTableWrite h (pNum 16 b 0 2) (pNum 17 b 4 4) (pAddr b 8) (pAddr b 16) (pBit b 24 0))
  | 0x40 => some (if pBit b 24 0 then .auditDisarm h (pByte b 0) (pNum 32 b 4 4) (pNum 32 b 8 4) (pAddr b 16)
      else .auditArm h (pByte b 0) (pNum 32 b 4 4) (pNum 32 b 8 4) (pAddr b 16))
  | 0x41 => some (.auditRead h (pByte b 0) (pNum 64 b 8 8))
  | 0x42 => some (.tallyRead h (Fin.ofNat 64 (fieldLe b 0 1)) (pBit b 1 0) (pNum 64 b 8 8))
  | _ => none

/-- The JOB parameter. -/
def pJob (b : List Byte) : Fin 65536 := Fin.ofNat 65536 (fieldLe b 0 2)

/-- The opcodes 0x50 to 0x54 and 0x60 to 0x64. -/
def parseUnits (h : Hdr) (b : List Byte) : Nat → Option Instr
  | 0x50 => some (.jobOpen h (parseJob b))
  | 0x51 => some (if pBit b 2 0 then .jobCloseForce h (Fin.ofNat 4096 (fieldLe b 0 2)) else .jobClose h (Fin.ofNat 4096 (fieldLe b 0 2)))
  | 0x52 => some (.bucketContribute h (pJob b) (pByte b 2) (pByte b 3) (pNum 48 b 8 6) (pNum 64 b 16 8) (pNum 32 b 24 4))
  | 0x53 => some (.rollRead h (pJob b) (pByte b 2) (pNum 48 b 8 6) (pNum 64 b 16 8))
  | 0x54 => some (.parSet h (pJob b) (pByte b 2) (pAddr b 8))
  | 0x60 => some (.streamOpen h (parseStream b))
  | 0x61 => some (.streamClose h (pNum 16 b 0 2))
  | 0x62 => some (.streamFeed h (pNum 16 b 0 2) (pAddr b 8) (pNum 32 b 16 4) (pNum 64 b 24 8))
  | 0x63 => some (.batchDefine h (pNum 16 b 0 2) (pNum 32 b 4 4) (pNum 32 b 8 4) (pAddr b 16) (pAddr b 24))
  | 0x64 => some (.encodeOpen h (parseEncode b))
  | _ => none

/-- The opcodes 0x70 to 0x7C. -/
def parseControl (h : Hdr) (b : List Byte) : Nat → Option Instr
  | 0x70 => some (if pBit b 0 4 then .budgetSetModule h (Fin.ofNat 16 (fieldLe b 0 1)) (pNum 32 b 8 4)
      else .budgetSet h (Fin.ofNat 16 (fieldLe b 0 1)) (pNum 32 b 8 4))
  | 0x71 => some (.ledgerRead h (pNum 64 b 8 8))
  | 0x78 => some (.twoKeyPropose h (Fin.ofNat 16 (fieldLe b 0 1)) (pAddr b 8) (pNum 32 b 16 4))
  | 0x79 => some (.twoKeyConfirm h (pNum 32 b 4 4) (pAddr b 8))
  | 0x7A => some (.attest h (pAddr b 8) (pNum 64 b 16 8))
  | 0x7B => some (.fwStage h (pAddr b 8) (pNum 32 b 16 4))
  | 0x7C => some (.fwCommit h)
  | _ => none

/-- PLACE by its ACTION; actions 2 and 3 are reserved (R403). -/
def parsePlace (h : Hdr) (b : List Byte) : Parsed :=
  let act := fieldLe b 8 1 % 4
  if 2 ≤ act then { instr := .nop h, bad := some (16 + 8) }
  else if act = 0 then { instr := .placeRetire h (pAddr b 0) }
  else { instr := .placeHome h (pAddr b 0) (Fin.ofNat 4 (fieldLe b 9 1)) (pBit b 9 2) }

/-- RESERVE_FLUSH by its ACTION; action 3 is reserved (R403). -/
def parseFlush (h : Hdr) (b : List Byte) : Parsed :=
  match fieldLe b 2 1 % 4 with
  | 0 => { instr := .reserveFlushZero h (pJob b) (pNum 256 b 8 32) (pAddr b 40) }
  | 1 => { instr := .reserveFlushSave h (pJob b) (pNum 256 b 8 32) (pAddr b 40) }
  | 2 => { instr := .reserveFlushLoad h (pJob b) (pNum 256 b 8 32) (pAddr b 40) }
  | _ => { instr := .nop h, bad := some (16 + 2) }

/-- A packet's parameters decoded. -/
def parse (h : Hdr) (op : Nat) (b : List Byte) : Parsed :=
  if op = 0x1E then parsePlace h b
  else if op = 0x55 then parseFlush h b
  else
    match (parseSystem h b op).or ((parseData h b op).or ((parseCompute h b op).or ((parseUnits h b op).or (parseControl h b op)))) with
    | some i => { instr := i }
    | none => { instr := .nop h }

/-! ### Reserved values -/

/-- R403: the packet byte offset of a command's lowest parameter that holds a reserved value, as the meanings of the commands give
it. A SCATTER_SECTORS that does not accumulate uses neither AOP nor SIZE, and a reserved value in them stands against none (DESIGN CHOICE,
log entry 54). -/
def reservedValue : Instr → Option Nat
  | .attach _ p => attachBad p
  | .detachFree _ q => firstBad [(q.val == 0, 1)]
  | .settle _ kind _ path _ _ => firstBad [(kind.val == 0 || kind.val == 3, 0), (kind.val == 2 && decide (1024 ≤ path.toNat), 5)]
  | .copy _ _ _ len => firstBad [(len.toNat % 32 != 0, 16)]
  | .fill _ _ len _ => firstBad [(len.toNat % 32 != 0, 8)]
  | .scatterSectors _ _ _ _ acc aop size => firstBad [(acc && !reduceOk aop.val size, 20)]
  | .remoteWrite _ _ dst len path kind _ => remoteWriteBad dst.toNat len.toNat path.toNat kind
  | .remoteRead _ src _ len path kind _ => remoteReadBad src.toNat len.toNat path.toNat kind
  | .run _ _ _ sc => firstBad [(sc.toNat % 128 != 0, 8)]
  | .runStep _ _ _ sc _ _ => firstBad [(sc.toNat % 128 != 0, 8)]
  | .jobOpen _ p => jobBad p
  | .streamOpen _ p => streamBad p
  | .twoKeyPropose _ target _ _ => targetBad target
  | .routeTableWrite _ _ n _ cfg _ => firstBad [(decide (65536 < n.toNat), 4), (cfg.toNat % 64 != 0, 16)]
  | _ => none

/-! ### Fetching -/

/-- R403: a refusal counted. -/
def refusePacket (s : State) (q ticket : Nat) (st : Status) (detail value : Nat) : State :=
  let s := match st with
    | .badCrc => count s .cmdBadCrc (queueSite q) 0
    | .badSequence => count s .cmdBadSeq (queueSite q) 0
    | _ => s
  refuse s q ticket st detail value

/-- R403: the checks on the header and the parameters' reserved bits, then acceptance. -/
def takePacket (s : State) (q n : Nat) (b : List Byte) : State :=
  let ticket := fieldLe b 8 4
  let op := fieldLe b 0 1
  let len := fieldLe b 6 2
  let params := b.drop 16
  if crc32c (clear4 b 12) ≠ fieldLe b 12 4 then refusePacket s q ticket .badCrc 0x2C01 0
  else if fieldLe b 1 1 ≠ 1 ∨ 4 ≤ fieldLe b 2 1 ∨ 64 ≤ len then refusePacket s q ticket .badParam 0x2C02 0
  else if fieldLe b 3 1 ≠ q then refusePacket s q ticket .badParam 0x2C03 0
  else if fieldLe b 4 2 ≠ n % 65536 then refusePacket s q ticket .badSequence 0x2C04 (n % 65536)
  else
    match formatOf op with
    | none => refusePacket s q ticket .badOpcode 0x2C05 0
    | some f =>
      if len < f.last ∨ 48 < len then refusePacket s q ticket .badParam 0x2C06 0
      else
        let h : Hdr := ⟨Fin.ofNat 256 q, pNum 32 b 8 4, pBit b 2 0, pBit b 2 1⟩
        let bad := (reservedByte f (leNat params)).map (· + 16)
        let x := parse h op params
        accept s h x.instr f.scope (lowest bad (lowest x.bad (reservedValue x.instr)))

/-- R398: the front end fetches packet number `n` of a queue and consumes its slot. -/
def fetchPacket (s : State) (q n : Nat) : State :=
  let v := queue s q
  let a := v.ringBase + 64 * (n % 2 ^ v.ringLog2)
  let s := count (setQueue s q { v with head := (n + 1) % 2 ^ 17 }) .cmdPackets (queueSite q) 0
  match accessError s (queueWho s q) (queueSite q) a 64 with
  | some e =>
    let f := takeFreeNat (accessEvent s e)
    refusePacket f.2 q (f.1 % 2 ^ 32) .badCrc 0x2C01 0
  | none =>
    let r := readBytes s (waysOf s (queueWho s q)) a 64
    takePacket r.2.2 q n r.1

/-- R398: packets are fetched until HEAD equals TAIL; `fuel` is how many there are. -/
def fetchAll (s : State) (q : Nat) : Nat → State
  | 0 => s
  | fuel + 1 => if (queue s q).valid then fetchAll (fetchPacket s q (queue s q).head) q fuel else s

/-- R398, R400: a doorbell that is ignored. -/
def badDoorbell (s : State) (q : Nat) : State :=
  raiseEvent (setFlag s .cmdStatus (queueSite q) 0 8) (coreSrc (queueSite q) 1)

/-- R398: TAIL written to a queue's doorbell. -/
def ringQueue (s : State) (q tail : Nat) : State :=
  let v := queue s q
  let n := (tail + 2 ^ 17 - v.head) % 2 ^ 17
  if !v.valid || decide (2 ^ v.ringLog2 < n) then badDoorbell s q
  else fetchAll (setQueue s q { v with tail := tail }) q n

/-- QUEUE_DOORBELL (R398). -/
def execQueueDoorbell (q : Fin 256) (tail : BitVec 17) (s : State) : Host.Outcome State Fault Refusal :=
  .next (if isRunning s then ringQueue s q.val tail.toNat else s)

/-! ### RoCE forms (R400, R401) -/

/-- R355: the module takes an inbound RoCE packet: its P_Key is 0xFFFF, its invariant CRC is right and its path MTU is one of the
supported ones. -/
def takesRoce (s : State) (f : RoceHead) : Bool :=
  isRunning s && f.pkey == 0xFFFF && f.icrc && [1024, 2048, 4096].contains f.mtu

/-- R355: a CNP sent for an arriving packet that carries CE. -/
def answerCe (s : State) (qp : Nat) (ce : Bool) : State := if ce then answerRoce s qp .cnp [] else s

/-- R425: an inbound RDMA WRITE message of a queue pair has been applied. -/
def bumpQp (s : State) (qp : Nat) : State :=
  let v := qpair s qp
  if v.queue.isSome then settleReached (setQpair s qp { v with settle := v.settle + 1 }) else s

/-- R400: packets written at a queue's next slots. -/
def placePackets (s : State) (q tail : Nat) (l : List (BitVec 512)) : State :=
  let v := queue s q
  (l.mapIdx (fun i p => (i, p))).foldl (fun s x =>
    storeFor s (queueWho s q) (queueSite q) (v.ringBase + 64 * ((tail + x.1) % 2 ^ v.ringLog2)) (leBytes 64 x.2.toNat)) s

/-- R400: the packets of a SEND consumed, or RNR NAK when the ring has no room for them. -/
def sendPackets (s : State) (qp q : Nat) (l : List (BitVec 512)) : State :=
  let v := queue s q
  if 2 ^ v.ringLog2 < (v.tail + 2 ^ 17 - v.head) % 2 ^ 17 + l.length then answerRoce s qp .rnrNak []
  else
    let s := answerRoce (placePackets s q v.tail l) qp .ack []
    ringQueue s q ((v.tail + l.length) % 2 ^ 17)

/-- ROCE_SEND_PACKETS (R400, R401): a SEND of 1 to 64 whole packets to a bound queue pair. -/
def execRoceSendPackets (m : QpHead) (packets : List (BitVec 512)) (s : State) : Host.Outcome State Fault Refusal :=
  .next (
    if !takesRoce s m.head then s
    else
      let s := answerCe s m.qp.val m.head.ce
      match (qpair s m.qp.val).queue with
      | none => answerRoce s m.qp.val .invalidNak []
      | some q =>
        if packets.isEmpty ∨ 64 < packets.length then answerRoce s m.qp.val .invalidNak [] else sendPackets s m.qp.val q packets)

/-- ROCE_WRITE_IMMEDIATE_DOORBELL (R400, R401, R425): the immediate rings the bound queue's doorbell. -/
def execRoceWriteImmediateDoorbell (m : QpHead) (imm : BitVec 32) (s : State) : Host.Outcome State Fault Refusal :=
  .next (
    if !takesRoce s m.head then s
    else
      let s := answerCe s m.qp.val m.head.ce
      match (qpair s m.qp.val).queue with
      | none => answerRoce s m.qp.val .invalidNak []
      | some q =>
        let s := bumpQp (answerRoce s m.qp.val .ack []) m.qp.val
        if 2 ^ 17 ≤ imm.toNat then badDoorbell s q else ringQueue s q imm.toNat)

end Sys2Proof.Machine
end

