-- ==== Sys2Proof/Machine/Ports.lean ====
section
/-!
DEFINITION. The network ports (R322 to R328, R344, R345, R349), the package ID (R351), and the recovery of a path's rate (R328).
-/
namespace Sys2Proof.Machine

/-- R324: all four lanes in one state. -/
def fourLanes (b : Bool) : List Bool := List.replicate 4 b

/-- R344: a port carries nothing: its lanes are not locked, and the packets it held are lost. -/
def portDown (p : Port) : Port := { p with up := false, lanes := fourLanes false, held := [], heldRoce := [], paused := false }

/-- R345: a port is declared failed. -/
def failPort (s : State) (n : Nat) : State :=
  let s := setPort s n { portDown (port s n) with retraining := none, failed := true }
  raiseEvent (setFlag s .netPortStatus (portTile n) (n % 4) 9) (tileSrc (portTile n) (22 + n % 4))

/-- R344, R345: a port starts a retrain; the seventeenth within 1,048,576 beats declares it failed. -/
def startRetrain (s : State) (n : Nat) : State :=
  let p := port s n
  let recent := s.beat.waits :: p.retrains.filter (fun t => decide (s.beat.waits - t < 1048576))
  let s := setPort s n { portDown p with retraining := some s.beat.waits, retrains := recent }
  let s := count s .netPortRetrains (portTile n) (n % 4)
  if 17 ≤ recent.length then failPort s n else s

/-- LANE_LOCK_LOSS (R344): a lane of a port that is up loses lock or alignment. -/
def execLaneLockLoss (lane : Fin 64) (s : State) : Host.Outcome State Fault Refusal :=
  .next (if isRunning s && (port s (lane.val / 4)).up then startRetrain s (lane.val / 4) else s)

/-- R345: a port trains: it is enabled, not up and not declared failed. -/
def trains (s : State) (n : Nat) : Bool :=
  natBit (portCtrl s n).toNat 0 && !(port s n).up && !(port s n).failed

/-- R595: the four receive lanes of a port all come from one far-end port, `far` naming the port that each lane comes from. -/
def oneFarPort (far : List Nat) : Bool := far.length == 4 && far.all (fun x => some x == far.head?)

/-- R597: a port emits light on its transmit fibres: the module has 42 V, and the port is enabled and not declared failed; a
retraining port stays lit. -/
def portLit (s : State) (n : Nat) : Bool :=
  s.phase != .off && natBit (portCtrl s n).toNat 0 && !(port s n).failed

/-- PORT_RETRAIN_DONE (R324, R595): a port that trains has all four lanes, which come from one far-end port, locked and aligned, and
comes up. -/
def execPortRetrainDone (l : PortLanes) (s : State) : Host.Outcome State Fault Refusal :=
  .next (
    let n := l.port.val
    if isRunning s && trains s n && oneFarPort l.far then
      setPort s n { port s n with up := true, lanes := fourLanes true, retraining := none, probeSince := s.beat.waits }
    else s)

/-- PORT_FAILED (R345): a retrain has not completed within 10,000 beats. -/
def execPortFailed (n : Fin 16) (s : State) : Host.Outcome State Fault Refusal :=
  .next (
    if !isRunning s then s
    else
      match (port s n.val).retraining with
      | some t => if 10000 ≤ s.beat.waits - t then failPort s n.val else s
      | none => s)

/-- R345: ENABLE written: 1 trains a port that is down and ends its failure, 0 stops it. -/
def enablePort (s : State) (n : Nat) (on : Bool) : State :=
  let s := setField s .netPortCtrl (portTile n) (n % 4) 0 1 (boolNat on)
  let p := port s n
  if on then setPort s n { p with failed := false }
  else setPort s n { portDown p with retraining := none }

/-- PORT_ENABLE_WRITE (R345): a write by any agent but the management controller is ignored. -/
def execPortEnableWrite (a : Agent) (n : Fin 16) (enable : Bool) (s : State) : Host.Outcome State Fault Refusal :=
  .next (if !isRunning s then s else if a = .mmc then answer (enablePort s n.val enable) a false 0 else answer s a false 0)

/-- R351: the package ID written through a tile's window. -/
def writePkgId (s : State) (a : Agent) (tile pkg : Nat) : State :=
  if a = .mmc then answer (wakeTransport (setReg s .netPkgId 0 0 (BitVec.ofNat 64 (pkg % 65536)))) a false 0
  else reservedWrite s a (tileSrc tile 26)

/-- PKG_ID_WRITE (R351): a write by any agent but the management controller is ignored and raises an event. -/
def execPkgIdWrite (a : Agent) (pkg : BitVec 16) (s : State) : Host.Outcome State Fault Refusal :=
  .next (if isRunning s then writePkgId s a 0 pkg.toNat else s)

/-- R349: a port's PROBE to package 0xFFFF. -/
def probePacket (s : State) (n : Nat) : Packet :=
  let h := icrunHeader s { plainFields 6 with dst := 0xFFFF, len := 4 }
  ⟨sealHeader (splice h 17 [1]), [BitVec.ofNat 8 n, 0, 0, 0]⟩

/-- PROBE_TIMER (R349, R351): a port in DIRECT mode sends a PROBE every 1,000 beats. -/
def execProbeTimer (n : Fin 16) (s : State) : Host.Outcome State Fault Refusal :=
  .next (
    let p := port s n.val
    if isRunning s && p.up && isDirect s n.val && decide (ownPkg s ≠ 0xFFFF ∧ 1000 ≤ s.beat.waits - p.probeSince) then
      putOn (setPort s n.val { p with probeSince := s.beat.waits }) n.val (probePacket s n.val)
    else s)

/-- R325: a port's paused class may send again, and the packets it held leave. -/
def resumePort (s : State) (n : Nat) : State :=
  let p := port s n
  let s := p.held.foldl (fun s x => sendOn s n x) (setPort s n { p with paused := false, held := [], heldRoce := [] })
  { s with roceOut := s.roceOut ++ p.heldRoce }

/-- PFC_FRAME (R325): a priority flow control frame pauses or resumes the port's transmission on its class. -/
def execPfcFrame (n : Fin 16) (pause : Bool) (pcp : Fin 8) (s : State) : Host.Outcome State Fault Refusal :=
  .next (
    let c := portCtrl s n.val
    if isRunning s && (port s n.val).up && natBit c.toNat 8 && getBits c 9 3 == pcp.val then
      (if pause then setPort s n.val { port s n.val with paused := true } else resumePort s n.val)
    else s)

/-- R328: a path's rate one step higher. -/
def recoverRate (s : State) (k : Nat) : State :=
  let o := outPath s k
  if o.rate < 1000000 ∧ 64 ≤ s.beat.waits - o.rateSince then
    setOutPath s k { o with rate := min 1000000 (o.rate + 10000), rateSince := o.rateSince + 64 }
  else s

/-- RATE_RECOVER (R328): the rate of a path recovers by 1 % of the port's rate every 64 beats. -/
def execRateRecover (pkg : BitVec 16) (path : BitVec 12) (s : State) : Host.Outcome State Fault Refusal :=
  .next (if isRunning s then recoverRate s (pathKey pkg.toNat path.toNat) else s)

/-- R328: an ECE halves a path's rate. -/
def halveRate (s : State) (k : Nat) : State :=
  let o := outPath s k
  setOutPath s k { o with rate := o.rate / 2, rateSince := s.beat.waits }

end Sys2Proof.Machine
end

