-- ==== Sys2Proof/Machine/RegRead.lean ====
section
/-!
DEFINITION. What a control register reads (R10, R11): the bits kept for it, and those that mirror other state of the module, block by
block in the order of the spec's register tables.
-/
namespace Sys2Proof.Machine

/-- A word of fields, each as (lowest bit, width, value). -/
def pack (l : List (Nat × Nat × Nat)) : Word := BitVec.ofNat 64 (l.foldl (fun n f => n + f.2.2 % 2 ^ f.2.1 * 2 ^ f.1) 0)

/-- A value that saturates at the top of `w` bits. -/
def saturated (w v : Nat) : Nat := min v (2 ^ w - 1)

/-- The capability registers, whose fields are constants. -/
def capsReg : RegKind → Word
  | .seqCaps => pack [(32, 8, 8), (16, 16, 32768), (12, 4, 4), (0, 6, 63)]
  | .vatCaps => pack [(16, 5, 16), (12, 1, 1), (11, 1, 1), (0, 11, 0x7FF)]
  | .vecCaps => pack [(17, 1, 1), (16, 1, 1), (0, 16, 1024)]
  | .rowCaps => pack [(24, 17, 65536), (16, 3, 7), (0, 16, 16384)]
  | .memCaps => pack [(40, 8, 64), (32, 8, 255), (16, 4, 4), (8, 8, 32), (0, 8, 80)]
  | .capCaps => pack [(40, 8, 64), (32, 8, 255), (8, 4, 8), (0, 8, 64)]
  | .celCaps => pack [(32, 8, 128), (24, 8, 32), (16, 8, 16), (0, 16, 256)]
  | .dirCaps => pack [(48, 11, 1024), (40, 8, 64), (36, 4, 8), (32, 4, 8), (24, 5, 16), (0, 20, 524288)]
  | .netCaps => pack [(32, 12, 4095), (12, 10, 1023), (8, 4, 4), (0, 8, 64)]
  | .clrCaps => pack [(37, 13, 4096), (25, 12, 4095), (17, 8, 255), (12, 5, 16), (0, 9, 256)]
  | .expCaps => pack [(24, 17, 65536), (12, 12, 256), (0, 4, 7)]
  | .milCaps => pack [(40, 8, 16), (32, 8, 128), (16, 14, 8192), (8, 8, 61), (0, 6, 0x3F)]
  | .ingCaps => pack [(40, 8, 64), (32, 8, 64), (24, 8, 4), (0, 17, 65536)]
  | .evtCaps => pack [(16, 8, 16), (8, 8, 64), (0, 8, 255)]
  | .evtCtrlCaps => pack [(8, 8, 16), (0, 8, 64)]
  | .audCaps => pack [(16, 16, 100), (0, 8, 48)]
  | .cmdCaps => pack [(32, 17, 65536), (8, 8, 127), (0, 5, 16)]
  | .prtCaps => pack [(20, 5, 16), (8, 9, 256), (0, 5, 16)]
  | .pwrCaps => pack [(32, 16, 1536), (16, 16, 4352), (0, 16, 1536)]
  | .beatCaps => pack [(32, 8, 20), (8, 8, 16), (0, 8, 4)]
  | .secCaps => pack [(16, 8, 8), (8, 8, 16), (0, 8, 63)]
  | _ => 0

/-! ### Compute -/

/-- The STATE code of `SEQ_STATUS`. -/
def seqCode : SeqState → Nat
  | .idle => 0
  | .loading => 1
  | .running => 2
  | .finishing => 3
  | .suspending => 4
  | .restoring => 5
  | .stopped => 6

/-- A stream of a cluster. -/
def streamAt (v : Cluster) (i : Nat) : Stream := v.streams.getD i Stream.reset

/-- The streams of a cluster that satisfy a test, as a mask. -/
def streamMask (v : Cluster) (ok : Stream → Bool) : Nat :=
  (List.range 4).foldl (fun n i => n + boolNat (ok (streamAt v i)) * 2 ^ i) 0

/-- The `SEQ_` registers of a cluster; the credits of the running slice are measured, so free (log entry 5). -/
def seqWord (s : State) (v : Cluster) (j : Nat) : RegKind → Word
  | .seqStatus => pack [(32, 15, v.faultPc), (28, 2, v.faultStream), (24, 4, v.faultCode), (16, 4, streamMask v (·.ended)),
      (12, 4, streamMask v (fun x => x.waiting.isSome)), (0, 3, seqCode v.state)]
  | .seqSlice => pack [(32, 12, v.slice), (18, 6, v.count - 1), (12, 6, v.rank), (8, 4, v.partition), (0, 8, v.ctx)]
  | .seqPc => pack [(48, 15, (streamAt v 3).pc), (32, 15, (streamAt v 2).pc), (16, 15, (streamAt v 1).pc), (0, 15, (streamAt v 0).pc)]
  | .seqSliceEnergy => pack [(32, 32, saturated 32 (v.measured / 1000)),
      (0, 32, if v.count = 0 then 0 else (Config.freeWord s.free).toNat)]
  | .seqToken => pack [(0, 24, mapGet (fun _ => 0) v.tokens j)]
  | _ => 0

/-- `VAT_STATUS` of a vat. -/
def vatWord (v : Vat) : Word :=
  pack [(3, 1, boolNat v.suspended.isSome), (2, 1, boolNat (!v.draining.isEmpty)),
    (1, 1, boolNat ((v.acc.map (·.bank)).getD v.bank)), (0, 1, boolNat v.acc.isSome)]

/-- The `VAT_`, `VEC_` and `ROW_` status registers. -/
def engineWord (s : State) (site i : Nat) : RegKind → Word
  | .vatStatus => vatWord ((cluster s (16 * site + i / 4)).vats.getD (i % 4) Vat.reset)
  | .vecStatus => let v := (cluster s (16 * site + i)).vec; pack [(24, 6, v.cols), (16, 6, v.rows)]
  | .rowStatus => pack [(0, 1, boolNat (!(cluster s (16 * site + i)).rowOps.isEmpty))]
  | _ => 0

/-! ### Memory and coherence -/

/-- Bit `i` of the `n` units from `u` on is 1 while that unit answers (R264). -/
def upMask (s : State) (u n : Nat) : Nat := (List.range n).foldl (fun m i => m + boolNat (!isDown s (u + i)) * 2 ^ i) 0

/-- Entry `i` of a table of retired units (R285). -/
def retiredWord (s : State) (k i : Nat) : Word :=
  match (mapGet (fun _ => []) s.retired k)[i]? with
  | some u => pack [(63, 1, 1), (12, 32, u)]
  | none => 0

/-- The `MEM_`, `CAP_` and `DIR_` registers. -/
def memoryWord (s : State) (site i : Nat) : RegKind → Word
  | .memStatus => pack [(0, 4, upMask s (4 * site) 4)]
  | .capStatus => pack [(0, 8, upMask s (16 + 8 * (site - 4)) 8)]
  | .memRetireReport => reportWord (mapGet (fun _ => ⟨[], false⟩) s.reports site)
  | .capRetireReport => reportWord (mapGet (fun _ => ⟨[], false⟩) s.reports site)
  | .memRetired => retiredWord s site i
  | .capRetired => retiredWord s 4 i
  | .dirStatus => pack [(16, 9, (reservedOf s site).length), (0, 11, (homeQueueOf s site).length)]
  | _ => 0

/-! ### Network and clearing -/

/-- The `NET_` registers. -/
def netWord (s : State) (site i : Nat) : RegKind → Word
  | .netStatus => pack [(1, 1, boolNat s.beat.synced), (0, 1, boolNat (ownPkg s != 0xFFFF))]
  | .netPortStatus =>
    let p := port s (4 * site + i)
    pack [(8, 1, boolNat p.retraining.isSome), (4, 4, (List.range 4).foldl (fun n k => n + boolNat (p.lanes.getD k false) * 2 ^ k) 0),
      (0, 1, boolNat p.up)]
  | .netPortMac => pack [(0, 48, (Config.portMac (4 * site + i)).toNat)]
  | .netPathKey =>
    match inPath s (inKey site i) with
    | some p => pack [(63, 1, 1), (32, 12, p.path), (16, 16, p.srcPkg)]
    | none => 0
  | .netPathSettle =>
    match inPath s (inKey site i) with
    | some p => pack [(0, 64, p.settle)]
    | none => 0
  | _ => 0

/-- The STATE code of `CLR_BUCKET`. -/
def clrCode : ClrState → Nat
  | .idle => 0
  | .probe => 1
  | .wait => 2
  | .excluded => 3
  | .failed => 4

/-- The open bucket in a slot: its job, its index and itself. -/
def bucketIn (s : State) (slot : Nat) : Option (Nat × Nat × ClrBucket) :=
  s.clr.findSome? (fun j => ((List.range j.buckets.length).find? (fun b => (bucketOf j b).slot == slot)).map
    (fun b => (j.id, b, bucketOf j b)))

/-- The `CLR_` registers. -/
def clrWord (s : State) (i : Nat) : RegKind → Word
  | .clrStatus => pack [(16, 13, s.clr.length), (0, 9, openBuckets s)]
  | .clrJob =>
    match findJob s i with
    | some j => pack [(63, 1, 1), (58, 2, j.mode), (56, 2, j.density), (51, 5, j.axes), (46, 5, j.fanin), (37, 9, j.buckets.length),
        (0, 32, j.sig)]
    | none => 0
  | .clrBucket =>
    match bucketIn s i with
    | some (j, b, k) => pack [(63, 1, 1), (60, 3, clrCode k.state), (59, 1, boolNat k.parSet), (44, 12, j), (36, 8, b)]
    | none => 0
  | .clrBucketStep =>
    match bucketIn s i with
    | some (_, _, k) => pack [(0, 48, k.nextStep)]
    | none => 0
  | _ => 0

/-! ### Exchanges and ingest -/

/-- A stream's `MIL_STREAM`. -/
def streamWord (x : MilStream) : Word :=
  pack [(63, 1, 1), (62, 1, boolNat x.encode), (59, 3, x.codec), (58, 1, boolNat x.live), (57, 1, boolNat x.subframe),
    (53, 4, x.priority), (49, 4, x.partition), (41, 8, x.ctx), (39, 2, boolNat x.closing), (32, 7, x.feeds.length),
    (16, 16, x.batch), (0, 16, x.pages)]

/-- The register of a stream entry. -/
def streamReg (s : State) (x : MilStream) : RegKind → Word
  | .milStream => streamWord x
  | .milStreamDim => pack [(32, 32, x.stale), (16, 14, x.maxH), (0, 14, x.maxW)]
  | .milStreamRc => pack [(32, 32, saturated 32 x.frames), (0, 8, if x.encode then x.qp else 0)]
  | .ingStreamSide => pack [(1, 1, boolNat (activeSide s x)), (0, 1, boolNat x.side)]
  | .ingStreamProgress => pack [(0, 16, x.rows)]
  | _ => 0

/-- `ING_BATCH`: the filling fill is the oldest one armed. -/
def batchWord (x : Batch) : Word :=
  let f := x.fills.head?
  pack [(63, 1, 1), (60, 3, x.fills.length), (56, 4, x.partition), (24, 32, (f.map (·.number)).getD x.nextFill),
    (0, 17, (f.map (fun y => (mapKeys (fun e => e.isSome) y.done).length)).getD 0)]

/-- `ING_BATCH_CTRL`: CLOSE reads 1 until the record of the fill that it ended is written. -/
def batchCtrl (x : Batch) : Word := pack [(0, 1, boolNat (x.fills.any (·.closed)))]

/-- The `EXP_`, `MIL_` and `ING_` registers. -/
def ingestWord (s : State) (site i : Nat) (k : RegKind) : Word :=
  match k with
  | .expStatus => pack [(0, 8, saturated 8 ((exchEngine s site).queue.length + (exchEngine s site).running.length))]
  | .milStatus => pack [(1, 1, boolNat (!(millOf s site).units.isEmpty)), (0, 1, boolNat (!(millOf s site).decoding.isEmpty))]
  | .milPoolUsed => pack [(0, 32, pagesUsed s site)]
  | .milWort => pack [(32, 25, (millOf s site).peak), (0, 25, (millOf s site).wort)]
  | .ingBatch => ((findBatch s (4 * i + site)).map batchWord).getD 0
  | .ingBatchCtrl => ((findBatch s (4 * i + site)).map batchCtrl).getD 0
  | _ => ((findStream s (128 * site + i)).map (fun x => streamReg s x k)).getD 0

/-! ### Events and audit -/

/-- `AUD_GATE` of a context. -/
def gateWord (g : Gate) : Word :=
  pack [(63, 1, boolNat g.armed), (62, 1, boolNat g.mean.isSome), (32, 16, g.warmup - g.seen), (0, 32, (g.mean.getD 0).toNat)]

/-- The `EVT_` and `AUD_` registers. -/
def eventWord (s : State) (site i : Nat) : RegKind → Word
  | .evtPendSet => getReg s .evtPend site i
  | .evtSrcRoute => pack [(63, 1, boolNat (isFatal (256 * site + i)))]
  | .evtCoreStack => pack [(16, 5, popCount (coreStack s (64 * (site - 4) + i)) 16)]
  | .evtCoreClaim =>
    match presented s (64 * (site - 4) + i) with
    | some src => pack [(63, 1, 1), (16, 4, prioOf s src), (0, 10, src)]
    | none => 0
  | .audGate => if (ctxOf s i).valid then gateWord (ctxOf s i).gate else 0
  | _ => 0

/-! ### Commands and partitions -/

/-- A queue's registers. -/
def queueWord (v : Queue) : RegKind → Word
  | .cmdQCfg => pack [(63, 1, boolNat v.valid), (62, 1, boolNat v.attached), (60, 2, v.ctrlKind), (56, 4, v.partition),
      (55, 1, boolNat v.system), (0, 5, v.ringLog2)]
  | .cmdQRing => pack [(0, 44, v.ringBase)]
  | .cmdQCpl => pack [(0, 64, v.cplAddr)]
  | .cmdQCtrl => pack [(32, 32, v.epoch), (16, 16, v.pkg), (4, 12, v.path)]
  | .cmdQHead => pack [(32, 17, v.tail), (0, 17, v.head)]
  | .cmdQCplHead => pack [(32, 17, v.posted), (0, 17, v.cplHead)]
  | .cmdQRetain => pack [(0, 40, v.retain)]
  | _ => 0

/-- The `CMD_` registers. -/
def commandWord (s : State) (site i : Nat) (k : RegKind) : Word :=
  match k with
  | .cmdResults => pack [(0, 17, s.results.length)]
  | .cmdQpSettle => if site = 4 then pack [(0, 64, (qpair s i).settle)] else 0
  | _ => queueWord (queue s (128 * (site - 4) + i)) k

/-- The STATE code of `PRT_PART`. -/
def partCode : PartState → Nat
  | .free => 0
  | .createProposed => 1
  | .active => 2
  | .destroyProposed => 3
  | .destroying => 4

/-- A slice of a context runs. -/
def ctxRuns (s : State) (x : Nat) : Bool :=
  s.runs.any (fun r => r.ctx == x && r.slices.any (fun v => v.status == .running))

/-- The open contexts. -/
def ctxCount (s : State) : Nat := ((List.range 256).filter (fun x => (ctxOf s x).valid)).length

/-- The `PRT_` registers. -/
def partWord (s : State) (i : Nat) : RegKind → Word
  | .prtStatus => pack [(16, 9, ctxCount s), (0, 5, ((List.range 16).filter (partActive s)).length)]
  | .prtPart => pack [(32, 7, if partActive s i then popCount (part s i).desc.clusters 64 else 0),
      (16, 9, (s.programs.filter (fun g => g.partition == i)).length), (7, 9, (contextsOf s i).length), (0, 3, partCode (part s i).state)]
  | .prtPartClusters => pack [(0, 64, if partActive s i then (part s i).desc.clusters else 0)]
  | .prtPartQuantum => pack [(0, 32, (part s i).quantum)]
  | .prtCtx =>
    let x := ctxOf s i
    if x.valid then
      pack [(63, 1, 1), (61, 2, if x.ending then 2 else boolNat (ctxRuns s i)), (36, 4, x.priority), (8, 7, x.saveRanks), (0, 4, x.partition)]
    else 0
  | _ => 0

/-! ### Power, beat and security -/

/-- R477: the first-use floor applies. -/
def firstUse (s : State) : Bool := s.power.programmed.isNone && decide (s.power.closes ≤ 16)

/-- A junction's reading, in the order of R609. -/
def junction (s : State) (i : Nat) : Nat := s.readings.junctions.getD i 0

/-- The `PWR_` registers. -/
def powerWord (s : State) (site i : Nat) : RegKind → Word
  | .pwrTileStatus => pack [(48, 12, (List.range 4).foldl (fun m k => max m (junction s (8 + 4 * site + k))) 0),
      (32, 12, junction s (4 + site)), (16, 12, junction s site), (0, 1, boolNat s.power.hold)]
  | .pwrStatus => pack [(6, 1, boolNat s.power.pin), (5, 1, boolNat s.power.hold), (4, 1, boolNat (decide (s.power.thermalCap < 4352))),
      (3, 1, boolNat s.beat.lost), (2, 1, boolNat s.power.cut), (1, 1, boolNat s.power.warn), (0, 1, boolNat (firstUse s))]
  | .pwrModule => pack [(32, 16, s.power.thermalCap), (16, 16, s.power.meff), (0, 16, s.power.programmed.getD 0)]
  | .pwrBalance => pack [(32, 16, overdraft s), (0, 32, twosBits 32 (wholeCredits s.power.balance))]
  | .pwrSupply => pack [(32, 16, s.readings.power), (16, 16, s.readings.current), (0, 16, s.readings.voltage)]
  | .pwrCoolant => pack [(32, 12, s.readings.hottest), (16, 12, s.readings.flow), (0, 12, s.readings.inlet)]
  | .pwrPartAllow => pack [(32, 16, if partActive s i then (partPower s i).eff else 0), (0, 32, partSet s i)]
  | .pwrPartBalance => pack [(48, 16, partRate s i),
      (0, 48, twosBits 48 (if partActive s i then wholeCredits (partPower s i).balance else 0))]
  | _ => 0

/-- The `BEAT_` registers. -/
def beatWord (b : Beat) : RegKind → Word
  | .beatStatus => pack [(16, 16, saturated 16 b.holdLeft), (2, 1, boolNat b.ptpLock), (1, 1, boolNat b.lost), (0, 1, boolNat b.synced)]
  | .beatCount => pack [(0, 64, b.count)]
  | _ => 0

/-- The `SEC_` registers. -/
def secWord (s : State) (i : Nat) : RegKind → Word
  | .secStatus => pack [(10, 6, s.sec.fusedFloor), (9, 1, boolNat s.sec.staged.isSome), (8, 1, boolNat s.sec.pendingCommit),
      (3, 1, boolNat (owned s)), (2, 1, boolNat s.sec.fallback), (1, 1, boolNat (bootRecord s).trial), (0, 1, s.sec.bank)]
  | .secFw => pack [(32, 32, (s.sec.staged.map (fun b => (fwBank s b).version)).getD 0), (0, 32, s.sec.runVersion)]
  | .secProp =>
    match s.sec.proposals.getD i none with
    | some p => pack [(63, 1, 1), (60, 3, p.kind), (58, 2, p.refused), (0, 32, p.number)]
    | none => 0
  | .secKeySlot =>
    match slotKey s i with
    | some k => pack [(63, 1, 1), (0, 63, leNat (shake256 32 k))]
    | none => 0
  | .secDevcert => Config.deviceCert i
  | _ => 0

/-! ### A register's value -/

/-- The blocks of the register tables. -/
inductive Block where
  | mod | caps | seq | engine | memory | net | clr | ingest | event | command | part | power | beat | sec | kept
  deriving DecidableEq, Repr

/-- Where the mirrored bits of a register come from; the others are all kept. -/
def blockOf : RegKind → Block
  | .modId | .modIdCompute | .modFloor | .modUnitPresent | .modFeatEnCompute | .modFeatEnBase | .modFeatEnCore | .modDieFeat
  | .modDieFeatCompute => .mod
  | .seqCaps | .vatCaps | .vecCaps | .rowCaps | .memCaps | .capCaps | .celCaps | .dirCaps | .netCaps | .clrCaps | .expCaps | .milCaps
  | .ingCaps | .evtCaps | .evtCtrlCaps | .audCaps | .cmdCaps | .prtCaps | .pwrCaps | .beatCaps | .secCaps => .caps
  | .seqStatus | .seqSlice | .seqPc | .seqSliceEnergy | .seqToken => .seq
  | .vatStatus | .vecStatus | .rowStatus => .engine
  | .memStatus | .capStatus | .memRetireReport | .capRetireReport | .memRetired | .capRetired | .dirStatus => .memory
  | .netStatus | .netPortStatus | .netPortMac | .netPathKey | .netPathSettle => .net
  | .clrStatus | .clrJob | .clrBucket | .clrBucketStep => .clr
  | .expStatus | .milStatus | .milPoolUsed | .milWort | .milStream | .milStreamDim | .milStreamRc | .ingStreamSide
  | .ingStreamProgress | .ingBatch | .ingBatchCtrl => .ingest
  | .evtPendSet | .evtSrcRoute | .evtCoreStack | .evtCoreClaim | .audGate => .event
  | .cmdResults | .cmdQpSettle | .cmdQCfg | .cmdQRing | .cmdQCpl | .cmdQCtrl | .cmdQHead | .cmdQCplHead | .cmdQRetain => .command
  | .prtStatus | .prtPart | .prtPartClusters | .prtPartQuantum | .prtCtx => .part
  | .pwrTileStatus | .pwrStatus | .pwrModule | .pwrBalance | .pwrSupply | .pwrCoolant | .pwrPartAllow | .pwrPartBalance => .power
  | .beatStatus | .beatCount => .beat
  | .secStatus | .secFw | .secProp | .secKeySlot | .secDevcert => .sec
  | _ => .kept

/-- R44: a register that only site 4 serves. -/
def servedAt (k : RegKind) (site : Nat) : Bool :=
  match k with
  | .modJoinStatus => site == 4
  | .modJoinReplay => site == 4
  | _ => true

/-- The mirrored bits of a register. -/
def mirrored (s : State) (k : RegKind) (site i j : Nat) : Word :=
  match blockOf k with
  | .mod => modValue s site k
  | .caps => capsReg k
  | .seq => seqWord s (cluster s (16 * site + i)) j k
  | .engine => engineWord s site i k
  | .memory => memoryWord s site i k
  | .net => netWord s site i k
  | .clr => clrWord s i k
  | .ingest => ingestWord s site i k
  | .event => eventWord s site i k
  | .command => commandWord s site i k
  | .part => partWord s i k
  | .power => powerWord s site i k
  | .beat => beatWord s.beat k
  | .sec => secWord s i k
  | .kept => 0

/-- R10: the value of a register. -/
def regValue (s : State) (k : RegKind) (site i j : Nat) : Word :=
  if servedAt k site then getReg s k site i j ||| mirrored s k site i j else 0

end Sys2Proof.Machine
end

