-- ==== Sys2Proof/Machine/Registers.lean ====
section
/-!
DEFINITION. Accesses of the control space (R9 to R13, R258, R259): which are refused, what a register write does by the access codes, and
what a read returns and clears.
-/
namespace Sys2Proof.Machine

/-- The next state of a command's meaning. -/
def nextOf (s : State) (o : Host.Outcome State Fault Refusal) : State :=
  match o with
  | .next t => t
  | _ => s

/-- R607: an agent's own site. -/
def agentSite : Agent → Nat
  | .core n => 4 + n.val / 64
  | .teller t => t.val
  | .mover c => c.val / 16
  | .exchange t => t.val
  | .clearing t => t.val
  | .mill t => t.val
  | .netIn t => t.val
  | .mmc => 4
  | .frontEnd x => 4 + x.val

/-! ### Refused accesses -/

/-- R258: the site whose window holds an address of the control space, and the offset in it. -/
def siteOf (addr : Nat) : Nat := (addr - 0xF0000000000) / 0x1000000000

/-- The offset of an address in its site's control window. -/
def offsetOf (addr : Nat) : Nat := (addr - 0xF0000000000) % 0x1000000000

/-- R5: the block at an offset belongs to a unit that is absent. -/
def absentBlock (s : State) (site off : Nat) : Bool :=
  let blk := off / 0x1000000
  (decide (site < 4) && blk == 9 && !millPresent s) || (decide (4 ≤ site) && blk == 7 && !capPresent s)

/-- R9: a control register is accessed by an aligned access of 4 or 8 bytes. -/
def sizeOk (addr size : Nat) : Bool := (size == 4 || size == 8) && addr % size == 0

/-- R258: an address that nothing of the module has. -/
def isReserved (s : State) (a : Nat) : Bool := !(isMemory s a || inStore a || inControl a)

/-- R4, R5, R9, R17, R259, R607: the event source of an access that the memory or the control space refuses. -/
def accessFault (s : State) (a : Agent) (addr size : Nat) : Option Nat :=
  if inControl addr then
    let site := siteOf addr
    let off := offsetOf addr
    if !sizeOk addr size || absentBlock s site off || (regAt site (off / 8 * 8)).isNone then some (controlSrc site) else none
  else if isReserved s addr then some (controlSrc (agentSite a))
  else none

/-- RESERVED_ACCESS (R259, R607): an access to a reserved range or offset, or of a wrong size, is DENIED, returns no data and raises an
event. -/
def execReservedAccess (a : Agent) (addr : BitVec 44) (size : Fin 16) (_write : Bool) (s : State) :
    Host.Outcome State Fault Refusal :=
  .next (
    if !isRunning s then s
    else
      match accessFault s a addr.toNat size.val with
      | some src => refuseAccess s a src
      | none => s)

/-! ### Writes -/

/-- R12: the part of a register that an access covers. -/
inductive Span where
  | whole | low | high
  deriving DecidableEq, Repr

/-- R12: the part that an access of `size` bytes at an address covers. -/
def spanOf (addr size : Nat) : Span := if size = 8 then .whole else if addr % 8 = 4 then .high else .low

/-- R12: the fields that lie wholly within a part. -/
def spanFields (p : Span) (fs : List Field) : List Field :=
  match p with
  | .whole => fs
  | .low => halfFields false fs
  | .high => halfFields true fs

/-- The data of a write at its place in the register. -/
def spanData (p : Span) (v : Word) : Word :=
  match p with
  | .whole => v
  | .low => BitVec.ofNat 64 (getBits v 0 32)
  | .high => BitVec.ofNat 64 (getBits v 0 32 * 2 ^ 32)

/-- The fields of the registers whose writes have a row of their own, or act beyond the bits kept for them. -/
def actingFields : RegKind → List Field
  | .memCfg => [rw 0 0]
  | .memInject => [rw 45 44, rw 43 0]
  | .capInject => [rw 45 44, rw 43 0]
  | .evtPend => [w1c 63 0]
  | .evtPendSet => [rw 63 0]
  | .evtHoldoff => [rw 31 0]
  | .evtCoreEoi => [rw 3 0]
  | .cmdQDoorbell => [rw 16 0]
  | .cmdQCplHead => [rw 16 0]
  | .ingBatchCtrl => [rw 0 0]
  | .ingCoreDone => [rw 19 16, rw 15 0]
  | .ingStreamSide => [rw 0 0]
  | .ingCoreRing => [rw 63 63, rw 52 48, rw 43 0]
  | .milPool => [rw 31 16, rw 15 0]
  | .netPkgId => [rw 15 0]
  | _ => []

/-- R13: a register would hold a value that its description marks as reserved. -/
def reservedWord (k : RegKind) (w : Word) : Bool :=
  match k with
  | .seqWaitLimit => getBits w 0 32 == 0
  | .clrBcastLimit => getBits w 0 32 == 0
  | .expRecvLimit => getBits w 0 32 == 0
  | .beatStepLimit => getBits w 0 32 == 0
  | .secTwoKeyWindow => getBits w 0 32 == 0
  | .memRetireThresh => getBits w 16 40 == 0 || getBits w 0 8 == 0
  | .capRetireThresh => getBits w 16 40 == 0 || getBits w 0 8 == 0
  | .memScrub => getBits w 0 40 == 0
  | .capScrub => getBits w 0 40 == 0
  | .netTransport => getBits w 40 6 == 0 || getBits w 32 8 == 0 || getBits w 0 32 == 0
  | .pwrCfg => decide (getBits w 16 16 < 1536 ∨ 4352 < getBits w 16 16) || getBits w 0 8 == 0
  | .evtCoreCfg => getBits w 8 2 == 3 || decide (16 < getBits w 0 5) || (getBits w 8 2 == 2 && getBits w 12 4 == 0)
  | _ => false

/-- A register of the security block (R574). -/
def isSec : RegKind → Bool
  | .secCaps | .secStatus | .secTwoKeyWindow | .secFw | .secProp | .secKeySlot | .secConfirms | .secRefusals | .secLapses
  | .secDevcert => true
  | _ => false

/-- R464, R477, R574: a register whose writes by any agent but the management controller are ignored and raise an event. -/
def mmcOnly (k : RegKind) : Bool :=
  isSec k || (match k with
    | .beatPtpCfg => true
    | .pwrCfg => true
    | _ => false)

/-- R345: the ENABLE bit of `NET_PORT_CTRL`, and the class that may be paused no longer once PFC is off (R325). -/
def afterPortCtrl (s : State) (a : Agent) (p : Span) (n : Nat) (v : Word) : State :=
  let s := if p ≠ .high ∧ a = .mmc then enablePort s n (natBit v.toNat 0) else s
  if natBit (portCtrl s n).toNat 8 then s else resumePort s n

/-- R10 to R13: a write of the fields kept for a register. -/
def writeKept (s : State) (a : Agent) (k : RegKind) (site i j : Nat) (p : Span) (v : Word) : State :=
  let w := writeFields (getReg s k site i j) v (spanFields p (regLayout k).fields)
  if mmcOnly k && a != .mmc then reservedWrite s a (controlSrc site)
  else if reservedWord k w then reservedWrite s a (controlSrc site)
  else if !servedAt k site then answer s a false 0
  else
    let s := answer (setReg s k site i w j) a false 0
    match k with
    | .netPortCtrl => afterPortCtrl s a p (4 * site + i) v
    | _ => s

/-- R530: a write of an ingest register that acts on no field, by an agent that may not write it. -/
def ingestForeign (s : State) (a : Agent) (k : RegKind) (site i : Nat) : Bool :=
  match k with
  | .ingStreamSide => ((findStream s (128 * site + i)).map (fun x => !actsFor a x.partition)).getD true
  | .ingBatchCtrl => ((findBatch s (4 * i + site)).map (fun x => !actsFor a x.partition)).getD true
  | .ingCoreRing => !actsFor a i
  | .milPool => a != .mmc || !(millStreams s site).isEmpty
  | _ => false

/-- R290, R351: the event that a write of the register by an agent but the management controller raises, whichever half it covers. -/
def foreignSrc (a : Agent) (k : RegKind) (site : Nat) : Option Nat :=
  if a = .mmc then none
  else
    match k with
    | .memInject => some (controlSrc site)
    | .capInject => some (controlSrc site)
    | .netPkgId => some (tileSrc site 26)
    | _ => none

/-- The address and the bit errors that an injection register is armed with (R290). -/
def armedWord (s : State) (site : Nat) : Word :=
  let x := mapGet (fun _ => (0, 0)) s.inject site
  pack [(44, 2, x.1), (0, 44, 32 * x.2)]

/-- What a register whose writes act beyond its kept bits holds before the write. -/
def actingWord (s : State) (k : RegKind) (site i : Nat) : Word :=
  match k with
  | .memInject => armedWord s site
  | .capInject => armedWord s site
  | .evtPend => 0
  | .evtPendSet => 0
  | _ => regValue s k site i 0

/-- A tile by its number. -/
def tileFin (n : Nat) : Fin 4 := Fin.ofNat 4 n

/-- A write of a memory or event register that has a row of its own; `w` is the register with its fields written, `v` what was
written. -/
def actMemory (a : Agent) (site i : Nat) (w v : Word) (s : State) : RegKind → Option State
  | .memCfg => some (nextOf s (execSpreadChange a (tileFin site) (natBit w.toNat 0) s))
  | .memInject => some (nextOf s (execInjectWrite a (Fin.ofNat 6 site) w s))
  | .capInject => some (nextOf s (execInjectWrite a (Fin.ofNat 6 site) w s))
  | .evtPend => some (nextOf s (execEvtPendClear a (tileFin site) (tileFin i) v s))
  | .evtPendSet => some (nextOf s (execEvtPendSet a (tileFin site) (tileFin i) v s))
  | .evtHoldoff => some (nextOf s (execEvtHoldoffWrite a (Fin.ofNat 64 i) (BitVec.ofNat 32 (getBits w 0 32)) s))
  | .evtCoreEoi => some (nextOf s (execEvtCoreEoi a (Fin.ofNat 128 (64 * (site - 4) + i)) (Fin.ofNat 16 (getBits w 0 4)) s))
  | .netPkgId => some (writePkgId s a site (getBits w 0 16))
  | _ => none

/-- A write of a command or ingest register that has a row of its own. -/
def actUnits (a : Agent) (site i : Nat) (w : Word) (s : State) : RegKind → Option State
  | .cmdQDoorbell => some (answer (ringQueue s (128 * (site - 4) + i) (getBits w 0 17)) a false 0)
  | .cmdQCplHead => some (answer
      (nextOf s (execCplHeadWrite (Fin.ofNat 256 (128 * (site - 4) + i)) (BitVec.ofNat 17 (getBits w 0 17)) s)) a false 0)
  | .ingBatchCtrl => if natBit w.toNat 0 then some (nextOf s (execBatchClose a (tileFin site) (Fin.ofNat 64 i) s)) else none
  | .ingCoreDone => some (nextOf s (execIngCoreDone a (tileFin site) w s))
  | .ingStreamSide => some (nextOf s (execIngStreamSideWrite a (tileFin site) (Fin.ofNat 128 i) (natBit w.toNat 0) s))
  | .ingCoreRing => some (nextOf s (execIngCoreRingWrite a (tileFin site) (Fin.ofNat 16 i) w s))
  | .milPool => some (nextOf s (execMilPoolWrite a (tileFin site) w s))
  | _ => none

/-- A write of a register whose writes act beyond its kept bits; one that covers none of its fields is ignored. -/
def writeActing (s : State) (a : Agent) (k : RegKind) (site i : Nat) (p : Span) (v : Word) : State :=
  let fs := spanFields p (actingFields k)
  let refused := if ingestForeign s a k site i then refuseAccess s a (controlSrc site) else answer s a false 0
  match foreignSrc a k site with
  | some src => reservedWrite s a src
  | none =>
    if fs.isEmpty then refused
    else
      let w := writeFields (actingWord s k site i) v (fs.map (fun f => { f with acc := .rw }))
      ((actMemory a site i w v s k).or (actUnits a site i w s k)).getD refused

/-- R9 to R13: a write of a register. -/
def writeRegister (s : State) (a : Agent) (addr size : Nat) (v : Word) : State :=
  match regAt (siteOf addr) (offsetOf addr / 8 * 8) with
  | none => s
  | some (k, i, j) =>
    let p := spanOf addr size
    if (actingFields k).isEmpty then writeKept s a k (siteOf addr) i j p (spanData p v)
    else writeActing s a k (siteOf addr) i p (spanData p v)

/-- REGISTER_WRITE (R9, R10, R12, R13): a write to a control register acts by its fields' access codes, or is refused. -/
def execRegisterWrite (a : Agent) (addr : BitVec 44) (size : Fin 16) (v : Word) (s : State) : Host.Outcome State Fault Refusal :=
  .next (
    if !isRunning s then s
    else
      match accessFault s a addr.toNat size.val with
      | some src => refuseAccess s a src
      | none => if inControl addr.toNat then writeRegister s a addr.toNat size.val v else s)

/-! ### Reads -/

/-- R474, R478, R610: what the supply monitor has measured is taken when a register that shows it is read: free values (log entry 5). -/
def sampleFor (s : State) (site : Nat) : RegKind → State
  | .pwrBalance => sampleEnergy s
  | .pwrEnergy => sampleEnergy s
  | .pwrTileEnergy =>
    let f := takeFreeNat s
    drawTile f.2 site f.1
  | .pwrSupply =>
    let w := Config.freeWord s.free
    { s with
      free := s.free + 1
      readings := { s.readings with power := getBits w 32 16, current := getBits w 16 16, voltage := getBits w 0 16 } }
  | _ => s

/-- R10, R12: what a 64-bit read clears or removes. -/
def afterRead (s : State) (a : Agent) (k : RegKind) (site i : Nat) : Option State :=
  match k with
  | .modJoinReplay => if site = 4 then some (nextOf s (execJoinReplayRead a (Fin.ofNat 14 i) s)) else none
  | .memRetireReport => some (nextOf s (execRetireReportRead a (Fin.ofNat 6 site) s))
  | .capRetireReport => some (nextOf s (execRetireReportRead a (Fin.ofNat 6 site) s))
  | .expLoad => some (nextOf s (execExpLoadRead a (tileFin site) (Fin.ofNat 65536 i) s))
  | .milWort => some (nextOf s (execWortPeakRead a (tileFin site) s))
  | .evtSrcCount => some (nextOf s (execEvtSrcCountRead a (Fin.ofNat 1024 (256 * site + i)) s))
  | .evtCoreClaim => some (nextOf s (execEvtCoreClaim a (Fin.ofNat 128 (64 * (site - 4) + i)) s))
  | .seqSliceEnergy => some (answer { s with free := s.free + 1 } a false (regValue s k site i 0))
  | _ => none

/-- R9 to R12: a read of a register; its data stand in the reply. A 32-bit read returns the half it addresses and clears nothing. -/
def readRegister (s : State) (a : Agent) (addr size : Nat) : State :=
  match regAt (siteOf addr) (offsetOf addr / 8 * 8) with
  | none => s
  | some (k, i, j) =>
    let s := if servedAt k (siteOf addr) then sampleFor s (siteOf addr) k else s
    let v := regValue s k (siteOf addr) i j
    match spanOf addr size with
    | .whole => (afterRead s a k (siteOf addr) i).getD (answer s a false v)
    | .low => answer s a false (BitVec.ofNat 64 (getBits v 0 32))
    | .high => answer s a false (BitVec.ofNat 64 (getBits v 32 32))

end Sys2Proof.Machine
end

