-- ==== Sys2Proof/Machine/Network.lean ====
section
/-!
DEFINITION. Icrun packets (11_network_fabric.md): the checks of a received packet (R329 to R331), the switch (R346 to R349), paths
(R332 to R340), epochs (R341 to R343) and inbound windows (R353, R354).
-/
namespace Sys2Proof.Machine

/-! ### Headers -/

/-- R329: the fields of a header. -/
structure NetHdr where
  typ    : Nat
  last   : Bool
  ece    : Bool
  open_  : Bool
  src    : Nat
  dst    : Nat
  epoch  : Nat
  path   : Nat
  seq    : Nat
  hops   : Nat
  ackSeq : Nat
  nak    : Nat
  addr   : Nat
  msg    : Nat
  deriving DecidableEq, Repr

/-- R329: a header read. -/
def netHdr (h : List Byte) : NetHdr :=
  let f := fieldBe h
  let flags := f 1 1
  ⟨f 0 1 % 16, natBit flags 0, natBit flags 2, natBit flags 3, f 4 2, f 6 2, f 8 4, f 12 2 % 4096, f 14 3, f 17 1 % 64, f 18 3,
    f 21 1, f 24 8, f 32 4⟩

/-- R338: the tile that holds a path. -/
def NetHdr.tile (h : NetHdr) : Nat := h.path % 4

/-- R331, R348: the checks of every receiver: the HCRC, VER, TYPE, the reserved fields, LEN, and a broadcast's TYPE. -/
def headerOk (p : Packet) : Bool :=
  let f := fieldBe p.hdr
  p.hdr.length == 40 && crc32c (p.hdr.take 36) == f 36 4 && f 0 1 / 16 == 1 && decide (f 0 1 % 16 < 7) && f 1 1 / 16 == 0
    && f 2 2 == p.payload.length && decide (f 2 2 ≤ 4096) && f 12 2 / 4096 == 0 && f 22 2 == 0 && (f 6 2 != 0xFFFF || f 0 1 % 16 == 6)

/-- R330: the length that a READ_REQ may ask for. -/
def readLenOk (n : Nat) : Bool := decide (32 ≤ n ∧ n ≤ 2 ^ 24 ∧ n % 32 = 0)

/-- R330, R331: a payload has the form of its type. -/
def payloadOk (typ : Nat) (b : List Byte) : Bool :=
  match typ with
  | 0 => b.length % 32 == 0
  | 1 => b.length == 16 && readLenOk (fieldBe b 8 4) && fieldBe b 12 4 == 0
  | 3 => b.length == 8
  | 4 => b.length == 0
  | 6 => b.length == 4 && fieldBe b 1 3 == 0
  | _ => true

/-! ### The switch -/

/-- R331: a packet discarded at a port's tile. -/
def discardAt (s : State) (n : Nat) : State := count s .netDiscards (portTile n) 0

/-- R331, R346: HOPS one lower. -/
def lowerHops (p : Packet) : Packet :=
  let b := (p.hdr.getD 17 0).toNat
  ⟨sealHeader (splice p.hdr 17 [BitVec.ofNat 8 (b - 1)]), p.payload⟩

/-- R331, R341, R346: a packet for another module leaves again; its HOPS may not reach 0. -/
def forwardPacket (s : State) (n : Nat) (p : Packet) (h : NetHdr) : State :=
  if !s.beat.synced && h.typ != 6 then s
  else if h.hops ≤ 1 then discardAt s n
  else emitPacket s (portTile n) (lowerHops p)

/-- R347: a copy of a PROBE leaves on a port. -/
def sendProbe (tile : Nat) (p : Packet) (s : State) (n : Nat) : State :=
  match leaveClass s 0xFFFF n p.hdr with
  | none => count s .netNoRoute tile 0
  | some h => putOn s n ⟨h, p.payload⟩

/-- R331, R348: a broadcast PROBE forwarded on the up ports of entry 0xFFFF but the one it came on. -/
def forwardProbe (s : State) (n : Nat) (p : Packet) (h : NetHdr) : State :=
  let ports := (routePorts s 0xFFFF).filter (fun x => x != n)
  if ports.isEmpty then s
  else if h.hops ≤ 1 then discardAt s n
  else ports.foldl (sendProbe (portTile n) (lowerHops p)) s

/-- R349: the neighbour of a port in DIRECT mode recorded. -/
def recordNeighbour (s : State) (n : Nat) (mac : BitVec 48) (p : Packet) (h : NetHdr) : State :=
  if isDirect s n then
    let w := setBits (setBits (getReg s .netPortStatus (portTile n) (n % 4)) 24 16 h.src) 20 4 (fieldBe p.payload 0 1)
    setReg (setReg s .netPortStatus (portTile n) (n % 4) w) .netPortNeighbour (portTile n) (n % 4) (BitVec.ofNat 64 mac.toNat)
  else s

/-- R348, R349: a PROBE consumed. -/
def takeProbe (s : State) (n : Nat) (mac : BitVec 48) (p : Packet) (h : NetHdr) : State :=
  let s := recordNeighbour s n mac p h
  if h.dst = 0xFFFF then forwardProbe s n p h else s

/-! ### Answers -/

/-- R329: a NAK on an inbound path. -/
def sendNak (s : State) (h : NetHdr) (code ackSeq : Nat) : State :=
  sendControl s h.src h.path { plainFields 4 with nak := code, ackSeq := ackSeq, msg := h.msg } []

/-- R333: E − 1. -/
def lastSeq (v : InPath) : Nat := (v.expect + 2 ^ 24 - 1) % 2 ^ 24

/-- R328, R334, R336: an ACK of all that a path has consumed. -/
def sendAck (s : State) (k : Nat) : State :=
  match inPath s k with
  | none => s
  | some v =>
    let s := setInPath s k (some { v with owed := 0, ece := false })
    sendControl s v.srcPkg v.path { plainFields 3 with ece := v.ece, ackSeq := lastSeq v } (beBytes 8 v.settle)

/-- ACK_TIMER (R334): 2 beats after a consumption that no ACK covers. -/
def execAckTimer (pkg : BitVec 16) (path : BitVec 12) (s : State) : Host.Outcome State Fault Refusal :=
  .next (
    match findIn s pkg.toNat path.toNat with
    | some (k, v) => if isRunning s && decide (0 < v.owed ∧ 2 ≤ s.beat.waits - v.owedSince) then sendAck s k else s
    | none => s)

/-! ### Inbound windows -/

/-- R353: the right that an access needs. -/
inductive Right where
  | read | write
  deriving DecidableEq, Repr

/-- R353: an entry covers a target range with a right; LIMIT names the last granule of 32 bytes. -/
def windowCovers (s : State) (w : Nat) (right : Right) (space a n : Nat) : Bool :=
  let attr := (getReg s .netWindow 0 w 2).toNat
  let lo := getBits (getReg s .netWindow 0 w) 0 44
  let hi := getBits (getReg s .netWindow 0 w 1) 0 44 / 32 * 32 + 32
  natBit attr 63 && decide (space < 2) && natBit attr 55 == (space == 1) && natBit attr (if right = .write then 54 else 53) &&
    decide (lo ≤ a ∧ a + n ≤ hi)

/-- R353: an entry admits a source package. -/
def windowFrom (s : State) (w pkg : Nat) : Bool :=
  let attr := getReg s .netWindow 0 w 2
  decide (getBits attr 0 16 ≤ pkg ∧ pkg ≤ getBits attr 16 16)

/-- R354: the partition of an entry. -/
def windowPart (s : State) (w : Nat) : Nat := getBits (getReg s .netWindow 0 w 2) 56 4

/-- R353: an inbound access refused: counted, and an event raised. -/
def windowRefused (s : State) (tile : Nat) : State := raiseEvent (count s .netDenied tile 0) (tileSrc tile 26)

/-- R354, R439: an access of memory that an entry has admitted: carried out for its partition, or refused: as R353 sets out where the target
lies outside the partition's memory, reserved ranges included; at a store window or a retired unit with the event of R607. -/
def forWindow (s : State) (tile p a n : Nat) (refuse go : State → State) : State :=
  if !partActive s p then refuse (windowRefused s tile)
  else
    match accessError s (some p) tile a n with
    | none => go s
    | some none => refuse (windowRefused s tile)
    | some (some src) =>
      refuse (if inStore a || (rangeIsMemory s a n && inPartition s p a n) then raiseEvent s src else windowRefused s tile)

/-- R353, R350: an inbound Icrun access: the entry that admits it, or a refusal. A control register takes no access of a packet's size
(R9). -/
def admitAccess (s : State) (h : NetHdr) (right : Right) (n : Nat) (refuse : State → State) (go : State → Nat → State) : State :=
  let space := h.addr / 2 ^ 44 % 16
  let a := h.addr % 2 ^ 44
  match (List.range 64).find? (fun w => windowCovers s w right space a n && windowFrom s w h.src) with
  | none => refuse (windowRefused s h.tile)
  | some w =>
    let p := windowPart s w
    if space = 1 then
      if !partActive s p then refuse (windowRefused s h.tile)
      else
        match accessFault s (.netIn (Fin.ofNat 4 h.tile)) a n with
        | some src => refuse (raiseEvent s src)
        | none => refuse s
    else forWindow s h.tile p a n refuse (fun s => go s p)

/-! ### Consuming -/

/-- R336: a WRITE or READ_RESP counted in its path's settle count. -/
def raiseSettle (s : State) (k : Nat) : State :=
  match inPath s k with
  | some v => settleReached (setInPath s k (some { v with settle := (v.settle + 1) % 2 ^ 64 }))
  | none => s

/-- R334, R353: a WRITE applied, or refused with NAK DENIED. -/
def takeWrite (s : State) (h : NetHdr) (ackSeq : Nat) (b : List Byte) : State :=
  admitAccess s h .write b.length (fun s => sendNak s h 1 ackSeq)
    (fun s p => writeRange s (waysOf s (some p)) (h.addr % 2 ^ 44) b)

/-- R339: the READ_RESP packets of a read; `whole` when the last of them ends it. -/
def sendResponses (s : State) (h : NetHdr) (whole : Bool) : Nat → List (List Byte) → State
  | _, [] => s
  | addr, c :: t =>
    sendResponses (sendPacket s h.src h.path { plainFields 2 with last := whole && t.isEmpty, addr := addr, msg := h.msg } c none)
      h whole (addr + c.length) t

/-- R339: a read answered in ascending address order; poison ends it before the packet that would hold it. -/
def answerRead (s : State) (h : NetHdr) (ackSeq ret n p : Nat) : State :=
  let a := h.addr % 2 ^ 44
  let r := readRange s (waysOf s (some p)) a n
  match firstPoison r.1 with
  | none => sendResponses r.2 h true ret (cutPayload (n / 4096 + 1) (pieceBytes r.1))
  | some x =>
    let whole := r.1.takeWhile (fun q => q.data.isSome)
    sendNak (sendResponses r.2 h false ret (cutPayload (n / 4096 + 1) ((pieceBytes whole).take ((x - a) / 4096 * 4096)))) h 2 ackSeq

/-- R339, R353: a READ_REQ starts its read, or is refused with NAK DENIED. -/
def takeReadReq (s : State) (h : NetHdr) (ackSeq : Nat) (b : List Byte) : State :=
  let n := fieldBe b 8 4
  admitAccess s h .read n (fun s => sendNak s h 1 ackSeq) (fun s p => answerRead s h ackSeq (fieldBe b 0 8) n p)

/-- R313, R334: data of a read written for its command, which ends POISONED when the home of a line that a failed agent owned answers so;
the read stays for the rest of its data. -/
def writeReadData (s : State) (r : ReadOut) (a : Nat) (b : List Byte) : State :=
  let w := putRange s (waysOf s r.who) a b
  match w.1 with
  | some d => fail w.2 r.cmd .poisoned d
  | none => w.2

/-- R334, R339: data of a read written where its command asked; the last of them completes it. A look at them before the command's record,
which R421 leaves undefined, finds what has arrived (DESIGN CHOICE, log entry 81). -/
def applyRead (s : State) (r : ReadOut) (a : Nat) (b : List Byte) : State :=
  let s := writeReadData s r a b
  let rest := s.reads.filter (fun x => x.cmd != r.cmd)
  if r.len ≤ r.got + b.length then succeed { s with reads := rest } r.cmd 0
  else { s with reads := rest ++ [{ r with got := r.got + b.length }] }

/-- R339: the read that a READ_RESP belongs to: the one of its message number whose destination holds the payload. -/
def readOf (s : State) (h : NetHdr) (n : Nat) : Option ReadOut :=
  s.reads.find? (fun r => r.pkg == h.src && r.path == h.path && r.msg == h.msg && h.addr / 2 ^ 44 % 16 == 0
    && decide (r.base ≤ h.addr % 2 ^ 44 ∧ h.addr % 2 ^ 44 + n ≤ r.base + r.len))

/-- R334, R339, R350: a READ_RESP is applied for the read it belongs to, and one that belongs to none as an inbound WRITE is, under the
window checks (DEDUCED, log entry 61); a reserved space code gets NAK DENIED. -/
def takeReadResp (s : State) (h : NetHdr) (ackSeq : Nat) (b : List Byte) : State :=
  if 2 ≤ h.addr / 2 ^ 44 % 16 then sendNak s h 1 ackSeq
  else
    match readOf s h b.length with
    | some r => applyRead s r (h.addr % 2 ^ 44) b
    | none => takeWrite s h ackSeq b

/-- R334 to R336: a packet's effect once its sequence number is consumed. -/
def applyPacket (s : State) (k ackSeq : Nat) (h : NetHdr) (b : List Byte) : State :=
  match h.typ with
  | 0 => raiseSettle (takeWrite s h ackSeq b) k
  | 1 => takeReadReq s h ackSeq b
  | 2 => raiseSettle (takeReadResp s h ackSeq b) k
  | 5 => consumeClear s h.tile b
  | _ => s

/-- R333, R334: a packet consumed; the eighth since the last ACK is acknowledged at once. -/
def consumePacket (s : State) (k : Nat) (v : InPath) (h : NetHdr) (b : List Byte) : State :=
  let s := setInPath s k (some { v with
    expect := (h.seq + 1) % 2 ^ 24, owed := v.owed + 1, owedSince := if v.owed = 0 then s.beat.waits else v.owedSince })
  let s := applyPacket s k h.seq h b
  if 8 ≤ v.owed + 1 then sendAck s k else s

/-- R328: a received packet that carries CE makes the next ACK of its path carry ECE. -/
def markCe (v : InPath) (ce : Bool) : InPath := { v with ece := v.ece || ce }

/-- R333, R337, R338: a numbered packet classed by its sequence number. -/
def takeNumbered (s : State) (ce : Bool) (h : NetHdr) (b : List Byte) : State :=
  match findIn s h.src h.path with
  | none =>
    if !h.open_ then sendNak s h 4 0
    else
      match freeIn s h.tile with
      | none => sendNak s h 5 0
      | some k => consumePacket s k (markCe ⟨h.src, h.path, h.seq, 0, 0, 0, false⟩ ce) h b
  | some (k, v) =>
    let v := markCe v ce
    let d := (h.seq + 2 ^ 24 - v.expect) % 2 ^ 24
    if d = 0 ∨ (d < 2 ^ 23 ∧ h.open_ = true) then consumePacket s k v h b
    else if d < 2 ^ 23 then sendNak (setInPath s k (some v)) h 3 (lastSeq v)
    else sendAck (setInPath s k (some v)) k

/-! ### Acknowledgements -/

/-- R333: a sequence number lies at or before an acknowledged one. -/
def ackedBy (ackSeq seq : Nat) : Bool := decide ((ackSeq + 2 ^ 24 - seq) % 2 ^ 24 < 2 ^ 23)

/-- R423, R280: a write outside the module completes with the path and the settle count of the ACK that covers its last packet. -/
def finishWrite (stamp : Nat) (s : State) (id : Nat) : State :=
  match findCmd s id with
  | none => s
  | some c =>
    match c.wait with
    | .remoteWrite _ _ none => complete s id { status := .ok, stamp := stamp }
    | .remoteWrite _ _ (some d) => complete s id { status := .poisoned, detail := d, stamp := stamp }
    | _ => s

/-- R603: the packets that an ACK of `n` lets the path send. -/
def sendMore (s : State) (path n : Nat) (rest : List OutPkt) : State :=
  ((rest.take 1024).drop (1024 - n)).foldl (fun s u => emitPacket s (path % 4) u.pkt) s

/-- R335, R336, R328: an ACK frees the packets it covers and completes their commands. -/
def takeAck (s : State) (h : NetHdr) (b : List Byte) : State :=
  let k := pathKey h.src h.path
  let s := if h.ece then halveRate s k else s
  let o := outPath s k
  let freed := o.unacked.takeWhile (fun u => ackedBy h.ackSeq u.seq)
  let rest := o.unacked.drop freed.length
  if freed.isEmpty then s
  else
    let s := setOutPath s k { o with unacked := rest, resends := 0, since := s.beat.waits }
    let s := sendMore s h.path freed.length rest
    ((freed.filter (·.last)).filterMap (·.cmd)).foldl (finishWrite (beNat b)) s

/-- R335: a packet marked as resent. -/
def resent (p : Packet) : Packet :=
  let b := (p.hdr.getD 1 0).toNat
  ⟨sealHeader (splice p.hdr 1 [BitVec.ofNat 8 (b / 4 * 4 + 2 + b % 2)]), p.payload⟩

/-- R335: a path's packets resent from one on, or the path abandoned when RETRY resends have brought no progress. -/
def retryPath (s : State) (pkg path : Nat) (keep : OutPkt → Bool) : State :=
  let k := pathKey pkg path
  let o := outPath s k
  if getBits (getReg s .netTransport 0 0) 32 8 ≤ o.resends then abandonPath s pkg path false
  else
    let l := (o.unacked.take 1024).filter keep
    let s := setOutPath s k { o with resends := o.resends + 1, since := s.beat.waits }
    l.foldl (fun s u => emitPacket s (path % 4) (resent u.pkt)) (count s .netRetx (path % 4) 0 l.length)

/-- RTO_EXPIRE (R335, R340): a path without progress for RTO beats resends, or is abandoned. -/
def execRtoExpire (pkg : BitVec 16) (path : BitVec 12) (s : State) : Host.Outcome State Fault Refusal :=
  .next (
    let o := outPath s (pathKey pkg.toNat path.toNat)
    if isRunning s && transportOn s && !o.unacked.isEmpty
        && decide (getBits (getReg s .netTransport 0 0) 0 32 ≤ s.beat.waits - o.since) then
      retryPath s pkg.toNat path.toNat (fun _ => true)
    else s)

/-- The request that a NAK names by its message number: a write that is not acknowledged, or a read. -/
def nakCmd (s : State) (h : NetHdr) : Option Nat :=
  let o := outPath s (pathKey h.src h.path)
  ((o.unacked.find? (fun u => fieldBe u.pkt.hdr 32 4 == h.msg && u.cmd.isSome)).bind (·.cmd)).or
    ((s.reads.find? (fun r => r.pkg == h.src && r.path == h.path && r.msg == h.msg)).map (·.cmd))

/-- A read in progress is given up. -/
def dropRead (s : State) (id : Nat) : State := { s with reads := s.reads.filter (fun r => r.cmd != id) }

/-- R353: a refused request ends DENIED. -/
def nakDenied (s : State) (h : NetHdr) : State :=
  match nakCmd s h with
  | some id => fail (dropRead s id) id .denied 0
  | none => s

/-- R339: a read that met poison ends POISONED; its destination bytes that were not sent are undefined, and data that was sent is still
applied when it comes. The requester cannot tell the two apart, so every byte that has not come is free until then. -/
def nakPoisoned (s : State) (h : NetHdr) : State :=
  match s.reads.find? (fun r => r.pkg == h.src && r.path == h.path && r.msg == h.msg) with
  | none => s
  | some r =>
    if (findCmd s r.cmd).isNone then s
    else
      let f := freeBytes s (r.len - r.got)
      fail (writeRange f.2 (waysOf s r.who) (r.base + r.got) f.1) r.cmd .poisoned 0

/-- R338: the request of a packet that would have opened a path beyond the receiver's limit ends LIMIT_REACHED; the receiver does not
hold the path, so its next packet opens it. -/
def nakNoPath (s : State) (h : NetHdr) : State :=
  let k := pathKey h.src h.path
  match nakCmd s h with
  | some id => fail (dropRead (dropFromPath s [id] true k) id) id .limitReached 0
  | none => dropFromPath s [] true k

/-- R335 to R339: a NAK by its code. -/
def takeNak (s : State) (h : NetHdr) : State :=
  match h.nak with
  | 1 => nakDenied s h
  | 2 => nakPoisoned s h
  | 3 => retryPath s h.src h.path (fun u => !ackedBy h.ackSeq u.seq)
  | 4 => abandonPath s h.src h.path false
  | 5 => nakNoPath s h
  | _ => s

/-! ### Epochs and arrival -/

/-- A packet of a source whose epoch is current. -/
def takeCurrent (s : State) (ce : Bool) (h : NetHdr) (b : List Byte) : State :=
  match h.typ with
  | 3 => takeAck s h b
  | 4 => takeNak s h
  | _ => takeNumbered s ce h b

/-- R342: the key of a tile's record of a source's epoch. -/
def epochKey (tile src : Nat) : Nat := 65536 * tile + src

/-- R342: the epoch that a tile has recorded of a source. -/
def epochOf (s : State) (tile src : Nat) : Option Nat := mapGet (fun _ => none) s.epochs (epochKey tile src)

/-- R342: a tile records the epoch of a source. -/
def setEpoch (src e : Nat) (s : State) (tile : Nat) : State :=
  { s with epochs := mapSet (fun _ => none) s.epochs (epochKey tile src) (some e) }

/-- R342: a packet's tile records its source's epoch. -/
def recordEpoch (s : State) (h : NetHdr) : State := setEpoch h.src h.epoch s h.tile

/-- R342, R343: a peer reset, then the new epoch recorded: by the packet's tile, and by every tile that held an older record of the
source, since the reset was the whole module's (DEDUCED, log entry 61). -/
def resetEpoch (s : State) (h : NetHdr) : State :=
  ((List.range 4).filter (fun t => t == h.tile || (epochOf s t h.src).isSome)).foldl (setEpoch h.src h.epoch) (peerReset s h.src)

/-- R342, R343: a packet judged by its source's epoch. -/
def takeByEpoch (s : State) (ce : Bool) (h : NetHdr) (b : List Byte) : State :=
  match epochOf s h.tile h.src with
  | none => takeCurrent (recordEpoch s h) ce h b
  | some e =>
    let d := (h.epoch + 2 ^ 32 - e) % 2 ^ 32
    if d = 0 then takeCurrent s ce h b
    else if d ≤ 2 ^ 31 then
      if h.open_ then takeCurrent (resetEpoch s h) ce h b else sendNak (peerReset s h.src) h 4 0
    else count s .netStaleEpoch h.tile 0

/-- R325: the bytes of the frame around a packet, from its MAC header to its frame check. -/
def frameBytes (f : FrameHead) (p : Packet) : Nat :=
  14 + 4 * f.tags + (if f.ipv6 then 40 else 20) + 8 + p.hdr.length + p.payload.length + 4

/-- R325: a frame that the module does not support: stacked tags, more than 4,224 bytes, IP options or extension headers, or a
fragment. -/
def frameBad (f : FrameHead) (p : Packet) : Bool := decide (2 ≤ f.tags ∨ 4224 < frameBytes f p) || f.options || f.fragment

/-- R346: a packet for the module itself. -/
def consume (s : State) (ce : Bool) (p : Packet) : State :=
  let h := netHdr p.hdr
  if !payloadOk h.typ p.payload then count s .netDiscards h.tile 0
  else if transportOn s then takeByEpoch s ce h p.payload
  else s

/-- R324, R325, R331, R341, R346: a packet arrives on a port: a frame that the FEC could not mend is dropped and counted, and so is one that
the module does not support (in `NET_DISCARDS`: log entry 61). -/
def arrive (s : State) (n : Nat) (f : FrameHead) (mac : BitVec 48) (p : Packet) : State :=
  let h := netHdr p.hdr
  if !isRunning s || !(port s n).up then s
  else if f.corrupt then count s .netPortFecUe (portTile n) (n % 4)
  else if frameBad f p || !headerOk p then discardAt s n
  else if h.dst ≠ ownPkg s ∧ h.dst ≠ 0xFFFF then forwardPacket s n p h
  else if !payloadOk h.typ p.payload then discardAt s n
  else if h.typ = 6 then takeProbe s n mac p h
  else consume s f.ce p

/-- R346: the module consumes the packets it has sent to itself, oldest first; `fuel` bounds their number. -/
def drainLoopback (s : State) : Nat → State
  | 0 => s
  | fuel + 1 =>
    match s.loopback with
    | [] => s
    | p :: t => drainLoopback (consume { s with loopback := t } false p) fuel

/-- A packet of another type than a command names is not that command. -/
def otherType (typ : Nat) (p : Packet) : Bool :=
  let t := (netHdr p.hdr).typ
  decide (t < 7) && t != typ

/-- A CLEAR packet of another kind than a command names is not that command. -/
def otherKind (kind : Nat) (p : Packet) : Bool :=
  otherType 5 p || (decide (fieldBe p.payload 0 1 % 16 < 8) && fieldBe p.payload 0 1 % 16 != kind)

/-- WRITE (R334). -/
def execNetWrite (n : Fin 16) (f : FrameHead) (p : Packet) (s : State) : Host.Outcome State Fault Refusal :=
  .next (if otherType 0 p then s else arrive s n.val f 0 p)

/-- READ_REQ (R339). -/
def execNetReadReq (n : Fin 16) (f : FrameHead) (p : Packet) (s : State) : Host.Outcome State Fault Refusal :=
  .next (if otherType 1 p then s else arrive s n.val f 0 p)

/-- READ_RESP (R334, R339). -/
def execNetReadResp (n : Fin 16) (f : FrameHead) (p : Packet) (s : State) : Host.Outcome State Fault Refusal :=
  .next (if otherType 2 p then s else arrive s n.val f 0 p)

/-- ACK (R336). -/
def execNetAck (n : Fin 16) (f : FrameHead) (p : Packet) (s : State) : Host.Outcome State Fault Refusal :=
  .next (if otherType 3 p then s else arrive s n.val f 0 p)

/-- NAK (R335, R337 to R339). -/
def execNetNak (n : Fin 16) (f : FrameHead) (p : Packet) (s : State) : Host.Outcome State Fault Refusal :=
  .next (if otherType 4 p then s else arrive s n.val f 0 p)

/-- PROBE (R348, R349). -/
def execNetProbe (n : Fin 16) (f : FrameHead) (mac : BitVec 48) (p : Packet) (s : State) : Host.Outcome State Fault Refusal :=
  .next (if otherType 6 p then s else arrive s n.val f mac p)

/-- PACKET_FORWARD (R346): a packet that is not addressed to the module. -/
def execPacketForward (f : FrameAt) (p : Packet) (s : State) : Host.Outcome State Fault Refusal :=
  .next (
    let d := (netHdr p.hdr).dst
    if d = ownPkg s ∨ d = 0xFFFF then s else arrive s f.port.val f.frame 0 p)

/-- PROBE_UP (R385). -/
def execProbeUp (n : Fin 16) (f : FrameHead) (p : Packet) (s : State) : Host.Outcome State Fault Refusal :=
  .next (if otherKind 0 p then s else arrive s n.val f 0 p)

/-- PROBE_DOWN (R385). -/
def execProbeDown (n : Fin 16) (f : FrameHead) (p : Packet) (s : State) : Host.Outcome State Fault Refusal :=
  .next (if otherKind 1 p then s else arrive s n.val f 0 p)

/-- CONTRIB_UP (R374). -/
def execContribUp (n : Fin 16) (f : FrameHead) (p : Packet) (s : State) : Host.Outcome State Fault Refusal :=
  .next (if otherKind 2 p then s else arrive s n.val f 0 p)

/-- PARTIAL_UP (R374). -/
def execPartialUp (n : Fin 16) (f : FrameHead) (p : Packet) (s : State) : Host.Outcome State Fault Refusal :=
  .next (if otherKind 3 p then s else arrive s n.val f 0 p)

/-- CLOSE_UP (R372). -/
def execCloseUp (n : Fin 16) (f : FrameHead) (p : Packet) (s : State) : Host.Outcome State Fault Refusal :=
  .next (if otherKind 4 p then s else arrive s n.val f 0 p)

/-- RESULT_DOWN (R376). -/
def execResultDown (n : Fin 16) (f : FrameHead) (p : Packet) (s : State) : Host.Outcome State Fault Refusal :=
  .next (if otherKind 5 p then s else arrive s n.val f 0 p)

/-- ROLL_DOWN (R367). -/
def execRollDown (n : Fin 16) (f : FrameHead) (p : Packet) (s : State) : Host.Outcome State Fault Refusal :=
  .next (if otherKind 6 p then s else arrive s n.val f 0 p)

/-- ABORT (R392). -/
def execClrAbort (n : Fin 16) (f : FrameHead) (p : Packet) (s : State) : Host.Outcome State Fault Refusal :=
  .next (if otherKind 7 p then s else arrive s n.val f 0 p)

end Sys2Proof.Machine
end

