-- ==== Sys2Proof/Machine/Roce.lean ====
section
/-!
DEFINITION. The RoCE v2 subset (R355, R356, R400, R401, R425): inbound RDMA operations of a host, and the answers to the module's own
messages.
-/
namespace Sys2Proof.Machine

/-! ### Inbound operations -/


/-- R355: the window entry that a remote key names, when its other bits match. -/
def rkeyWindow (s : State) (rkey : Nat) : Option Nat :=
  let w := rkey % 64
  if rkey / 64 % 4 = 0 ∧ rkey / 256 = mapGet (fun _ => 0) s.rkeyTags w then some w else none

/-- R353: a RoCE request refused with the remote-access error. -/
def refuseRoce (qp : Nat) (s : State) : State := answerRoce s qp .accessNak []

/-- R353, R354: a RoCE access of memory or of a control register that an entry admits, or its refusal. -/
def admitRoce (s : State) (qp rkey addr n : Nat) (right : Right) (mem : State → Nat → State) (ctl : State → State) : State :=
  let space := addr / 2 ^ 44 % 16
  let a := addr % 2 ^ 44
  let tile := qp % 4
  match (rkeyWindow s rkey).filter (fun w => windowCovers s w right space a n) with
  | none => refuseRoce qp (windowRefused s tile)
  | some w =>
    let p := windowPart s w
    if space = 1 then
      if !partActive s p then refuseRoce qp (windowRefused s tile)
      else
        match accessFault s (.netIn (Fin.ofNat 4 tile)) a n with
        | some src => refuseRoce qp (raiseEvent s src)
        | none => ctl s
    else forWindow s tile p a n (refuseRoce qp) (fun s => mem s p)

/-- The module answered an access of a register DENIED. -/
def wasDenied (s : State) : Bool := (s.reply.map Reply.denied).getD false

/-- R353, R425: an inbound RDMA WRITE applied, acknowledged and counted. -/
def roceWrite (s : State) (qp addr rkey : Nat) (data : List Byte) : State :=
  let a := addr % 2 ^ 44
  admitRoce s qp rkey addr data.length .write
    (fun s p => bumpQp (writeRange (answerRoce s qp .ack []) (waysOf s (some p)) a data) qp)
    (fun s =>
      let t := writeRegister s (.netIn (Fin.ofNat 4 (qp % 4))) a data.length (BitVec.ofNat 64 (leNat data))
      if wasDenied t then refuseRoce qp t else bumpQp (answerRoce t qp .ack []) qp)

/-- ROCE_RDMA_WRITE (R353, R425). -/
def execRoceRdmaWrite (qp : Fin 1024) (addr : BitVec 64) (rkey : BitVec 32) (f : RoceHead) (data : List Byte) (s : State) :
    Host.Outcome State Fault Refusal :=
  .next (if takesRoce s f then roceWrite (answerCe s qp.val f.ce) qp.val addr.toNat rkey.toNat data else s)

/-- R353, R280: an inbound RDMA READ answered; a poisoned sector is never sent. -/
def roceRead (s : State) (qp addr rkey n : Nat) : State :=
  let a := addr % 2 ^ 44
  admitRoce s qp rkey addr n .read
    (fun s p =>
      let r := readRange s (waysOf s (some p)) a n
      if (firstPoison r.1).isSome then answerRoce r.2 qp .operationalNak [] else answerRoce r.2 qp .readResp (pieceBytes r.1))
    (fun s =>
      let t := readRegister s (.netIn (Fin.ofNat 4 (qp % 4))) a n
      if wasDenied t then refuseRoce qp t
      else answerRoce t qp .readResp (leBytes n ((t.reply.map Reply.data).getD 0#64).toNat))

/-- ROCE_RDMA_READ (R353). -/
def execRoceRdmaRead (qp : Fin 1024) (addr : BitVec 64) (rkey : BitVec 32) (f : RoceHead) (len : BitVec 32) (s : State) :
    Host.Outcome State Fault Refusal :=
  .next (if takesRoce s f then roceRead (answerCe s qp.val f.ce) qp.val addr.toNat rkey.toNat len.toNat else s)

/-! ### The module's own messages -/

/-- ROCE_CNP (R355): a CNP halves the queue pair's rate. -/
def execRoceCnp (m : QpHead) (s : State) : Host.Outcome State Fault Refusal :=
  .next (
    let v := qpair s m.qp.val
    if takesRoce s m.head then setQpair s m.qp.val { v with rate := v.rate / 2 } else s)

/-- ROCE_PEER_RESET (R355, R356): the peer answers with a NAK of class Invalid Request or Remote Operational Error. -/
def execRocePeerReset (m : QpHead) (s : State) : Host.Outcome State Fault Refusal :=
  .next (if takesRoce s m.head then qpReset (answerCe s m.qp.val m.head.ce) m.qp.val else s)

/-- R423, R280: a write to a host completes once its last message is acknowledged. -/
def finishRoce (s : State) (id : Nat) : State :=
  match findCmd s id with
  | none => s
  | some c =>
    match c.wait with
    | .remoteWrite _ _ none => complete s id { status := .ok }
    | .remoteWrite _ _ (some d) => complete s id { status := .poisoned, detail := d }
    | _ => s

/-- ROCE_ACK (R423): the host's adapter acknowledges the oldest `count` messages. -/
def execRoceAck (m : QpHead) (count : BitVec 16) (s : State) : Host.Outcome State Fault Refusal :=
  .next (
    let v := qpair s m.qp.val
    let freed := v.out.take count.toNat
    if !takesRoce s m.head then s
    else
      let s := answerCe s m.qp.val m.head.ce
      if freed.isEmpty then s else
      let s := setQpair s m.qp.val { v with out := v.out.drop count.toNat, retries := 0 }
      ((freed.filter (·.last)).filterMap (·.cmd)).foldl finishRoce s)

/-- ROCE_RNR_NAK (R355): the responder is not ready, so the queue pair holds its messages back. -/
def execRoceRnrNak (m : QpHead) (s : State) : Host.Outcome State Fault Refusal :=
  .next (
    let v := qpair s m.qp.val
    if !takesRoce s m.head then s
    else
      let s := answerCe s m.qp.val m.head.ce
      if v.out.isEmpty then s else setQpair s m.qp.val { v with rnrHeld := true })

/-- R355: a queue pair sends its outstanding messages again. -/
def resendRoce (s : State) (qp : Nat) (v : QueuePair) : State :=
  v.out.foldl putRoce (setQpair s qp { v with rnrHeld := false })

/-- ROCE_RETRY_TIMEOUT (R355, R356): the retry timer resends, seven times at most; after an RNR NAK it ends the wait for the
responder. -/
def execRoceRetryTimeout (qp : Fin 1024) (s : State) : Host.Outcome State Fault Refusal :=
  .next (
    let v := qpair s qp.val
    if !isRunning s || v.out.isEmpty then s
    else if v.rnrHeld then resendRoce s qp.val v
    else if 7 ≤ v.retries then qpReset s qp.val
    else resendRoce s qp.val { v with retries := v.retries + 1 })

/-- R355: data of the oldest read of a queue pair written where its command asked; the last of them completes it. Before the command's
record (R421) what has arrived is there (DESIGN CHOICE, log entry 81). -/
def takeRoceData (s : State) (qp : Nat) (r : ReadOut) (data : List Byte) : State :=
  let b := data.take (r.len - r.got)
  let s := writeReadData s r (r.base + r.got) b
  if r.len ≤ r.got + b.length then
    let v := qpair s qp
    let s := setQpair s qp { v with out := v.out.filter (fun m => m.cmd != some r.cmd), retries := 0 }
    succeed (dropRead s r.cmd) r.cmd 0
  else { s with reads := s.reads.map (fun x => if x.cmd = r.cmd then { x with got := x.got + b.length } else x) }

/-- ROCE_READ_RESPONSE (R355): data for the oldest REMOTE_READ of a queue pair. -/
def execRoceReadResponse (m : QpHead) (data : List Byte) (s : State) : Host.Outcome State Fault Refusal :=
  .next (
    if !takesRoce s m.head then s
    else
      let s := answerCe s m.qp.val m.head.ce
      match s.reads.find? (fun r => r.path == 4096 + m.qp.val) with
      | none => s
      | some r => takeRoceData s m.qp.val r data)

end Sys2Proof.Machine
end

