-- ==== Sys2Proof/Machine/Dispatch.lean ====
section
/-!
DEFINITION. One arm per command: the meaning it has.
-/
namespace Sys2Proof.Machine

/-- The effect of a command on everything but the queue of waiting commands. -/
def exec (i : Instr) (s : State) : Host.Outcome State Fault Refusal :=
  match i with
  | .queueDoorbell a0 a1 => Sys2Proof.Machine.execQueueDoorbell a0 a1 s
  | .cplHeadWrite a0 a1 => Sys2Proof.Machine.execCplHeadWrite a0 a1 s
  | .roceSendPackets a0 a1 => Sys2Proof.Machine.execRoceSendPackets a0 a1 s
  | .roceWriteImmediateDoorbell a0 a1 => Sys2Proof.Machine.execRoceWriteImmediateDoorbell a0 a1 s
  | .nop a0 => Sys2Proof.Machine.execNop a0 s
  | .attach a0 a1 => Sys2Proof.Machine.execAttach a0 a1 s
  | .detach a0 a1 => Sys2Proof.Machine.execDetach a0 a1 s
  | .detachFree a0 a1 => Sys2Proof.Machine.execDetachFree a0 a1 s
  | .fence a0 => Sys2Proof.Machine.execFence a0 s
  | .settle a0 a1 a2 a3 a4 a5 => Sys2Proof.Machine.execSettle a0 a1 a2 a3 a4 a5 s
  | .settleLimitExpire a0 => Sys2Proof.Machine.execSettleLimitExpire a0 s
  | .readResult a0 a1 a2 a3 => Sys2Proof.Machine.execReadResult a0 a1 a2 a3 s
  | .releaseResult a0 a1 a2 => Sys2Proof.Machine.execReleaseResult a0 a1 a2 s
  | .resultExpire a0 a1 => Sys2Proof.Machine.execResultExpire a0 a1 s
  | .queryCaps a0 a1 => Sys2Proof.Machine.execQueryCaps a0 a1 s
  | .setEventRoute a0 a1 a2 a3 a4 a5 a6 => Sys2Proof.Machine.execSetEventRoute a0 a1 a2 a3 a4 a5 a6 s
  | .partCreate a0 a1 a2 a3 => Sys2Proof.Machine.execPartCreate a0 a1 a2 a3 s
  | .partDestroy a0 a1 => Sys2Proof.Machine.execPartDestroy a0 a1 s
  | .partSlice a0 a1 a2 => Sys2Proof.Machine.execPartSlice a0 a1 a2 s
  | .contextOpen a0 a1 a2 a3 => Sys2Proof.Machine.execContextOpen a0 a1 a2 a3 s
  | .contextClose a0 a1 => Sys2Proof.Machine.execContextClose a0 a1 s
  | .copy a0 a1 a2 a3 => Sys2Proof.Machine.execCopy a0 a1 a2 a3 s
  | .fill a0 a1 a2 a3 => Sys2Proof.Machine.execFill a0 a1 a2 a3 s
  | .gatherSectors a0 a1 a2 a3 => Sys2Proof.Machine.execGatherSectors a0 a1 a2 a3 s
  | .scatterSectors a0 a1 a2 a3 a4 a5 a6 => Sys2Proof.Machine.execScatterSectors a0 a1 a2 a3 a4 a5 a6 s
  | .remoteWrite a0 a1 a2 a3 a4 a5 a6 => Sys2Proof.Machine.execRemoteWrite a0 a1 a2 a3 a4 a5 a6 s
  | .remoteRead a0 a1 a2 a3 a4 a5 a6 => Sys2Proof.Machine.execRemoteRead a0 a1 a2 a3 a4 a5 a6 s
  | .placeRetire a0 a1 => Sys2Proof.Machine.execPlaceRetire a0 a1 s
  | .placeHome a0 a1 a2 a3 => Sys2Proof.Machine.execPlaceHome a0 a1 a2 a3 s
  | .loadProgram a0 a1 a2 => Sys2Proof.Machine.execLoadProgram a0 a1 a2 s
  | .run a0 a1 a2 a3 => Sys2Proof.Machine.execRun a0 a1 a2 a3 s
  | .runStep a0 a1 a2 a3 a4 a5 => Sys2Proof.Machine.execRunStep a0 a1 a2 a3 a4 a5 s
  | .caskFlush a0 a1 => Sys2Proof.Machine.execCaskFlush a0 a1 s
  | .setSeed a0 a1 a2 => Sys2Proof.Machine.execSetSeed a0 a1 a2 s
  | .routeTableWrite a0 a1 a2 a3 a4 a5 => Sys2Proof.Machine.execRouteTableWrite a0 a1 a2 a3 a4 a5 s
  | .auditArm a0 a1 a2 a3 a4 => Sys2Proof.Machine.execAuditArm a0 a1 a2 a3 a4 s
  | .auditDisarm a0 a1 a2 a3 a4 => Sys2Proof.Machine.execAuditDisarm a0 a1 a2 a3 a4 s
  | .auditRead a0 a1 a2 => Sys2Proof.Machine.execAuditRead a0 a1 a2 s
  | .tallyRead a0 a1 a2 a3 => Sys2Proof.Machine.execTallyRead a0 a1 a2 a3 s
  | .jobOpen a0 a1 => Sys2Proof.Machine.execJobOpen a0 a1 s
  | .jobClose a0 a1 => Sys2Proof.Machine.execJobClose a0 a1 s
  | .jobCloseForce a0 a1 => Sys2Proof.Machine.execJobCloseForce a0 a1 s
  | .bucketContribute a0 a1 a2 a3 a4 a5 a6 => Sys2Proof.Machine.execBucketContribute a0 a1 a2 a3 a4 a5 a6 s
  | .rollRead a0 a1 a2 a3 a4 => Sys2Proof.Machine.execRollRead a0 a1 a2 a3 a4 s
  | .parSet a0 a1 a2 a3 => Sys2Proof.Machine.execParSet a0 a1 a2 a3 s
  | .reserveFlushZero a0 a1 a2 a3 => Sys2Proof.Machine.execReserveFlushZero a0 a1 a2 a3 s
  | .reserveFlushSave a0 a1 a2 a3 => Sys2Proof.Machine.execReserveFlushSave a0 a1 a2 a3 s
  | .reserveFlushLoad a0 a1 a2 a3 => Sys2Proof.Machine.execReserveFlushLoad a0 a1 a2 a3 s
  | .streamOpen a0 a1 => Sys2Proof.Machine.execStreamOpen a0 a1 s
  | .streamClose a0 a1 => Sys2Proof.Machine.execStreamClose a0 a1 s
  | .streamFeed a0 a1 a2 a3 a4 => Sys2Proof.Machine.execStreamFeed a0 a1 a2 a3 a4 s
  | .batchDefine a0 a1 a2 a3 a4 a5 => Sys2Proof.Machine.execBatchDefine a0 a1 a2 a3 a4 a5 s
  | .encodeOpen a0 a1 => Sys2Proof.Machine.execEncodeOpen a0 a1 s
  | .budgetSet a0 a1 a2 => Sys2Proof.Machine.execBudgetSet a0 a1 a2 s
  | .budgetSetModule a0 a1 a2 => Sys2Proof.Machine.execBudgetSetModule a0 a1 a2 s
  | .ledgerRead a0 a1 => Sys2Proof.Machine.execLedgerRead a0 a1 s
  | .twoKeyPropose a0 a1 a2 a3 => Sys2Proof.Machine.execTwoKeyPropose a0 a1 a2 a3 s
  | .twoKeyConfirm a0 a1 a2 => Sys2Proof.Machine.execTwoKeyConfirm a0 a1 a2 s
  | .proposalLapse a0 => Sys2Proof.Machine.execProposalLapse a0 s
  | .attest a0 a1 a2 => Sys2Proof.Machine.execAttest a0 a1 a2 s
  | .fwStage a0 a1 a2 => Sys2Proof.Machine.execFwStage a0 a1 a2 s
  | .fwCommit a0 => Sys2Proof.Machine.execFwCommit a0 s
  | .cnop a0 a1 a2 => Sys2Proof.Machine.execCnop a0 a1 a2 s
  | .endStream a0 a1 a2 => Sys2Proof.Machine.execEndStream a0 a1 a2 s
  | .loop a0 a1 a2 => Sys2Proof.Machine.execLoop a0 a1 a2 s
  | .twait a0 a1 a2 => Sys2Proof.Machine.execTwait a0 a1 a2 s
  | .twaitSatisfied a0 a1 => Sys2Proof.Machine.execTwaitSatisfied a0 a1 s
  | .tokenTimeout a0 a1 => Sys2Proof.Machine.execTokenTimeout a0 a1 s
  | .tsignal a0 a1 a2 => Sys2Proof.Machine.execTsignal a0 a1 a2 s
  | .sli a0 a1 a2 => Sys2Proof.Machine.execSli a0 a1 a2 s
  | .slui a0 a1 a2 => Sys2Proof.Machine.execSlui a0 a1 a2 s
  | .salu a0 a1 a2 => Sys2Proof.Machine.execSalu a0 a1 a2 s
  | .sid a0 a1 a2 => Sys2Proof.Machine.execSid a0 a1 a2 s
  | .vop a0 a1 a2 => Sys2Proof.Machine.execVop a0 a1 a2 s
  | .vatSlice a0 a1 a2 => Sys2Proof.Machine.execVatSlice a0 a1 a2 s
  | .vatDrain a0 a1 => Sys2Proof.Machine.execVatDrain a0 a1 s
  | .vatDrainComplete a0 a1 => Sys2Proof.Machine.execVatDrainComplete a0 a1 s
  | .vnop a0 a1 a2 => Sys2Proof.Machine.execVnop a0 a1 a2 s
  | .vsetvl a0 a1 a2 => Sys2Proof.Machine.execVsetvl a0 a1 a2 s
  | .vld a0 a1 a2 => Sys2Proof.Machine.execVld a0 a1 a2 s
  | .vst a0 a1 a2 => Sys2Proof.Machine.execVst a0 a1 a2 s
  | .vldu a0 a1 a2 => Sys2Proof.Machine.execVldu a0 a1 a2 s
  | .vldv a0 a1 a2 => Sys2Proof.Machine.execVldv a0 a1 a2 s
  | .vstu a0 a1 a2 => Sys2Proof.Machine.execVstu a0 a1 a2 s
  | .vstv a0 a1 a2 => Sys2Proof.Machine.execVstv a0 a1 a2 s
  | .vmov a0 a1 a2 => Sys2Proof.Machine.execVmov a0 a1 a2 s
  | .vtrn a0 a1 a2 => Sys2Proof.Machine.execVtrn a0 a1 a2 s
  | .vadd a0 a1 a2 => Sys2Proof.Machine.execVadd a0 a1 a2 s
  | .vsub a0 a1 a2 => Sys2Proof.Machine.execVsub a0 a1 a2 s
  | .vmul a0 a1 a2 => Sys2Proof.Machine.execVmul a0 a1 a2 s
  | .vfma a0 a1 a2 => Sys2Proof.Machine.execVfma a0 a1 a2 s
  | .vfnma a0 a1 a2 => Sys2Proof.Machine.execVfnma a0 a1 a2 s
  | .vmax a0 a1 a2 => Sys2Proof.Machine.execVmax a0 a1 a2 s
  | .vmin a0 a1 a2 => Sys2Proof.Machine.execVmin a0 a1 a2 s
  | .vabs a0 a1 a2 => Sys2Proof.Machine.execVabs a0 a1 a2 s
  | .vrcp a0 a1 a2 => Sys2Proof.Machine.execVrcp a0 a1 a2 s
  | .vsqrt a0 a1 a2 => Sys2Proof.Machine.execVsqrt a0 a1 a2 s
  | .vrsqrt a0 a1 a2 => Sys2Proof.Machine.execVrsqrt a0 a1 a2 s
  | .vexp a0 a1 a2 => Sys2Proof.Machine.execVexp a0 a1 a2 s
  | .vexp2 a0 a1 a2 => Sys2Proof.Machine.execVexp2 a0 a1 a2 s
  | .vlog2 a0 a1 a2 => Sys2Proof.Machine.execVlog2 a0 a1 a2 s
  | .vtanh a0 a1 a2 => Sys2Proof.Machine.execVtanh a0 a1 a2 s
  | .verf a0 a1 a2 => Sys2Proof.Machine.execVerf a0 a1 a2 s
  | .vcmplt a0 a1 a2 => Sys2Proof.Machine.execVcmplt a0 a1 a2 s
  | .vcmple a0 a1 a2 => Sys2Proof.Machine.execVcmple a0 a1 a2 s
  | .vcmpeq a0 a1 a2 => Sys2Proof.Machine.execVcmpeq a0 a1 a2 s
  | .vcmpun a0 a1 a2 => Sys2Proof.Machine.execVcmpun a0 a1 a2 s
  | .vmand a0 a1 a2 => Sys2Proof.Machine.execVmand a0 a1 a2 s
  | .vmor a0 a1 a2 => Sys2Proof.Machine.execVmor a0 a1 a2 s
  | .vmxor a0 a1 a2 => Sys2Proof.Machine.execVmxor a0 a1 a2 s
  | .vmnot a0 a1 a2 => Sys2Proof.Machine.execVmnot a0 a1 a2 s
  | .vmset a0 a1 a2 => Sys2Proof.Machine.execVmset a0 a1 a2 s
  | .vsel a0 a1 a2 => Sys2Proof.Machine.execVsel a0 a1 a2 s
  | .vmaskf a0 a1 a2 => Sys2Proof.Machine.execVmaskf a0 a1 a2 s
  | .vrsumr a0 a1 a2 => Sys2Proof.Machine.execVrsumr a0 a1 a2 s
  | .vrsumc a0 a1 a2 => Sys2Proof.Machine.execVrsumc a0 a1 a2 s
  | .vrmaxr a0 a1 a2 => Sys2Proof.Machine.execVrmaxr a0 a1 a2 s
  | .vrmaxc a0 a1 a2 => Sys2Proof.Machine.execVrmaxc a0 a1 a2 s
  | .normFwd a0 a1 => Sys2Proof.Machine.execNormFwd a0 a1 s
  | .normBwd a0 a1 => Sys2Proof.Machine.execNormBwd a0 a1 s
  | .smaxFwd a0 a1 => Sys2Proof.Machine.execSmaxFwd a0 a1 s
  | .smaxAcc a0 a1 => Sys2Proof.Machine.execSmaxAcc a0 a1 s
  | .smaxFin a0 a1 => Sys2Proof.Machine.execSmaxFin a0 a1 s
  | .smaxBwd a0 a1 => Sys2Proof.Machine.execSmaxBwd a0 a1 s
  | .topkFwd a0 a1 => Sys2Proof.Machine.execTopkFwd a0 a1 s
  | .topkBwd a0 a1 => Sys2Proof.Machine.execTopkBwd a0 a1 s
  | .rowOpComplete a0 => Sys2Proof.Machine.execRowOpComplete a0 s
  | .moveLinear a0 a1 => Sys2Proof.Machine.execMoveLinear a0 a1 s
  | .moveStrided a0 a1 => Sys2Proof.Machine.execMoveStrided a0 a1 s
  | .moveGather a0 a1 => Sys2Proof.Machine.execMoveGather a0 a1 s
  | .moveScatter a0 a1 => Sys2Proof.Machine.execMoveScatter a0 a1 s
  | .slotFill a0 a1 => Sys2Proof.Machine.execSlotFill a0 a1 s
  | .moveComplete a0 a1 => Sys2Proof.Machine.execMoveComplete a0 a1 s
  | .schedulerWalk a0 => Sys2Proof.Machine.execSchedulerWalk a0 s
  | .sliceComplete a0 a1 a2 => Sys2Proof.Machine.execSliceComplete a0 a1 a2 s
  | .wideSliceHold a0 => Sys2Proof.Machine.execWideSliceHold a0 s
  | .quantumPreempt a0 a1 => Sys2Proof.Machine.execQuantumPreempt a0 a1 s
  | .caskAgePromote a0 a1 => Sys2Proof.Machine.execCaskAgePromote a0 a1 s
  | .expDoorbellWrite a0 a1 a2 => Sys2Proof.Machine.execExpDoorbellWrite a0 a1 a2 s
  | .exchDispatch a0 => Sys2Proof.Machine.execExchDispatch a0 s
  | .exchReturn a0 => Sys2Proof.Machine.execExchReturn a0 s
  | .exchCombine a0 => Sys2Proof.Machine.execExchCombine a0 s
  | .exchReceive a0 => Sys2Proof.Machine.execExchReceive a0 s
  | .exchShift a0 => Sys2Proof.Machine.execExchShift a0 s
  | .exchangeRecordArrive a0 a1 => Sys2Proof.Machine.execExchangeRecordArrive a0 a1 s
  | .exchangeComplete a0 a1 a2 => Sys2Proof.Machine.execExchangeComplete a0 a1 a2 s
  | .receiveLimitExpire a0 a1 => Sys2Proof.Machine.execReceiveLimitExpire a0 a1 s
  | .expLoadRead a0 a1 a2 => Sys2Proof.Machine.execExpLoadRead a0 a1 a2 s
  | .rdShared a0 a1 => Sys2Proof.Machine.execRdShared a0 a1 s
  | .rdOwn a0 a1 => Sys2Proof.Machine.execRdOwn a0 a1 s
  | .upgrade a0 a1 => Sys2Proof.Machine.execUpgrade a0 a1 s
  | .wb a0 a1 => Sys2Proof.Machine.execWb a0 a1 s
  | .evict a0 a1 => Sys2Proof.Machine.execEvict a0 a1 s
  | .rdNc a0 a1 => Sys2Proof.Machine.execRdNc a0 a1 s
  | .wrNc a0 a1 => Sys2Proof.Machine.execWrNc a0 a1 s
  | .atomicSwap a0 a1 => Sys2Proof.Machine.execAtomicSwap a0 a1 s
  | .atomicCas a0 a1 => Sys2Proof.Machine.execAtomicCas a0 a1 s
  | .atomicAdd a0 a1 => Sys2Proof.Machine.execAtomicAdd a0 a1 s
  | .atomicAnd a0 a1 => Sys2Proof.Machine.execAtomicAnd a0 a1 s
  | .atomicOr a0 a1 => Sys2Proof.Machine.execAtomicOr a0 a1 s
  | .atomicXor a0 a1 => Sys2Proof.Machine.execAtomicXor a0 a1 s
  | .atomicSmin a0 a1 => Sys2Proof.Machine.execAtomicSmin a0 a1 s
  | .atomicSmax a0 a1 => Sys2Proof.Machine.execAtomicSmax a0 a1 s
  | .atomicUmin a0 a1 => Sys2Proof.Machine.execAtomicUmin a0 a1 s
  | .atomicUmax a0 a1 => Sys2Proof.Machine.execAtomicUmax a0 a1 s
  | .atomicFadd a0 a1 => Sys2Proof.Machine.execAtomicFadd a0 a1 s
  | .atomicFmin a0 a1 => Sys2Proof.Machine.execAtomicFmin a0 a1 s
  | .atomicFmax a0 a1 => Sys2Proof.Machine.execAtomicFmax a0 a1 s
  | .atomicSc a0 a1 => Sys2Proof.Machine.execAtomicSc a0 a1 s
  | .reduce a0 a1 => Sys2Proof.Machine.execReduce a0 a1 s
  | .dataS a0 a1 => Sys2Proof.Machine.execDataS a0 a1 s
  | .dataE a0 a1 => Sys2Proof.Machine.execDataE a0 a1 s
  | .cohGrant a0 a1 => Sys2Proof.Machine.execCohGrant a0 a1 s
  | .cohComplete a0 a1 => Sys2Proof.Machine.execCohComplete a0 a1 s
  | .atomicResult a0 a1 => Sys2Proof.Machine.execAtomicResult a0 a1 s
  | .cohNack a0 a1 => Sys2Proof.Machine.execCohNack a0 a1 s
  | .cohPoisoned a0 a1 => Sys2Proof.Machine.execCohPoisoned a0 a1 s
  | .cohDenied a0 a1 => Sys2Proof.Machine.execCohDenied a0 a1 s
  | .snpInv a0 a1 a2 => Sys2Proof.Machine.execSnpInv a0 a1 a2 s
  | .snpData a0 a1 a2 => Sys2Proof.Machine.execSnpData a0 a1 a2 s
  | .snpInvData a0 a1 a2 => Sys2Proof.Machine.execSnpInvData a0 a1 a2 s
  | .snpAck a0 a1 => Sys2Proof.Machine.execSnpAck a0 a1 s
  | .snpAckData a0 a1 => Sys2Proof.Machine.execSnpAckData a0 a1 s
  | .homeQueueAdmit a0 a1 => Sys2Proof.Machine.execHomeQueueAdmit a0 a1 s
  | .snoopTimeout a0 a1 => Sys2Proof.Machine.execSnoopTimeout a0 a1 s
  | .coherenceRequestTimeout a0 a1 => Sys2Proof.Machine.execCoherenceRequestTimeout a0 a1 s
  | .stackDown a0 => Sys2Proof.Machine.execStackDown a0 s
  | .spreadChange a0 a1 a2 => Sys2Proof.Machine.execSpreadChange a0 a1 a2 s
  | .scrubRead a0 => Sys2Proof.Machine.execScrubRead a0 s
  | .correctionEntryExpire a0 a1 => Sys2Proof.Machine.execCorrectionEntryExpire a0 a1 s
  | .retireReportRead a0 a1 => Sys2Proof.Machine.execRetireReportRead a0 a1 s
  | .injectWrite a0 a1 a2 => Sys2Proof.Machine.execInjectWrite a0 a1 a2 s
  | .netWrite a0 a1 a2 => Sys2Proof.Machine.execNetWrite a0 a1 a2 s
  | .netReadReq a0 a1 a2 => Sys2Proof.Machine.execNetReadReq a0 a1 a2 s
  | .netReadResp a0 a1 a2 => Sys2Proof.Machine.execNetReadResp a0 a1 a2 s
  | .netAck a0 a1 a2 => Sys2Proof.Machine.execNetAck a0 a1 a2 s
  | .netNak a0 a1 a2 => Sys2Proof.Machine.execNetNak a0 a1 a2 s
  | .netProbe a0 a1 a2 a3 => Sys2Proof.Machine.execNetProbe a0 a1 a2 a3 s
  | .packetForward a0 a1 => Sys2Proof.Machine.execPacketForward a0 a1 s
  | .rtoExpire a0 a1 => Sys2Proof.Machine.execRtoExpire a0 a1 s
  | .ackTimer a0 a1 => Sys2Proof.Machine.execAckTimer a0 a1 s
  | .probeTimer a0 => Sys2Proof.Machine.execProbeTimer a0 s
  | .rateRecover a0 a1 => Sys2Proof.Machine.execRateRecover a0 a1 s
  | .laneLockLoss a0 => Sys2Proof.Machine.execLaneLockLoss a0 s
  | .portRetrainDone a0 => Sys2Proof.Machine.execPortRetrainDone a0 s
  | .portFailed a0 => Sys2Proof.Machine.execPortFailed a0 s
  | .portEnableWrite a0 a1 a2 => Sys2Proof.Machine.execPortEnableWrite a0 a1 a2 s
  | .pkgIdWrite a0 a1 => Sys2Proof.Machine.execPkgIdWrite a0 a1 s
  | .roceRdmaWrite a0 a1 a2 a3 a4 => Sys2Proof.Machine.execRoceRdmaWrite a0 a1 a2 a3 a4 s
  | .roceRdmaRead a0 a1 a2 a3 a4 => Sys2Proof.Machine.execRoceRdmaRead a0 a1 a2 a3 a4 s
  | .roceCnp a0 => Sys2Proof.Machine.execRoceCnp a0 s
  | .rocePeerReset a0 => Sys2Proof.Machine.execRocePeerReset a0 s
  | .probeUp a0 a1 a2 => Sys2Proof.Machine.execProbeUp a0 a1 a2 s
  | .probeDown a0 a1 a2 => Sys2Proof.Machine.execProbeDown a0 a1 a2 s
  | .contribUp a0 a1 a2 => Sys2Proof.Machine.execContribUp a0 a1 a2 s
  | .partialUp a0 a1 a2 => Sys2Proof.Machine.execPartialUp a0 a1 a2 s
  | .closeUp a0 a1 a2 => Sys2Proof.Machine.execCloseUp a0 a1 a2 s
  | .resultDown a0 a1 a2 => Sys2Proof.Machine.execResultDown a0 a1 a2 s
  | .rollDown a0 a1 a2 => Sys2Proof.Machine.execRollDown a0 a1 a2 s
  | .clrAbort a0 a1 a2 => Sys2Proof.Machine.execClrAbort a0 a1 a2 s
  | .closeBeat a0 a1 a2 => Sys2Proof.Machine.execCloseBeat a0 a1 a2 s
  | .bcastLimitExpire a0 a1 => Sys2Proof.Machine.execBcastLimitExpire a0 a1 s
  | .beatEdge a0 a1 => Sys2Proof.Machine.execBeatEdge a0 a1 s
  | .beatPulseMissing => Sys2Proof.Machine.execBeatPulseMissing s
  | .ptpLock => Sys2Proof.Machine.execPtpLock s
  | .ptpLockLoss => Sys2Proof.Machine.execPtpLockLoss s
  | .ledgerClose a0 => Sys2Proof.Machine.execLedgerClose a0 s
  | .powerHoldEnter => Sys2Proof.Machine.execPowerHoldEnter s
  | .pwrWarnAssert => Sys2Proof.Machine.execPwrWarnAssert s
  | .pwrWarnRelease => Sys2Proof.Machine.execPwrWarnRelease s
  | .undervoltageLockout => Sys2Proof.Machine.execUndervoltageLockout s
  | .overvoltageDisconnect => Sys2Proof.Machine.execOvervoltageDisconnect s
  | .supplyRestart => Sys2Proof.Machine.execSupplyRestart s
  | .supplyExcursion => Sys2Proof.Machine.execSupplyExcursion s
  | .thermalTrip a0 a1 => Sys2Proof.Machine.execThermalTrip a0 a1 s
  | .modResetAssert => Sys2Proof.Machine.execModResetAssert s
  | .modResetRelease a0 a1 a2 => Sys2Proof.Machine.execModResetRelease a0 a1 a2 s
  | .bootTrialTimeout a0 a1 => Sys2Proof.Machine.execBootTrialTimeout a0 a1 s
  | .joinFlitReplay a0 a1 => Sys2Proof.Machine.execJoinFlitReplay a0 a1 s
  | .joinFail a0 => Sys2Proof.Machine.execJoinFail a0 s
  | .joinReplayRead a0 a1 => Sys2Proof.Machine.execJoinReplayRead a0 a1 s
  | .eventDelivery a0 => Sys2Proof.Machine.execEventDelivery a0 s
  | .holdoffExpire a0 => Sys2Proof.Machine.execHoldoffExpire a0 s
  | .evtPendClear a0 a1 a2 a3 => Sys2Proof.Machine.execEvtPendClear a0 a1 a2 a3 s
  | .evtPendSet a0 a1 a2 a3 => Sys2Proof.Machine.execEvtPendSet a0 a1 a2 a3 s
  | .evtSrcCountRead a0 a1 => Sys2Proof.Machine.execEvtSrcCountRead a0 a1 s
  | .evtCoreClaim a0 a1 => Sys2Proof.Machine.execEvtCoreClaim a0 a1 s
  | .evtCoreEoi a0 a1 a2 => Sys2Proof.Machine.execEvtCoreEoi a0 a1 a2 s
  | .evtHoldoffWrite a0 a1 a2 => Sys2Proof.Machine.execEvtHoldoffWrite a0 a1 a2 s
  | .frameDecodeStart a0 a1 => Sys2Proof.Machine.execFrameDecodeStart a0 a1 s
  | .frameDecodeDone a0 a1 => Sys2Proof.Machine.execFrameDecodeDone a0 a1 s
  | .batchClose a0 a1 a2 => Sys2Proof.Machine.execBatchClose a0 a1 a2 s
  | .coreRingEntryPost a0 => Sys2Proof.Machine.execCoreRingEntryPost a0 s
  | .ingCoreDone a0 a1 a2 => Sys2Proof.Machine.execIngCoreDone a0 a1 a2 s
  | .ingStreamSideWrite a0 a1 a2 a3 => Sys2Proof.Machine.execIngStreamSideWrite a0 a1 a2 a3 s
  | .ingCoreRingWrite a0 a1 a2 a3 => Sys2Proof.Machine.execIngCoreRingWrite a0 a1 a2 a3 s
  | .milPoolWrite a0 a1 a2 => Sys2Proof.Machine.execMilPoolWrite a0 a1 a2 s
  | .pictureEncode a0 a1 a2 => Sys2Proof.Machine.execPictureEncode a0 a1 a2 s
  | .encodeUnitEmit a0 => Sys2Proof.Machine.execEncodeUnitEmit a0 s
  | .wortPeakRead a0 a1 => Sys2Proof.Machine.execWortPeakRead a0 a1 s
  | .redfishGet a0 => Sys2Proof.Machine.execRedfishGet a0 s
  | .bootConfigurationPatch a0 => Sys2Proof.Machine.execBootConfigurationPatch a0 s
  | .managerReset a0 a1 a2 => Sys2Proof.Machine.execManagerReset a0 a1 a2 s
  | .subscriptionCreate a0 a1 a2 => Sys2Proof.Machine.execSubscriptionCreate a0 a1 a2 s
  | .subscriptionDelete a0 => Sys2Proof.Machine.execSubscriptionDelete a0 s
  | .eventPostRetry a0 => Sys2Proof.Machine.execEventPostRetry a0 s
  | .smbusCapability => Sys2Proof.Machine.execSmbusCapability s
  | .readVin a0 => Sys2Proof.Machine.execReadVin a0 s
  | .readIin a0 => Sys2Proof.Machine.execReadIin a0 s
  | .readPin a0 => Sys2Proof.Machine.execReadPin a0 s
  | .readTemperature1 a0 => Sys2Proof.Machine.execReadTemperature1 a0 s
  | .readTemperature2 a0 => Sys2Proof.Machine.execReadTemperature2 a0 s
  | .mfrId => Sys2Proof.Machine.execMfrId s
  | .mfrModel => Sys2Proof.Machine.execMfrModel s
  | .registerWrite a0 a1 a2 a3 => Sys2Proof.Machine.execRegisterWrite a0 a1 a2 a3 s
  | .reservedAccess a0 a1 a2 a3 => Sys2Proof.Machine.execReservedAccess a0 a1 a2 a3 s
  | .roceAck a0 a1 => Sys2Proof.Machine.execRoceAck a0 a1 s
  | .roceRnrNak a0 => Sys2Proof.Machine.execRoceRnrNak a0 s
  | .roceReadResponse a0 a1 => Sys2Proof.Machine.execRoceReadResponse a0 a1 s
  | .roceRetryTimeout a0 => Sys2Proof.Machine.execRoceRetryTimeout a0 s
  | .pfcFrame a0 a1 a2 => Sys2Proof.Machine.execPfcFrame a0 a1 a2 s
  | .smbusUnsupportedCommand a0 => Sys2Proof.Machine.execSmbusUnsupportedCommand a0 s
  | .redfishUnsupportedRequest a0 a1 => Sys2Proof.Machine.execRedfishUnsupportedRequest a0 a1 s

end Sys2Proof.Machine
end

