-- ==== Sys2Proof/Machine/Start.lean ====
section
/-!
DEFINITION. What the block does while no command waits (log entry 9): the commands it has accepted start as R404 allows, and what they
wait for ends them.
-/
namespace Sys2Proof.Machine

/-! ### Starting a command that was fetched -/

/-- The start of a command on queues, results, partitions or contexts. -/
def beginSystem (i : Instr) : Option (State → Cmd → State) :=
  match i with
  | .nop _ => some startNop
  | .attach _ p => some (startAttach p)
  | .detach _ q => some (startDetach q.val)
  | .detachFree _ q => some (startDetachFree q.val)
  | .fence _ => some startFence
  | .settle _ k p path stamp limit => some (startSettle k.val p.toNat path.toNat stamp.toNat limit.toNat)
  | .readResult _ q t d => some (startReadResult q.val t.toNat d.toNat)
  | .releaseResult _ q t => some (startReleaseResult q.val t.toNat)
  | .queryCaps _ d => some (startQueryCaps d.toNat)
  | .setEventRoute _ src prio g k t e => some (startSetEventRoute src.val prio.val g.val k.val t.val e)
  | .partCreate _ p alloc d => some (startPartCreate p.val alloc d.toNat)
  | .partDestroy _ p => some (startPartDestroy p.val)
  | .partSlice _ p q => some (startPartSlice p.val q.toNat)
  | .contextOpen _ b prio r => some (startContextOpen b.toNat prio.val r.toNat)
  | .contextClose _ x => some (startContextClose x.val)
  | _ => none

/-- The start of a data command. -/
def beginData (i : Instr) : Option (State → Cmd → State) :=
  match i with
  | .copy _ src dst len => some (startCopy src.toNat dst.toNat len.toNat)
  | .fill _ dst len p => some (startFill dst.toNat len.toNat p.toNat)
  | .gatherSectors _ l dst n => some (startGather l.toNat dst.toNat n.toNat)
  | .scatterSectors _ l src n acc aop size =>
    some (startScatter l.toNat src.toNat n.toNat (if acc then some ⟨aop.val, if size then 8 else 4⟩ else none))
  | .remoteWrite _ src dst len path k r => some (startRemoteWrite src.toNat dst.toNat len.toNat path.toNat k r.toNat)
  | .remoteRead _ src dst len path k r => some (startRemoteRead src.toNat dst.toNat len.toNat path.toNat k r.toNat)
  | .placeRetire _ a => some (startPlaceRetire a.toNat)
  | .placeHome _ a t f => some (startPlaceHome a.toNat t.val f)
  | _ => none

/-- The start of a compute or audit command. -/
def beginCompute (i : Instr) : Option (State → Cmd → State) :=
  match i with
  | .loadProgram _ src len => some (startLoadProgram src.toNat len.toNat)
  | .run _ x p a => some (startRun x.val p.toNat a.toNat)
  | .runStep _ x p a st g => some (startRunStep x.val p.toNat a.toNat st.toNat g)
  | .caskFlush _ x => some (startCaskFlush x.val)
  | .setSeed _ x v => some (startSetSeed x.val v)
  | .routeTableWrite _ f n src cfg clr => some (startRouteTableWrite f.toNat n.toNat src.toNat cfg.toNat clr)
  | .auditArm _ x w sp l => some (startAuditArm x.val w.toNat sp l.toNat true)
  | .auditDisarm _ x w sp l => some (startAuditArm x.val w.toNat sp l.toNat false)
  | .auditRead _ x d => some (startAuditRead x.val d.toNat)
  | .tallyRead _ sl clr d => some (startTallyRead sl.val clr d.toNat)
  | _ => none

/-- The start of a clearing or ingest command. -/
def beginUnits (i : Instr) : Option (State → Cmd → State) :=
  match i with
  | .jobOpen _ p => some (startJobOpen p)
  | .jobClose _ j => some (startJobClose j.val)
  | .jobCloseForce _ j => some (startJobCloseForce j.val)
  | .bucketContribute _ j b x st due w => some (startBucketContribute j.val b.val x.val st.toNat due.toNat w.toNat)
  | .rollRead _ j b st d => some (startRollRead j.val b.val st.toNat d.toNat)
  | .parSet _ j b src => some (startParSet j.val b.val src.toNat)
  | .reserveFlushZero _ j b a => some (startFlush 0 j.val b.toNat a.toNat)
  | .reserveFlushSave _ j b a => some (startFlush 1 j.val b.toNat a.toNat)
  | .reserveFlushLoad _ j b a => some (startFlush 2 j.val b.toNat a.toNat)
  | .streamOpen _ p => some (startStreamOpen p)
  | .streamClose _ x => some (startStreamClose x.toNat)
  | .streamFeed _ x src len c => some (startStreamFeed x.toNat src.toNat len.toNat c.toNat)
  | .batchDefine _ b sl n d r => some (startBatchDefine b.toNat sl.toNat n.toNat d.toNat r.toNat)
  | .encodeOpen _ p => some (startEncodeOpen p)
  | _ => none

/-- The start of a power or security command. -/
def beginControl (i : Instr) : Option (State → Cmd → State) :=
  match i with
  | .budgetSet _ p v => some (startBudgetSet p.val v.toNat)
  | .budgetSetModule _ _ v => some (startBudgetSetModule v.toNat)
  | .ledgerRead _ d => some (startLedgerRead d.toNat)
  | .twoKeyPropose _ t a n => some (startTwoKeyPropose t.val a.toNat n.toNat)
  | .twoKeyConfirm _ n a => some (startTwoKeyConfirm n.toNat a.toNat)
  | .attest _ a d => some (startAttest a.toNat d.toNat)
  | .fwStage _ a n => some (startFwStage a.toNat n.toNat)
  | .fwCommit _ => some startFwCommit
  | _ => none

/-- The start of a command that a packet brings; the other commands are never accepted from a queue. -/
def begin_ (i : Instr) : Option (State → Cmd → State) :=
  (beginSystem i).or ((beginData i).or ((beginCompute i).or ((beginUnits i).or (beginControl i))))

/-- R404: an accepted command starts once it may. -/
def startAccepted (s : State) (c : Cmd) : State :=
  if startable s c then
    match begin_ c.instr with
    | some f => startWith s c f
    | none => s
  else s

/-! ### Waiting commands -/

/-- R240: a ROUTE_TABLE_WRITE that waits. -/
def resumeRoute (s : State) (c : Cmd) : State :=
  match c.instr with
  | .routeTableWrite _ f n src cfg clr => goRouteWrite f.toNat n.toNat src.toNat cfg.toNat clr s c
  | _ => s

/-- R545: an AUDIT_ARM that waits. -/
def resumeArm (s : State) (c : Cmd) : State :=
  match c.instr with
  | .auditArm _ x w sp l => goAuditArm x.val w.toNat sp l.toNat true s c
  | .auditDisarm _ x w sp l => goAuditArm x.val w.toNat sp l.toNat false s c
  | _ => s

/-- A command goes on as far as it can: it starts, or ends when what it waits for is there. The waits that a later command of the
block's input ends are left alone. -/
def advance (s : State) (c : Cmd) : State :=
  match c.wait with
  | .notStarted => startAccepted s c
  | .queueIdle q => finishDetach s c q
  | .contextStop x => finishContext s x
  | .caskFlush l => finishFlush s c l
  | .routeWrite => resumeRoute s c
  | .auditArm => resumeArm s c
  | .jobClose _ => resumeClr s c
  | .parSet => resumeClr s c
  | .reserveFlush => resumeClr s c
  | .partFree p => tryDestroy s c.id p
  | .settle _ _ _ _ _ _ => s
  | .run _ => s
  | .contribute _ _ _ => s
  | .remoteWrite _ _ _ => s
  | .remoteRead => s
  | .feed _ _ => s
  | .streamClose _ => s
  | .batchFill _ _ => s
  | .ledgerClose => s

/-- A command in flight goes on. -/
def advanceId (s : State) (id : Nat) : State :=
  match findCmd s id with
  | none => s
  | some c => advance s c

/-- R442, R443: the contexts that are ending and whose clusters have stopped close. -/
def finishContexts (s : State) : State := (List.range 256).foldl finishContext s

/-- One idle step: the packets that the module sent to itself are consumed, the mills write block rows (R522), suspensions and context
ends are finished, and the accepted commands go on, oldest first. -/
def tick (s : State) : State :=
  if isRunning s then
    let s := settleReached (finishContexts (finishSuspensions
      ((List.range 4).foldl writeNextRow (drainLoopback s s.loopback.length))))
    (s.cmds.map (·.id)).foldl advanceId s
  else s

end Sys2Proof.Machine
end

