-- ==== Sys2Proof/Machine/Encode.lean ====
section
/-!
DEFINITION. The encoder of command packets, written from the tables of R402, R410, R412, R416, R427, R499 and R523.
-/
namespace Sys2Proof.Machine

/-- Parameters given as (byte, value) pairs: each value stands with its lowest bit at bit 0 of its byte. -/
def placeParams (l : List (Nat × Nat)) : List Byte := leBytes 48 ((l.map (fun f => f.2 * 2 ^ (8 * f.1))).sum)

/-- R427: the parameters of ATTACH. -/
def attachParams (p : AttachParams) : List (Nat × Nat) :=
  [(0, p.queue.val), (1, boolNat p.alloc + 2 * p.ctrlKind.val), (2, p.partition.val), (3, p.ringLog2.val), (4, p.epoch.toNat),
   (8, p.ringBase.toNat), (16, p.cplAddr.toNat), (24, p.pkg.toNat), (26, p.path.toNat), (28, p.rkey.toNat), (32, p.retain.toNat)]

/-- R416: the first eight bytes of JOB_OPEN. -/
def jobWord (p : JobParams) : Nat :=
  p.jobId.val + 2 ^ 12 * boolNat p.alloc + 2 ^ 16 * p.axes.toNat + 2 ^ 21 * p.fanin.toNat + 2 ^ 26 * boolNat p.rotate
    + 2 ^ 27 * p.density.val + 2 ^ 29 * boolNat p.wireSr + 2 ^ 30 * p.divMode.val + 2 ^ 32 * p.outFmt.val + 2 ^ 36 * p.mode.val
    + 2 ^ 38 * boolNat p.keepReserve + 2 ^ 40 * p.hop.val + 2 ^ 48 * p.ctx.val

/-- R416: the parameters of JOB_OPEN. -/
def jobParams (p : JobParams) : List (Nat × Nat) :=
  [(0, jobWord p), (8, p.firstStep.toNat), (14, p.buckets.val), (16, p.bucketTable.toNat),
   (24, p.rollRing.toNat + 2 ^ 44 * p.rollEntries.toNat), (32, p.rollSrc.toNat), (40, p.rollSrcEntries.toNat)]

/-- R499: the parameters of STREAM_OPEN. -/
def streamParams (p : StreamParams) : List (Nat × Nat) :=
  [(0, p.tile.val), (1, p.codec.val), (2, boolNat p.live + 2 * boolNat p.subframe), (3, p.priority.toNat), (4, p.maxW.toNat),
   (6, p.maxH.toNat), (8, p.initQp.toNat), (12, p.stale.toNat), (16, p.batch.toNat), (18, p.ctx.val)]

/-- R523: the parameters of ENCODE_OPEN. -/
def encodeParams (p : EncodeParams) : List (Nat × Nat) :=
  [(0, p.tile.val), (1, boolNat p.hevc), (2, boolNat p.subframe), (4, p.w.toNat), (6, p.h.toNat), (8, p.initQp.toNat),
   (12, p.rate.toNat), (16, p.outRing.toNat), (24, p.ctx.val), (25, p.priority.val)]

/-- R410: the header, the opcode and the parameters of a system or data command. -/
def encodeLow : Instr → Option (Hdr × Nat × List (Nat × Nat))
  | .nop h => some (h, 0x00, [])
  | .attach h p => some (h, 0x01, attachParams p)
  | .detach h q => some (h, 0x02, [(0, q.val)])
  | .detachFree h q => some (h, 0x02, [(0, q.val), (1, 1)])
  | .fence h => some (h, 0x03, [])
  | .settle h kind pkg path stamp limit =>
    some (h, 0x04, [(0, kind.val), (2, pkg.toNat), (4, path.toNat), (8, stamp.toNat), (16, limit.toNat)])
  | .readResult h q ticket dest => some (h, 0x05, [(0, q.val), (4, ticket.toNat), (8, dest.toNat)])
  | .releaseResult h q ticket => some (h, 0x06, [(0, q.val), (4, ticket.toNat)])
  | .queryCaps h dest => some (h, 0x07, [(0, dest.toNat)])
  | .setEventRoute h src prio group kind target en =>
    some (h, 0x08, [(0, src.val), (2, prio.val), (3, group.val), (4, kind.val), (5, target.val), (6, boolNat en)])
  | .partCreate h p alloc desc => some (h, 0x10, [(0, p.val + 16 * boolNat alloc), (8, desc.toNat)])
  | .partDestroy h p => some (h, 0x11, [(0, p.val)])
  | .partSlice h p quantum => some (h, 0x12, [(0, p.val), (4, quantum.toNat)])
  | .contextOpen h base prio ranks => some (h, 0x13, [(0, base.toNat), (8, prio.val), (12, ranks.toNat)])
  | .contextClose h x => some (h, 0x14, [(0, x.val)])
  | .copy h src dst len => some (h, 0x18, [(0, src.toNat), (8, dst.toNat), (16, len.toNat)])
  | .fill h dst len pattern => some (h, 0x19, [(0, dst.toNat), (8, len.toNat), (16, pattern.toNat)])
  | .gatherSectors h list dst n => some (h, 0x1A, [(0, list.toNat), (8, dst.toNat), (16, n.toNat)])
  | .scatterSectors h list src n acc aop size =>
    some (h, 0x1B, [(0, list.toNat), (8, src.toNat), (16, n.toNat), (20, boolNat acc + 2 * aop.val + 32 * boolNat size)])
  | .remoteWrite h src dst len path kind rkey =>
    some (h, 0x1C, [(0, src.toNat), (8, dst.toNat), (16, len.toNat), (20, path.toNat), (22, boolNat kind), (24, rkey.toNat)])
  | .remoteRead h src dst len path kind rkey =>
    some (h, 0x1D, [(0, src.toNat), (8, dst.toNat), (16, len.toNat), (20, path.toNat), (22, boolNat kind), (24, rkey.toNat)])
  | .placeRetire h addr => some (h, 0x1E, [(0, addr.toNat)])
  | .placeHome h addr tile fixed => some (h, 0x1E, [(0, addr.toNat), (8, 1), (9, tile.val + 4 * boolNat fixed)])
  | _ => none

/-- R410: the header, the opcode and the parameters of a program, audit or clearing command. -/
def encodeMid : Instr → Option (Hdr × Nat × List (Nat × Nat))
  | .loadProgram h src len => some (h, 0x30, [(0, src.toNat), (8, len.toNat)])
  | .run h x program scalars => some (h, 0x31, [(0, x.val), (2, program.toNat), (8, scalars.toNat)])
  | .runStep h x program scalars step gate =>
    some (h, 0x32, [(0, x.val), (2, program.toNat), (8, scalars.toNat), (16, step.toNat), (22, boolNat gate)])
  | .caskFlush h x => some (h, 0x33, [(0, x.val)])
  | .setSeed h x seed => some (h, 0x34, [(0, x.val), (8, seed.toNat)])
  | .routeTableWrite h first n src cfg clear =>
    some (h, 0x35, [(0, first.toNat), (4, n.toNat), (8, src.toNat), (16, cfg.toNat), (24, boolNat clear)])
  | .auditArm h x warmup spike loss => some (h, 0x40, [(0, x.val), (4, warmup.toNat), (8, spike.toNat), (16, loss.toNat)])
  | .auditDisarm h x warmup spike loss => some (h, 0x40, [(0, x.val), (4, warmup.toNat), (8, spike.toNat), (16, loss.toNat), (24, 1)])
  | .auditRead h x dest => some (h, 0x41, [(0, x.val), (8, dest.toNat)])
  | .tallyRead h slot clear dest => some (h, 0x42, [(0, slot.val), (1, boolNat clear), (8, dest.toNat)])
  | .jobOpen h p => some (h, 0x50, jobParams p)
  | .jobClose h job => some (h, 0x51, [(0, job.val)])
  | .jobCloseForce h job => some (h, 0x51, [(0, job.val), (2, 1)])
  | .bucketContribute h job bucket x step due weight =>
    some (h, 0x52, [(0, job.val), (2, bucket.val), (3, x.val), (8, step.toNat), (16, due.toNat), (24, weight.toNat)])
  | .rollRead h job bucket step dest => some (h, 0x53, [(0, job.val), (2, bucket.val), (8, step.toNat), (16, dest.toNat)])
  | .parSet h job bucket src => some (h, 0x54, [(0, job.val), (2, bucket.val), (8, src.toNat)])
  | .reserveFlushZero h job buckets buffer => some (h, 0x55, [(0, job.val), (8, buckets.toNat), (40, buffer.toNat)])
  | .reserveFlushSave h job buckets buffer => some (h, 0x55, [(0, job.val), (2, 1), (8, buckets.toNat), (40, buffer.toNat)])
  | .reserveFlushLoad h job buckets buffer => some (h, 0x55, [(0, job.val), (2, 2), (8, buckets.toNat), (40, buffer.toNat)])
  | _ => none

/-- R410: the header, the opcode and the parameters of an ingest, power or security command. -/
def encodeHigh : Instr → Option (Hdr × Nat × List (Nat × Nat))
  | .streamOpen h p => some (h, 0x60, streamParams p)
  | .streamClose h stream => some (h, 0x61, [(0, stream.toNat)])
  | .streamFeed h stream src len capture =>
    some (h, 0x62, [(0, stream.toNat), (8, src.toNat), (16, len.toNat), (24, capture.toNat)])
  | .batchDefine h batch slots bytes dest record =>
    some (h, 0x63, [(0, batch.toNat), (4, slots.toNat), (8, bytes.toNat), (16, dest.toNat), (24, record.toNat)])
  | .encodeOpen h p => some (h, 0x64, encodeParams p)
  | .budgetSet h p credits => some (h, 0x70, [(0, p.val), (8, credits.toNat)])
  | .budgetSetModule h p credits => some (h, 0x70, [(0, p.val + 16), (8, credits.toNat)])
  | .ledgerRead h dest => some (h, 0x71, [(8, dest.toNat)])
  | .twoKeyPropose h target change len => some (h, 0x78, [(0, target.val), (8, change.toNat), (16, len.toNat)])
  | .twoKeyConfirm h number sig => some (h, 0x79, [(4, number.toNat), (8, sig.toNat)])
  | .attest h nonce dest => some (h, 0x7A, [(8, nonce.toNat), (16, dest.toNat)])
  | .fwStage h src len => some (h, 0x7B, [(8, src.toNat), (16, len.toNat)])
  | .fwCommit h => some (h, 0x7C, [])
  | _ => none

/-- The header, the opcode and the 48 parameter bytes of a command packet; none of the other commands. -/
def encodeCommand (i : Instr) : Option (Hdr × Nat × List Byte) :=
  ((encodeLow i).or ((encodeMid i).or (encodeHigh i))).map (fun e => (e.1, e.2.1, placeParams e.2.2))

/-- R402: a packet's 64 bytes, with all its parameter bytes in use; `n` is its number in the queue (R397). -/
def packetBytes (h : Hdr) (op n : Nat) (params : List Byte) : List Byte :=
  let b := leBytes 1 op ++ [1] ++ leBytes 1 (boolNat h.ordered + 2 * boolNat h.ack) ++ leBytes 1 h.queue.val ++ leBytes 2 n
    ++ leBytes 2 48 ++ leBytes 4 h.ticket.toNat ++ [0, 0, 0, 0] ++ params
  splice b 12 (leBytes 4 (crc32c b))

end Sys2Proof.Machine
end

