-- ==== Sys2Proof/Safety.lean ====
section
/-!
DEFINITION. What the statements mean by a command that completes: the conditions under which a queue takes a packet and starts
it at once (R403, R404), the state it then starts in, and what raising events, accessing memory and posting records may change.
-/
namespace Sys2Proof.Machine

/-- The command answers the next state `t` at `s`. -/
def Answers (i : Instr) (s t : State) : Prop := exec i s = .next t

/-! ### Command packets -/

/-- The command that a packet becomes when it is accepted. -/
def newCmd (s : State) (h : Hdr) (i : Instr) : Cmd :=
  ⟨s.nextCmd, i, h.queue.val, h.ticket.toNat, h.ordered, true, .notStarted, seedFor s i⟩

/-- R403, R404, R26: the queue takes the packet and starts it at once: the module runs and no join has failed, the queue
exists and the opcode's scope takes it, no destination has a reserved space code, the ticket is free, there is room for its result,
every earlier command of the queue has started (and, for an ORDERED command or a FENCE, none is in flight), and no command of another
queue holds it back. `ids` is the invariant that commands in flight were numbered before. -/
structure Ready (s : State) (h : Hdr) (i : Instr) (sc : Scope) : Prop where
  running : s.phase = .running
  joins   : s.failedJoin = none
  valid   : (queue s h.queue.val).valid = true
  scope   : scopeTakes sc h.queue.val = true
  dest    : destReserved s h.queue.val i = none
  fresh   : h.ticket.toNat ≠ 0 → ticketUsed s h.queue.val h.ticket.toNat = false
  room    : h.ticket.toNat ≠ 0 → s.results.length < 65536
  order   : ∀ d ∈ s.cmds, d.queue = h.queue.val → d.wait ≠ .notStarted ∧ (h.ordered || isFence i) = false
  alone   : heldBack { s with cmds := s.cmds ++ [newCmd s h i], nextCmd := s.nextCmd + 1 } (newCmd s h i) = false
  ids     : ∀ d ∈ s.cmds, d.id < s.nextCmd

/-- R404: the state in which an accepted command starts: it is in flight, and a PENDING reply is posted when its packet asks
for one. -/
def admitted (s : State) (h : Hdr) (i : Instr) : State :=
  let t := recordCmd s h i
  if h.ack then
    postRecord t h.queue.val
      (doneRecord h.queue.val h.ticket.toNat false { status := .pending, seed := defaultSeedOf i (seedFor s i) })
  else t

/-- R406, R417: the results kept after a command of a packet has completed as `d` says: those before, and its own record when its
ticket is not 0. -/
def resultsAfter (s : State) (h : Hdr) (d : Done) : List Kept :=
  if h.ticket.toNat = 0 then s.results
  else s.results ++ [⟨h.queue.val, h.ticket.toNat, doneRecord h.queue.val h.ticket.toNat true d, s.beat.waits⟩]

/-! ### Frames -/

/-- A state with the parts that raising an event, setting a flag or counting may change taken from another: registers, and the
management service that reports fatal events. -/
def logPart (s v : State) : State := { s with regs := v.regs, mgmt := v.mgmt }

/-- A state with the parts that an access of memory by one of the module's own engines may change taken from another: memory with
its marks, the cellar, the homes' transactions with the copies and messages that they bring about, the free values taken, and what
`logPart` has. -/
def memPart (s v : State) : State :=
  { logPart s v with
    free := v.free, mem := v.mem, undef := v.undef, poison := v.poison, bitErrs := v.bitErrs, inject := v.inject
    corr := v.corr, reports := v.reports, cellar := v.cellar, dir := v.dir, dirOrder := v.dirOrder, txns := v.txns
    homeQueue := v.homeQueue, reserved := v.reserved, reservations := v.reservations, copies := v.copies
    cohOut := v.cohOut, lost := v.lost }

/-- A state with the parts that sending on the network or on a queue pair may change taken from another: the outbound paths, ports
and queue pairs with what leaves the module or comes back to it, and what `memPart` has. -/
def sendPart (s v : State) : State :=
  { memPart s v with
    ports := v.ports, outPaths := v.outPaths, qps := v.qps, nextMsg := v.nextMsg, netOut := v.netOut
    loopback := v.loopback, roceOut := v.roceOut }

/-- From `s` to `t` nothing changes but what raising an event, setting a flag or counting may change. -/
def LogFrame (s t : State) : Prop := logPart s t = t

/-- From `s` to `t` nothing changes but what an engine's access of memory may change. -/
def MemFrame (s t : State) : Prop := memPart s t = t

/-- From `s` to `t` nothing changes but what sending may change. -/
def SendFrame (s t : State) : Prop := sendPart s t = t

/-- A queue apart from what posting changes. -/
def Queue.core (v : Queue) : Queue := { v with posted := 0, heldRecords := [] }

/-- From `s` to `t` nothing changes but what posting a record may change: of each queue the count of records posted and the records
held, and what sending may change. -/
def PostFrame (s t : State) : Prop :=
  SendFrame { s with queues := t.queues } t ∧ ∀ q, (queue t q).core = (queue s q).core

/-- R101: what a reply says of a command that ends as `d` says: DEFAULT_SEED, too, when it is a run whose context has no seed. -/
def Done.replied (d : Done) (s : State) (i : Instr) : Done := { d with seed := d.seed || defaultSeedOf i (seedFor s i) }

/-- R406, R417: the command of a packet completes at once as `d` says: its effect is that of `base`, its result is kept, and
nothing else changes but what posting its records may change. -/
def Completes (s : State) (h : Hdr) (i : Instr) (base : State) (d : Done) : Prop :=
  ∃ t, exec i s = .next t ∧
    PostFrame { base with nextCmd := s.nextCmd + 1, results := resultsAfter base h (d.replied s i) } t

end Sys2Proof.Machine
end

