-- ==== Sys2Proof/Certificates/Slice0/Obligations.lean ====
section
/-!
DEFINITION. The statements to be proved. Each formalises rules of spec/ or says where the commands of a family complete; `Ready` and
`Completes` of Safety.lean say when a packet is carried out at once and what a completion is.
-/
open Sys2Proof Sys2Proof.Machine


/-! ### Steps and commands (13_commands.md) -/

/-- A step with a command waiting is that command's effect on the state whose queue holds the rest. -/
def Obligations.StepRunsFront : Prop :=
  ∀ (c : Instr) (s : State), step { s with pending := c :: s.pending } = exec c s

/-- With no command waiting a step lets the block go on with what it has accepted (the model's choice, log entry 9); a module that
is not running stays as it is, and one with no command in flight, no run, no context ending, no packet to itself and no frame in
decoding too. -/
def Obligations.IdleStep : Prop :=
  ∀ s : State, s.pending = [] →
    step s = .next (tick s) ∧
    (s.phase ≠ .running → step s = .next s) ∧
    (s.cmds = [] → s.runs = [] → (∀ x, (ctxOf s x).ending = false) → s.loopback = [] →
      (∀ t, t < 4 → (millOf s t).decoding = []) → step s = .next s)

/-- R403: the checks of its table on a packet's header, in order, each as whether it fails, the status and the detail. -/
def headerChecks (q n : Nat) (b : List Byte) : List (Bool × Status × Nat) :=
  let op := fieldLe b 0 1
  let len := fieldLe b 6 2
  let f := (formatOf op).getD ⟨0, .any, [], []⟩
  [(crc32c (clear4 b 12) != fieldLe b 12 4, .badCrc, 0x2C01),
   (fieldLe b 1 1 != 1 || decide (4 ≤ fieldLe b 2 1) || decide (64 ≤ len), .badParam, 0x2C02),
   (fieldLe b 3 1 != q, .badParam, 0x2C03),
   (fieldLe b 4 2 != n % 65536, .badSequence, 0x2C04),
   ((formatOf op).isNone, .badOpcode, 0x2C05),
   (decide (len < f.last) || decide (48 < len), .badParam, 0x2C06)]

/-- The fields of a packet's header that its command carries. -/
def packetHdr (q : Nat) (b : List Byte) : Hdr :=
  ⟨Fin.ofNat 256 q, BitVec.ofNat 32 (fieldLe b 8 4), natBit (fieldLe b 2 1) 0, natBit (fieldLe b 2 1) 1⟩

/-- R403: the further checks of its table in order; the parameters' check comes last and names the packet byte of the lowest
field, a destination field with a reserved space code among them (R350, R410). -/
def tellerChecks (s : State) (q : Nat) (b : List Byte) : List (Bool × Status × Nat) :=
  let t := fieldLe b 8 4
  let f := (formatOf (fieldLe b 0 1)).getD ⟨0, .any, [], []⟩
  let x := parse (packetHdr q b) (fieldLe b 0 1) (b.drop 16)
  let low := lowest (lowest ((reservedByte f (leNat (b.drop 16))).map (· + 16)) (lowest x.bad (reservedValue x.instr)))
    (destReserved s q x.instr)
  [(t != 0 && ticketUsed s q t, .badParam, 0x2C07),
   (!scopeTakes f.scope q, .denied, 0x2C40),
   (t != 0 && decide (65536 ≤ s.results.length), .limitReached, 0x2C20),
   (low.isSome, .badParam, 0x2C80 + low.getD 0)]

/-- R403: a packet that fails a check is not carried out, holds no ticket, and completes with the status and detail of the first
check it fails; a BAD_SEQUENCE record carries the expected sequence number, a BAD_CRC record the ticket as read, and no result is
kept. A run that its header's checks let pass says DEFAULT_SEED of a context without a seed (R101). What is counted or flagged
beside it (`u`) stands in registers. A packet that passes them all is accepted as the command that its parameters decode to. That a
reserved space code of a destination and the reserved values of PLACE, STREAM_OPEN and TWO_KEY_PROPOSE count among the parameters' is
the model's choice, log entry 43, and so is DEFAULT_SEED in a refused packet's record, log entry 83. -/
def Obligations.PacketRefused : Prop :=
  ∀ (s : State) (q n : Nat) (b : List Byte), b.length = 64 → q < 256 →
    let h := packetHdr q b
    let x := parse h (fieldLe b 0 1) (b.drop 16)
    (∀ st d, firstError (headerChecks q n b) = some (st, d) →
      ∃ u, LogFrame s u ∧ takePacket s q n b =
        postRecord u q (doneRecord q (fieldLe b 8 4) false
          { status := st, detail := d, value := if st = .badSequence then n % 65536 else 0 })) ∧
    (∀ st d, firstError (headerChecks q n b) = none → firstError (tellerChecks s q b) = some (st, d) →
      ∃ u, LogFrame s u ∧ takePacket s q n b =
        postRecord u q (doneRecord q (fieldLe b 8 4) false
          { status := st, detail := d, seed := defaultSeedOf x.instr (seedFor s x.instr) })) ∧
    (firstError (headerChecks q n b) = none → firstError (tellerChecks s q b) = none →
      (takePacket s q n b).cmds = s.cmds ++ [newCmd s h x.instr] ∧ takePacket s q n b = admitted s h x.instr)

/-- R405: status replies and completion records are 32 bytes, little-endian, laid out as its table says. R407: while the ring is
full (or records are already held) a further record is held after the others and counted; the command's completion takes it from
the commands in flight and keeps its result all the same. R101, R423: that result says DEFAULT_SEED for a run whose context has no
seed, and names the path that carried an output outside the module. -/
def Obligations.Records : Prop :=
  (∀ r : Record, r.ticket < 2 ^ 32 → r.detail < 2 ^ 16 → r.stamp < 2 ^ 64 → r.path < 2 ^ 12 → r.pathKind < 4 → r.queue < 2 ^ 8 →
    r.value < 2 ^ 64 →
    (recordBytes r).length = 32 ∧ fieldLe (recordBytes r) 0 4 = r.ticket ∧ fieldLe (recordBytes r) 4 2 = statusCode r.status ∧
    fieldLe (recordBytes r) 6 2 = r.detail ∧ fieldLe (recordBytes r) 8 8 = r.stamp ∧
    fieldLe (recordBytes r) 16 2 = r.path + 4096 * r.pathKind ∧
    fieldLe (recordBytes r) 18 1 = boolNat r.defaultSeed + 2 * boolNat r.withheld + 4 * boolNat r.kept ∧
    fieldLe (recordBytes r) 19 1 = r.queue ∧ fieldLe (recordBytes r) 20 8 = r.value ∧
    fieldLe (recordBytes r) 28 4 = crc32c ((recordBytes r).take 28)) ∧
  (∀ (s : State) (q : Nat) (r : Record), posting (queue s q) = true →
    (ringFull (queue s q) = true ∨ (queue s q).heldRecords ≠ []) →
    postRecord s q r = count (setQueue s q { queue s q with heldRecords := (queue s q).heldRecords ++ [r] })
      .cmdCplStalls (4 + q / 128) 0) ∧
  (∀ (s : State) (id : Nat) (c : Cmd) (d : Done), findCmd s id = some c → c.ticket ≠ 0 → s.results.length < 65536 →
    (complete s id d).cmds = s.cmds.filter (fun x => x.id != id) ∧
    (complete s id d).results = s.results ++ [⟨c.queue, c.ticket, doneRecord c.queue c.ticket true
      { d.named c.wait with seed := (d.named c.wait).seed || defaultSeedOf c.instr c.seed }, s.beat.waits⟩])

/-- R431: whether a queue's DETACH may name a queue: any queue on queue 0, a queue of the same partition elsewhere. -/
def mayDetach (s : State) (h : Hdr) (q : Nat) : Prop :=
  (queue s q).valid = true ∧ (h.queue.val = 0 ∨ (q ≠ 0 ∧ (queue s q).partition = (queue s h.queue.val).partition))

/-- R427, R428: an ATTACH with ALLOC creates the lowest free queue for the partition it names; an ATTACH with the queue's current EPOCH
and CTRL_KIND binds it and changes nothing else; one with a new EPOCH or CTRL_KIND takes the queue over (R429). Each completes OK with
HEAD and the commands in flight. That an ATTACH of the same EPOCH and CTRL_KIND binds the queue, and its queue pair, again where R428
says it changes nothing else is the model's choice, log entry 51. R431: DETACH unbinds the controller of a queue that it may name, and
from then on the queue posts nothing; with FREE it waits until no other command of the queue is in flight, and then releases its kept
results and frees the queue. -/
def Obligations.AttachDetach : Prop :=
  (∀ (s : State) (h : Hdr) (p : AttachParams), Ready s h (.attach h p) .any → attachBad p = none →
    let a := admitted s h (.attach h p)
    let v := queue s p.queue.val
    (∀ q, p.alloc = true → (h.queue.val = 0 ∨ (queue s h.queue.val).partition = p.partition.val) →
      partActive s p.partition.val = true → inPartition s p.partition.val p.ringBase.toNat (64 * 2 ^ p.ringLog2.val) = true →
      (queue s q).valid = false → q < 256 → (∀ r < q, (queue s r).valid = true) →
      let t := bindQp (setQueue (attachQp a p) q (attachedQueue p p.partition.val false 0 0)) q
      exec (.attach h p) s = .next (succeed t s.nextCmd (attachValue t q s.nextCmd))) ∧
    (p.alloc = false → (h.queue.val = 0 ∨ (p.queue.val ≠ 0 ∧ v.partition = (queue s h.queue.val).partition)) →
      v.valid = true → v.ringBase = p.ringBase.toNat → v.ringLog2 = p.ringLog2.val →
      (v.epoch = p.epoch.toNat → v.ctrlKind = p.ctrlKind.val →
        let t := bindQp (setQueue a p.queue.val { queue a p.queue.val with attached := true }) p.queue.val
        exec (.attach h p) s =
          .next (resumePosting (succeed t s.nextCmd (attachValue t p.queue.val s.nextCmd)) p.queue.val)) ∧
      ((v.epoch ≠ p.epoch.toNat ∨ v.ctrlKind ≠ p.ctrlKind.val) →
        let t := reattach a p.queue.val s.nextCmd p
        exec (.attach h p) s = .next (succeed t s.nextCmd (attachValue t p.queue.val s.nextCmd))))) ∧
  (∀ (s : State) (h : Hdr) (q : Fin 256), mayDetach s h q.val →
    (Ready s h (.detach h q) .any →
      exec (.detach h q) s = .next (succeed (unbindQueue (admitted s h (.detach h q)) q.val) s.nextCmd 0)) ∧
    (Ready s h (.detachFree h q) .any → q.val ≠ 0 →
      let a := setWait (unbindQueue (admitted s h (.detachFree h q)) q.val) s.nextCmd (.queueIdle q.val)
      ((∀ d ∈ s.cmds, d.queue ≠ q.val) → exec (.detachFree h q) s = .next (freeQueueNow (succeed a s.nextCmd 0) q.val)) ∧
      ((∃ d ∈ s.cmds, d.queue = q.val) → exec (.detachFree h q) s = .next a)) ∧
    (∀ t : State, posting (queue (unbindQueue t q.val) q.val) = false ∧
      (queue (freeQueueNow t q.val) q.val).valid = false ∧ ∀ r ∈ (freeQueueNow t q.val).results, r.queue ≠ q.val))

/-- R426: SETTLE completes OK with the path's count once that is at least STAMP, and waits for it until then; it completes
DEADLINE_MISSED when LIMIT beats pass first. `settledCmds … = []` says that no earlier SETTLE is still to be completed. -/
def Obligations.SettleCompletes : Prop :=
  (∀ (s : State) (h : Hdr) (kind : Fin 4) (pkg : BitVec 16) (path : BitVec 12) (stamp : BitVec 64) (limit : BitVec 32),
    let i := Instr.settle h kind pkg path stamp limit
    let a := admitted s h i
    let w := Wait.settle kind.val pkg.toNat path.toNat stamp.toNat limit.toNat s.beat.waits
    Ready s h i .any → (kind.val = 1 ∨ (kind.val = 2 ∧ path.toNat < 1024)) → settledCmds a = [] →
    (stamp.toNat ≤ settleCount a kind.val pkg.toNat path.toNat →
      exec i s = .next (succeed (setWait a s.nextCmd w) s.nextCmd (settleCount a kind.val pkg.toNat path.toNat))) ∧
    (settleCount a kind.val pkg.toNat path.toNat < stamp.toNat → exec i s = .next (setWait a s.nextCmd w))) ∧
  (∀ (s : State) (c : Cmd) (kind pkg path stamp limit since : Nat), findCmd s c.id = some c →
    c.wait = .settle kind pkg path stamp limit since → limit ≠ 0 → since + limit ≤ s.beat.waits →
    exec (.settleLimitExpire c.id) s = .next (fail s c.id .deadlineMissed 0x2C30))

/-- R418, R419: which results a queue's commands may name: any on queue 0, those of the partition's queues elsewhere. -/
def mayName (s : State) (h : Hdr) (q : Nat) : Prop :=
  h.queue.val = 0 ∨ ((queue s q).valid = true ∧ q ≠ 0 ∧ (queue s q).partition = (queue s h.queue.val).partition)

/-- R418: READ_RESULT returns the outcome of the ticket it names: NOT_READY while its command is in flight, the kept record written to
DEST when its result is kept, and BAD_PARAM otherwise; DENIED when the queue is none of the issuer's. R419, R420: RELEASE_RESULT frees a
kept result and no other, after which its ticket is unknown; of a command not yet completed it completes NOT_READY, of an unknown ticket
or of ticket 0 BAD_PARAM, and DENIED when the queue is none of the issuer's. A result kept for RETAIN beats is released without a
command, and counted. R410, R421: a command's output whose destination is local and open to its issuer is written through the homes, and
the command completes OK, or POISONED where a home answered so for a line that a failed agent owned (R313). -/
def Obligations.ResultCommands : Prop :=
  (∀ (s : State) (h : Hdr) (q : Fin 256) (ticket : BitVec 32) (dest : BitVec 64),
    let i := Instr.readResult h q ticket dest
    let a := admitted s h i
    Ready s h i .any →
    (¬ mayName s h q.val → exec i s = .next (fail a s.nextCmd .denied 0x2C41)) ∧
    (mayName s h q.val → ticket.toNat ≠ 0 →
      ((∃ c ∈ a.cmds, c.queue = q.val ∧ c.ticket = ticket.toNat) → exec i s = .next (fail a s.nextCmd .notReady 0)) ∧
      (∀ r, (∀ c ∈ a.cmds, ¬(c.queue = q.val ∧ c.ticket = ticket.toNat)) →
        s.results.find? (fun r => r.queue == q.val && r.ticket == ticket.toNat) = some r →
        exec i s = .next (deliver a (newCmd s h i) dest.toNat (recordBytes r.record))) ∧
      ((∀ c ∈ a.cmds, ¬(c.queue = q.val ∧ c.ticket = ticket.toNat)) →
        (∀ r ∈ s.results, ¬(r.queue = q.val ∧ r.ticket = ticket.toNat)) →
        exec i s = .next (fail a s.nextCmd .badParam 0x2C0B))) ∧
    (mayName s h q.val → ticket.toNat = 0 → exec i s = .next (fail a s.nextCmd .badParam 0x2C0B))) ∧
  (∀ (s : State) (h : Hdr) (q : Fin 256) (ticket : BitVec 32),
    let i := Instr.releaseResult h q ticket
    let a := admitted s h i
    let ours := fun (r : Kept) => r.queue = q.val ∧ r.ticket = ticket.toNat
    Ready s h i .any →
    (¬ mayName s h q.val → exec i s = .next (fail a s.nextCmd .denied 0x2C41)) ∧
    (mayName s h q.val → ticket.toNat = 0 → exec i s = .next (fail a s.nextCmd .badParam 0x2C0B)) ∧
    (mayName s h q.val → ticket.toNat ≠ 0 →
    ((∃ c ∈ a.cmds, c.queue = q.val ∧ c.ticket = ticket.toNat) → exec i s = .next (fail a s.nextCmd .notReady 0)) ∧
    ((∀ c ∈ a.cmds, ¬(c.queue = q.val ∧ c.ticket = ticket.toNat)) → (∃ r ∈ s.results, ours r) →
      Completes s h i { s with results := s.results.filter (fun r => !(r.queue == q.val && r.ticket == ticket.toNat)) }
        { status := .ok }) ∧
    ((∀ c ∈ a.cmds, ¬(c.queue = q.val ∧ c.ticket = ticket.toNat)) → (∀ r ∈ s.results, ¬ ours r) →
      exec i s = .next (fail a s.nextCmd .badParam 0x2C0B)))) ∧
  (∀ (s : State) (q : Fin 256) (ticket : BitVec 32) (r : Kept),
    s.results.find? (fun r => r.queue == q.val && r.ticket == ticket.toNat) = some r → (queue s q.val).retain ≠ 0 →
    r.since + (queue s q.val).retain ≤ s.beat.waits →
    ∃ t, exec (.resultExpire q ticket) s = .next t ∧
      t = { s with
        results := s.results.filter (fun r => !(r.queue == q.val && r.ticket == ticket.toNat)), regs := t.regs } ∧
      getReg t .cmdExpired (4 + q.val / 128) 0 = countWord 63 (getReg s .cmdExpired (4 + q.val / 128) 0) 1) ∧
  (∀ (s : State) (c : Cmd) (dest x : Nat) (bytes : List Byte), destOf s c.queue dest = .local_ x →
    accessError s (queueWho s c.queue) (c.queue % 4) x bytes.length = none →
    let w := putRange s (waysOf s (queueWho s c.queue)) x bytes
    (w.1 = none → deliver s c dest bytes = succeed w.2 c.id 0) ∧
    (∀ d, w.1 = some d → deliver s c dest bytes = fail w.2 c.id .poisoned d))

/-- NOP and FENCE complete OK with no effect. R411, R536: QUERY_CAPS writes its 128-byte record to DEST, and SET_EVENT_ROUTE that
passes the checks of R536 writes the route of its source and completes OK. -/
def Obligations.PlainCommands : Prop :=
  (∀ (s : State) (h : Hdr),
    (Ready s h (.nop h) .any → Completes s h (.nop h) s { status := .ok }) ∧
    (Ready s h (.fence h) .any → Completes s h (.fence h) s { status := .ok })) ∧
  (∀ (s : State) (h : Hdr) (dest : BitVec 64), Ready s h (.queryCaps h dest) .any →
    let a := admitted s h (.queryCaps h dest)
    (capsBytes a).length = 128 ∧
    exec (.queryCaps h dest) s = .next (deliver a (newCmd s h (.queryCaps h dest)) dest.toNat (capsBytes a))) ∧
  (∀ (s : State) (h : Hdr) (src : Fin 1024) (prio : Fin 16) (group : Fin 64) (kind : Fin 4) (target : Fin 256) (en : Bool),
    let i := Instr.setEventRoute h src prio group kind target en
    Ready s h i .any → assignedSource src.val = true → kind.val ≠ 3 → (kind.val = 0 → target.val < 128) →
    (kind.val = 1 → (queue s target.val).valid = true) →
    (h.queue.val = 0 ∨ (sourceOf s (queue s h.queue.val).partition src.val = true ∧ kind.val = 1 ∧ target.val ≠ 0 ∧
      (queue s target.val).partition = (queue s h.queue.val).partition)) →
    exec i s = .next (succeed (setReg (admitted s h i) .evtSrcRoute (src.val / 256) (src.val % 256)
      (BitVec.ofNat 64 (target.val + 2 ^ 12 * kind.val + 2 ^ 14 * group.val + 2 ^ 20 * prio.val + 2 ^ 24 * boolNat en)))
      s.nextCmd 0))

/-- R398, R400, R401, R407: a doorbell that stays within the ring has its packets fetched until HEAD equals TAIL, and any other is
ignored with DOORBELL_BAD and an event; a write of CPL_HEAD lets held records be posted. A SEND of packets that fit the ring is
written there, acknowledged and consumed as by a doorbell; an immediate rings the bound queue's doorbell. R355: each is taken only
with P_Key 0xFFFF, a right invariant CRC and a supported path MTU, and one that carries CE is answered with a CNP as well. That a
doorbell of a queue that does not exist is DOORBELL_BAD too is the model's choice, log entry 43. -/
def Obligations.DoorbellRows : Prop :=
  (∀ (s : State) (q : Fin 256) (tail : BitVec 17), s.phase = .running →
    let n := (tail.toNat + 2 ^ 17 - (queue s q.val).head) % 2 ^ 17
    ((queue s q.val).valid = true → n ≤ 2 ^ (queue s q.val).ringLog2 →
      exec (.queueDoorbell q tail) s = .next (fetchAll (setQueue s q.val { queue s q.val with tail := tail.toNat }) q.val n)) ∧
    (((queue s q.val).valid = false ∨ 2 ^ (queue s q.val).ringLog2 < n) →
      exec (.queueDoorbell q tail) s = .next (raiseEvent (setFlag s .cmdStatus (4 + q.val / 128) 0 8)
        (coreSrc (4 + q.val / 128) 1)))) ∧
  (∀ (s : State) (q : Fin 256) (head : BitVec 17), s.phase = .running → (queue s q.val).valid = true →
    exec (.cplHeadWrite q head) s =
      .next (postHeld (setQueue s q.val { queue s q.val with cplHead := head.toNat }) q.val (queue s q.val).heldRecords.length)) ∧
  (∀ (s : State) (qp : Fin 1024) (f : RoceHead) (l : List (BitVec 512)) (q : Nat), takesRoce s f = true →
    (qpair s qp.val).queue = some q → l ≠ [] → l.length ≤ 64 →
    ((queue s q).tail + 2 ^ 17 - (queue s q).head) % 2 ^ 17 + l.length ≤ 2 ^ (queue s q).ringLog2 →
    let u := answerCe s qp.val f.ce
    exec (.roceSendPackets ⟨qp, f⟩ l) s = .next (ringQueue (answerRoce (placePackets u q (queue s q).tail l) qp.val .ack []) q
      (((queue s q).tail + l.length) % 2 ^ 17))) ∧
  (∀ (s : State) (qp : Fin 1024) (f : RoceHead) (imm : BitVec 32) (q : Nat), takesRoce s f = true →
    (qpair s qp.val).queue = some q → imm.toNat < 2 ^ 17 →
    exec (.roceWriteImmediateDoorbell ⟨qp, f⟩ imm) s =
      .next (ringQueue (bumpQp (answerRoce (answerCe s qp.val f.ce) qp.val .ack []) qp.val) q imm.toNat)) ∧
  (∀ (s : State) (qp : Fin 1024) (f : RoceHead) (l : List (BitVec 512)) (imm : BitVec 32), takesRoce s f = false →
    exec (.roceSendPackets ⟨qp, f⟩ l) s = .next s ∧ exec (.roceWriteImmediateDoorbell ⟨qp, f⟩ imm) s = .next s)

/-! ### Partitions, contexts and the flash (13_commands.md, 18_security_firmware.md) -/

/-- R441: the commands of the packet's queue may name a context: it is open and of their partition. -/
def mayUse (s : State) (h : Hdr) (x : Nat) : Prop :=
  (ctxOf s x).valid = true ∧ (ctxOf s x).ending = false ∧ queueWho s h.queue.val = some (ctxOf s x).partition

/-- The commands of queue `q` may access the `n` bytes from `addr` on. -/
def mayAccess (s : State) (q addr n : Nat) : Prop := accessError s (queueWho s q) (q % 4) addr n = none

/-- A read of `n` bytes from `addr` for queue `q` gives `b` without poison, and leaves the state `u`. -/
def readsAs (s : State) (q addr n : Nat) (b : List Byte) (u : State) : Prop :=
  mayAccess s q addr n ∧ readBytes s (waysOf s (queueWho s q)) addr n = (b, none, u)

/-- R566: a change is recorded: the proposal takes the lowest free entry with the next number, and its command completes
AWAITING_SECOND_KEY with that number in VALUE bits [63:32] and `low` below. -/
def recorded (u : State) (id kind low : Nat) (r : List Byte) : State :=
  complete { u with sec := { u.sec with
      proposals := placeProposal ⟨u.sec.nextProposal, kind, r, 0, u.beat.waits⟩ u.sec.proposals
      nextProposal := (u.sec.nextProposal + 1) % 2 ^ 32 } } id
    { status := .awaitingSecondKey, value := u.sec.nextProposal * 2 ^ 32 + low }

/-- R435, R436, R450: PART_CREATE of a free partition (with ALLOC the lowest) with a descriptor that passes the checks of R435 holds
the partition for its proposal; PART_DESTROY of a partition that is neither free nor being destroyed records its proposal;
PART_SLICE sets the quantum of an active partition and changes nothing else. -/
def Obligations.PartitionCommands : Prop :=
  (∀ (s : State) (h : Hdr) (p : Fin 16) (alloc : Bool) (desc : BitVec 44) (n : Nat) (b : List Byte) (u : State),
    let i := Instr.partCreate h p alloc desc
    let r := b ++ [BitVec.ofNat 8 n]
    Ready s h i .system → n < 16 → (part s n).state = .free →
    (if alloc = true then ∀ m < n, (part s m).state ≠ .free else n = p.val) →
    desc.toNat % 64 = 0 → readsAs (admitted s h i) h.queue.val desc.toNat 192 b u →
    descError u b = none → proposalError u 0 r = none →
    exec i s = .next (recorded (setPart u n ⟨.createProposed, partDescOf b, 0, b⟩) s.nextCmd 0 n r)) ∧
  (∀ (s : State) (h : Hdr) (p : Fin 16),
    let i := Instr.partDestroy h p
    let a := admitted s h i
    Ready s h i .system → (part s p.val).state ≠ .free → (part s p.val).state ≠ .destroying →
    proposalError a 1 [BitVec.ofNat 8 p.val] = none →
    exec i s = .next (recorded (setPart a p.val { part a p.val with state := .destroyProposed }) s.nextCmd 1 p.val
      [BitVec.ofNat 8 p.val])) ∧
  (∀ (s : State) (h : Hdr) (p : Fin 16) (quantum : BitVec 32), Ready s h (.partSlice h p quantum) .system →
    partActive s p.val = true →
    Completes s h (.partSlice h p quantum) (setPart s p.val { part s p.val with quantum := quantum.toNat }) { status := .ok })

/-- R440, R442, R233: CONTEXT_OPEN within the limits opens the lowest free context with no seed, no saved state and an open gate, its
audit counters cleared, and returns its number; CONTEXT_CLOSE ends the context with detail 0x2D30 without counting a kill, and
completes when the context's clusters have stopped; SET_SEED sets the context's seed and changes nothing else, and one accepted before
another that has set the seed already changes nothing. -/
def Obligations.ContextCommands : Prop :=
  (∀ (s : State) (h : Hdr) (base : BitVec 44) (prio : Fin 16) (ranks : BitVec 32) (x : Nat),
    let i := Instr.contextOpen h base prio ranks
    let p := (queue s h.queue.val).partition
    Ready s h i .partition → x < 256 → (ctxOf s x).valid = false → (∀ y < x, (ctxOf s y).valid = true) →
    (contextsOf s p).length ≤ (part s p).desc.maxContexts → 1 ≤ ranks.toNat → ranks.toNat ≤ 64 → base.toNat % 2 ^ 20 = 0 →
    inPartition s p base.toNat (ranks.toNat * 0x1100000) = true →
    exec i s = .next (succeed (clearAudit (setCtx (admitted s h i) x
      ⟨true, false, p, prio.val, base.toNat, ranks.toNat, none, 0, [], [], Gate.opened⟩) x) s.nextCmd x)) ∧
  (∀ (s : State) (h : Hdr) (x : Fin 256),
    let i := Instr.contextClose h x
    Ready s h i .partition → mayUse s h x.val →
    exec i s = .next (endContext (setWait (admitted s h i) s.nextCmd (.contextStop x.val)) x.val 0x2D30 false)) ∧
  (∀ (s : State) (x : Nat) (c : Cmd), (ctxOf s x).valid = true → (ctxOf s x).ending = true → contextQuiet s x = true →
    findCmd s c.id = some c → c.wait = .contextStop x → c.ticket ≠ 0 → s.results.length < 65536 →
    (∀ d ∈ s.cmds, d.wait = .contextStop x → d = c) →
    ctxOf (finishContext s x) x = Context.closed ∧ findCmd (finishContext s x) c.id = none ∧
    ∃ k ∈ (finishContext s x).results, k.queue = c.queue ∧ k.ticket = c.ticket ∧ k.record.status = .ok) ∧
  (∀ (s : State) (h : Hdr) (x : Fin 256) (seed : BitVec 64), Ready s h (.setSeed h x seed) .partition → mayUse s h x.val →
    (ctxOf s x.val).seedCmd ≤ s.nextCmd →
    Completes s h (.setSeed h x seed) (setCtx s x.val { ctxOf s x.val with seed := some seed, seedCmd := s.nextCmd })
      { status := .ok }) ∧
  (∀ (s : State) (x : Nat) (seed : BitVec 64) (c : Cmd), ctxError s c.queue x = none → c.id < (ctxOf s x).seedCmd →
    startSetSeed x seed s c = succeed s c.id 0)

/-- R564 to R571: TWO_KEY_PROPOSE of a window or key-slot record that passes the checks records it; a confirmation whose record
verifies under the slot's key takes the proposal's effect; one that does not verify is refused DENIED and counted, and the fourth
lapses the proposal; a proposal older than the window lapses. -/
def Obligations.TwoKeyCommands : Prop :=
  (∀ (s : State) (h : Hdr) (target : Fin 16) (change : BitVec 44) (len : BitVec 32) (r : List Byte) (u : State),
    let i := Instr.twoKeyPropose h target change len
    Ready s h i .system → rangeIsMemory (admitted s h i) change.toNat len.toNat = true →
    ((target.val = 1 ∧ len.toNat = 64 ∧ windowReserved r = false) ∨ (target.val = 2 ∧ len.toNat = 2016 ∧ slotReserved r = false)) →
    readsAs (admitted s h i) h.queue.val change.toNat len.toNat r u → proposalError u (target.val + 1) r = none →
    exec i s = .next (recorded u s.nextCmd (target.val + 1) 0 r)) ∧
  (∀ (s : State) (h : Hdr) (number : BitVec 32) (sig : BitVec 44) (p : Proposal) (r key : List Byte) (u : State),
    let i := Instr.twoKeyConfirm h number sig
    Ready s h i .system → findProposal (admitted s h i) number.toNat = some p → sig.toNat % 64 = 0 →
    rangeIsMemory (admitted s h i) sig.toNat 3328 = true → readsAs (admitted s h i) h.queue.val sig.toNat 3328 r u →
    fieldLe r 0 1 < 8 → zeroBytes r 1 15 = true → zeroBytes r 3325 3 = true → confirmKey u p (fieldLe r 0 1) = some key →
    (targetOf p.kind p.record ≠ .slot (fieldLe r 0 1) ∨ ownedBeside u (fieldLe r 0 1) = false) →
    let v := raiseEvent (fail (count u .secRefusals 4 0) s.nextCmd .denied 0x3142) (secSrc 18)
    let again := v.sec.proposals.map (fun e =>
      if e.any (fun q => q.number == p.number) then some { p with refused := p.refused + 1 } else e)
    exec i s = .next (if Config.mldsaVerify key (proposalDigest u p) (slice r 16 3309) = true then takeEffect u (newCmd s h i) p
      else if p.refused < 3 then { v with sec := { v.sec with proposals := again } }
      else lapse v p)) ∧
  (∀ (s : State) (number : BitVec 32) (p : Proposal), findProposal s number.toNat = some p →
    p.since + getBits (getReg s .secTwoKeyWindow 4 0) 0 32 ≤ s.beat.waits →
    exec (.proposalLapse number) s = .next (lapse s p) ∧ (∀ q, findProposal (lapse s p) p.number ≠ some q))

/-- R561 to R563, R573: FW_STAGE puts its image into the idle bank, which is then staged when the image is valid, and otherwise
fails with an event; FW_COMMIT proposes the staged image; a confirmed commit makes it the bank of the next boot, on trial. ATTEST
writes a signed report to its destination. -/
def Obligations.FirmwareCommands : Prop :=
  (∀ (s : State) (h : Hdr) (src : BitVec 44) (len : BitVec 32) (b : List Byte) (u : State),
    let i := Instr.fwStage h src len
    let a := admitted s h i
    Ready s h i .system → rangeIsMemory a src.toNat len.toNat = true → len.toNat ≤ 56 * 2 ^ 20 →
    (∀ p ∈ openProposals a, p.kind ≠ 4) → accessError a none (h.queue.val % 4) src.toNat len.toNat = none →
    readBytes a allWays src.toNat len.toNat = (b, none, u) →
    let bank := stagedBank b len.toNat
    let put := fun staged => { u with sec := { u.sec with banks := u.sec.banks.set (idleBank u) bank, staged := staged } }
    exec i s = .next (match bankError u bank with
      | none => succeed (put (some (idleBank u))) s.nextCmd 0
      | some e => fail (raiseEvent (put none) (secSrc 19)) s.nextCmd e.1 e.2)) ∧
  (∀ (s : State) (h : Hdr) (n : Nat),
    let i := Instr.fwCommit h
    let a := admitted s h i
    let r := (fwBank a n).digest ++ leBytes 4 (fwBank a n).version
    Ready s h i .system → s.sec.staged = some n → proposalError a 4 r = none → exec i s = .next (recorded a s.nextCmd 4 0 r)) ∧
  (∀ (s : State) (n : Nat), s.sec.staged = some n →
    (bootRecord (commitFirmware s)).active = n ∧ (bootRecord (commitFirmware s)).trial = true ∧
    (bootRecord (commitFirmware s)).previous = s.sec.bank ∧ (commitFirmware s).sec.pendingCommit = true) ∧
  (∀ (s : State) (h : Hdr) (nonce : BitVec 44) (dest : BitVec 64) (b : List Byte) (u : State),
    let i := Instr.attest h nonce dest
    Ready s h i .any → attestDestBad (admitted s h i) (newCmd s h i) dest.toNat = false →
    readsAs (admitted s h i) h.queue.val nonce.toNat 32 b u →
    exec i s = .next (deliver { u with free := u.free + 1 } (newCmd s h i) dest.toNat (reportBytes u (queueWho u h.queue.val) b)))

/-! ### Data (13_commands.md, 09_memory.md) -/

/-- R280, R313: how a data command completes: OK, or POISONED with the detail of its first access that was answered so. -/
def dataEnd (s : State) (id : Nat) (poison : Option Nat) : State :=
  match poison with
  | none => succeed s id 0
  | some d => fail s id .poisoned d

/-- R411, R412: COPY of areas that do not overlap and FILL, where the issuer may access them: the source's bytes, and the pattern
repeated, are written to the destination through the homes, and the command completes OK. R412: GATHER_SECTORS reads its list and
moves the sectors that the list names to consecutive places; SCATTER_SECTORS moves consecutive sectors to those places, or reduces
them into them. R280, R313: each completes POISONED when it has met poison or a line that a failed agent owned, with the detail of
the first. -/
def Obligations.DataMoves : Prop :=
  (∀ (s : State) (h : Hdr) (src dst : BitVec 44) (len : BitVec 40),
    let i := Instr.copy h src dst len
    let a := admitted s h i
    let ways := waysOf a (queueWho a h.queue.val)
    let r := readRange a ways src.toNat len.toNat
    Ready s h i .any → len.toNat % 32 = 0 → mayAccess a h.queue.val src.toNat len.toNat → mayAccess a h.queue.val dst.toNat len.toNat →
    (src.toNat = dst.toNat ∨ src.toNat + len.toNat ≤ dst.toNat ∨ dst.toNat + len.toNat ≤ src.toNat) →
    let t := copyPieces ways src.toNat dst.toNat ((firstPoison r.1).map (poisonDetail r.2)) r.1 r.2
    exec i s = .next (dataEnd t.2 s.nextCmd t.1)) ∧
  (∀ (s : State) (h : Hdr) (dst : BitVec 44) (len : BitVec 40) (pattern : BitVec 64),
    let i := Instr.fill h dst len pattern
    let a := admitted s h i
    Ready s h i .any → len.toNat % 32 = 0 → mayAccess a h.queue.val dst.toNat len.toNat →
    let w := putRange a (waysOf a (queueWho a h.queue.val)) dst.toNat
      (List.replicate (len.toNat / 8) (leBytes 8 pattern.toNat)).flatten
    exec i s = .next (dataEnd w.2 s.nextCmd w.1)) ∧
  (∀ (s : State) (h : Hdr) (list dst : BitVec 44) (n : BitVec 32) (b : List Byte) (u : State),
    let i := Instr.gatherSectors h list dst n
    let es := listEntries n.toNat b
    Ready s h i .any → readsAs (admitted s h i) h.queue.val list.toNat (8 * n.toNat) b u → entriesAligned es = true →
    mayAccess u h.queue.val dst.toNat (32 * n.toNat) → (∀ x ∈ entryAreas es, mayAccess u h.queue.val x.1 x.2) →
    let g := gatherEntries (waysOf u (queueWho u h.queue.val)) dst.toNat none es u
    exec i s = .next (dataEnd g.2 s.nextCmd g.1)) ∧
  (∀ (s : State) (h : Hdr) (list src : BitVec 44) (n : BitVec 32) (acc : Bool) (aop : Fin 16) (size : Bool) (b : List Byte) (u : State),
    let i := Instr.scatterSectors h list src n acc aop size
    let es := listEntries n.toNat b
    let o : Option Accumulate := if acc then some ⟨aop.val, if size then 8 else 4⟩ else none
    Ready s h i .any → readsAs (admitted s h i) h.queue.val list.toNat (8 * n.toNat) b u → entriesAligned es = true →
    mayAccess u h.queue.val src.toNat (32 * n.toNat) → (∀ x ∈ entryAreas es, mayAccess u h.queue.val x.1 x.2) →
    (acc = true → reduceOk aop.val size = true ∧ ∀ e ∈ es, e ≠ 2 ^ 64 - 1 → isMemory u e = true) →
    let g := scatterEntries (waysOf u (queueWho u h.queue.val)) o src.toNat none es u
    exec i s = .next (dataEnd g.2 s.nextCmd g.1))

/-- R413, R421 to R423: what a REMOTE_WRITE reads without poison is sent on its path or queue pair, and the command waits for the
acknowledgement; when there is nothing to send it completes at once. A REMOTE_READ records what it awaits and sends its request.
`transferError` says that the other package is routable and that the path has its entry or room for one; the space code of a global
address is none of the reserved ones (R350). -/
def Obligations.RemoteTransfers : Prop :=
  (∀ (s : State) (h : Hdr) (src : BitVec 44) (dst : BitVec 64) (len : BitVec 32) (path : BitVec 12) (kind : Bool) (rkey : BitVec 32),
    let i := Instr.remoteWrite h src dst len path kind rkey
    let a := admitted s h i
    let r := readRange a (waysOf a (queueWho a h.queue.val)) src.toNat len.toNat
    let parts := goodRuns src.toNat r.1
    let p := (firstPoison r.1).map (poisonDetail r.2)
    Ready s h i .any → len.toNat % 32 = 0 → path.toNat < 0xFFC → (kind = true → path.toNat < 1024) →
    (kind = false → dst.toNat / 2 ^ 44 % 16 < 2) → mayAccess a h.queue.val src.toNat len.toNat →
    (kind = false → transferError a (dst.toNat / 2 ^ 48) path.toNat = none) →
    (parts = [] → exec i s = .next (dataEnd r.2 s.nextCmd p)) ∧
    (parts ≠ [] →
      let t := setWait r.2 s.nextCmd (.remoteWrite (if kind then 2 else 1) path.toNat p)
      exec i s = .next (if kind then sendRoceParts t path.toNat dst.toNat rkey.toNat s.nextCmd parts
        else sendParts t (dst.toNat / 2 ^ 48) path.toNat dst.toNat s.nextCmd parts))) ∧
  (∀ (s : State) (h : Hdr) (src : BitVec 64) (dst : BitVec 44) (len : BitVec 25) (path : BitVec 12) (kind : Bool) (rkey : BitVec 32),
    let i := Instr.remoteRead h src dst len path kind rkey
    let a := admitted s h i
    Ready s h i .any → len.toNat ≤ 2 ^ 24 → (kind = false → len.toNat ≠ 0 ∧ len.toNat % 32 = 0) →
    path.toNat < 0xFFC → (kind = true → path.toNat < 1024) → (kind = false → src.toNat / 2 ^ 44 % 16 < 2) →
    mayAccess a h.queue.val dst.toNat len.toNat →
    (kind = false → transferError a (src.toNat / 2 ^ 48) path.toNat = none) →
    ∃ t r, exec i s = .next t ∧ t.reads = s.reads ++ [r] ∧ r.cmd = s.nextCmd ∧ r.base = dst.toNat ∧ r.len = len.toNat ∧
      r.who = queueWho s h.queue.val ∧
      r.path = (if kind then 4096 + path.toNat else path.toNat) ∧
      findCmd t s.nextCmd = some { newCmd s h i with wait := .remoteRead })

/-- R285, R286, R288, R289: PLACE with RETIRE retires the 4 KiB unit and drops its cellar lines without writing them back; PLACE with HOME
of a GiB unit of the capacity tier takes the lines that change their home from the agents that hold them (R298; how, the model's choice,
log entry 77), writes the unit's lines back and sets its home. -/
def Obligations.PlaceCommands : Prop :=
  (∀ (s : State) (h : Hdr) (addr : BitVec 44),
    let i := Instr.placeRetire h addr
    let a := admitted s h i
    let unit := addr.toNat / 4096
    let k := if inHbm addr.toNat then hbmTile addr.toNat else 4
    let tab := mapGet (fun _ => []) s.retired k
    Ready s h i .any → isMemory a addr.toNat = true →
    (h.queue.val = 0 ∨ inPartition s (queue s h.queue.val).partition (4096 * unit) 4096 = true) →
    (unit ∈ tab → Completes s h i s { status := .ok }) ∧
    (unit ∉ tab → tab.length < 256 →
      let t : State := { a with
        cellar := a.cellar.filter (fun e => e.1 / 32 != unit)
        retired := mapSet (fun _ => []) a.retired k (tab ++ [unit]) }
      exec i s = .next (succeed t s.nextCmd 0) ∧ ∀ x, x / 4096 = unit → isRetired t x = true) ∧
    (unit ∉ tab → 256 ≤ tab.length → exec i s = .next (fail a s.nextCmd .limitReached 0x2791))) ∧
  (∀ (s : State) (h : Hdr) (addr : BitVec 44) (tile : Fin 4) (fixed : Bool),
    let i := Instr.placeHome h addr tile fixed
    let a := admitted s h i
    let gib := addr.toNat / 2 ^ 30
    Ready s h i .any → inCap addr.toNat = true → capPresent a = true →
    (h.queue.val = 0 ∨ inPartition s (queue s h.queue.val).partition (gib * 2 ^ 30) (2 ^ 30) = true) →
    exec i s = .next (succeed (setReg (flushLines (recallRegion a gib tile.val fixed) (fun l => 128 * l / 2 ^ 30 == gib))
      .capHome 4 (gib - 0x1000) (BitVec.ofNat 64 (tile.val + 4 * boolNat fixed))) s.nextCmd 0))

/-! ### Programs and audits (13_commands.md, 06_cluster_sequencer.md, 17_events_audit.md) -/

/-- R190, R414: LOAD_PROGRAM of an image that passes the checks, within the partition's limits, writes it to the program area and
returns a handle that none of the partition's programs has; a write that its home answers POISONED ends it so (R313, R457). That the
image lies right after those already in the area, and which handle is taken, are the model's choice, log entries 44, 34 and 83. R192,
R225, R444: a RUN or RUN_STEP of a program of its context whose slices fit starts a run with the 16 scalars read at its SCALARS, none of
whose slices has run; the command waits for it. R226, R240: a CASK_FLUSH promotes the cask slices of its context's runs and completes
when those that were unstarted or running have completed; a ROUTE_TABLE_WRITE within its partition's entries, with no run of the
partition in progress, applies its entries and configuration block as one. -/
def Obligations.ProgramCommands : Prop :=
  (∀ (s : State) (h : Hdr) (src : BitVec 44) (len : BitVec 32) (b : List Byte) (u : State),
    let i := Instr.loadProgram h src len
    let p := (queue s h.queue.val).partition
    let used := (programsOf s p).foldl (fun n g => n + g.len) 0
    Ready s h i .partition → readsAs (admitted s h i) h.queue.val src.toNat (min len.toNat 0x10000000) b u →
    imageError b len.toNat = none → (programsOf s p).length < 256 → used + b.length ≤ (part s p).desc.progLen →
    let w := putRange u (waysOf u (some p)) ((part s p).desc.progBase + used) b
    (∀ e, w.1 = some e → exec i s = .next (fail w.2 s.nextCmd .poisoned e)) ∧
    (w.1 = none → ∃ (hd : Nat) (g : Program), hd < 65536 ∧ (∀ q ∈ programsOf s p, q.handle ≠ hd) ∧
      g.partition = p ∧ g.handle = hd ∧ g.base = (part s p).desc.progBase + used ∧ g.len = b.length ∧
      g.code = imageCode b (imageHdr b) ∧
      exec i s = .next (succeed { w.2 with free := w.2.free + 1, programs := w.2.programs ++ [g] } s.nextCmd hd))) ∧
  (∀ (s : State) (h : Hdr) (x : Fin 256) (program : BitVec 16) (scalars : BitVec 44) (step : BitVec 48) (gate : Bool)
    (b : List Byte) (u : State) (g : Program), mayUse s h x.val → scalars.toNat % 128 = 0 →
    (∀ d ∈ g.slices, d.clusters ≤ (ctxOf s x.val).saveRanks ∧
      d.clusters ≤ popCount (part s (ctxOf s x.val).partition).desc.clusters 64) →
    findProgram s (ctxOf s x.val).partition program.toNat = some g →
    (let i := Instr.run h x program scalars
     Ready s h i .partition → readsAs (admitted s h i) h.queue.val scalars.toNat 128 b u →
     exec i s = .next (openRun u (newCmd s h i) x.val program.toNat ((listEntries 16 b).map (BitVec.ofNat 64)) 0 false)) ∧
    (let i := Instr.runStep h x program scalars step gate
     Ready s h i .partition → readsAs (admitted s h i) h.queue.val scalars.toNat 128 b u →
     exec i s =
       .next (openRun u (newCmd s h i) x.val program.toNat ((listEntries 16 b).map (BitVec.ofNat 64)) step.toNat gate))) ∧
  (∀ (s : State) (h : Hdr) (x : Fin 256),
    let i := Instr.caskFlush h x
    let a := admitted s h i
    let l := flushSlices a x.val
    let t := setWait (a.runs.foldl (flushRun x.val) a) s.nextCmd (.caskFlush l)
    Ready s h i .partition → mayUse s h x.val →
    exec i s = .next (if flushed t l then succeed t s.nextCmd 0 else t)) ∧
  (∀ (s : State) (h : Hdr) (first : BitVec 16) (n : BitVec 17) (src cfg : BitVec 44) (clear : Bool) (l b : List Byte) (u v : State),
    let i := Instr.routeTableWrite h first n src cfg clear
    let a := setWait (admitted s h i) s.nextCmd .routeWrite
    let p := (queue s h.queue.val).partition
    let es := listEntries n.toNat l
    let base := getBits (getReg v .expPartTable 0 p) 0 16 + first.toNat
    Ready s h i .partition → n.toNat ≤ 65536 → cfg.toNat % 64 = 0 → (∀ r ∈ s.runs, r.partition ≠ p) →
    first.toNat + n.toNat ≤ getBits (getReg a .expPartTable 0 p) 16 17 →
    readsAs a h.queue.val src.toNat (8 * n.toNat) l u →
    (if cfg.toNat = 0 then v = u else readsAs u h.queue.val cfg.toNat 48 b v ∧ cfgBad b = false) →
    (∀ e ∈ es, e / 2 ^ 47 % 2 ^ 16 = 0) →
    let t := (es.mapIdx (fun k e => (base + k, e))).foldl (putRoute clear) v
    exec i s = .next (succeed (if cfg.toNat = 0 then t
      else (List.range 5).foldl (putCfg p b) (setReg t .expPartShape 0 p (BitVec.ofNat 64 (fieldLe b 0 8)))) s.nextCmd 0))

/-- R545, R551, R149: AUDIT_ARM and its DISARM, with no gated step of the context in flight, set the gate (a WARMUP of 0 is 100
steps) and forget its mean; AUDIT_READ writes the context's 64-byte record; TALLY_READ writes a slot's 264-byte record and, with
CLEAR, clears the slot. R486, R487: a BUDGET_SET in range is held for the next ledger close, which completes it; LEDGER_READ
writes the ledger's record as it stands once the energy measured since it was last taken, a free value (log entry 5), has been
taken (R474, R478). -/
def Obligations.AuditAndBudget : Prop :=
  (∀ (s : State) (h : Hdr) (x : Fin 256) (warmup spike : BitVec 32) (loss : BitVec 44) (i : Instr) (armed : Bool),
    (i = .auditArm h x warmup spike loss ∧ armed = true) ∨ (i = .auditDisarm h x warmup spike loss ∧ armed = false) →
    Ready s h i .partition → mayUse s h x.val → warmup.toNat ≤ 65535 → spikeOk spike = true →
    (loss = 0 ∨ (loss.toNat % 64 = 0 ∧ inPartition s (ctxOf s x.val).partition loss.toNat 64 = true)) →
    (∀ d ∈ s.cmds, gatedCtx d.instr ≠ some x.val) →
    Completes s h i (setCtx s x.val { ctxOf s x.val with gate := { (ctxOf s x.val).gate with
        armed := armed, warmup := if warmup.toNat = 0 then 100 else warmup.toNat, spike := spike, lossAddr := loss.toNat
        mean := none, seen := 0 } }) { status := .ok }) ∧
  (∀ (s : State) (h : Hdr) (x : Fin 256) (dest : BitVec 64) (d : Nat),
    let i := Instr.auditRead h x dest
    let a := admitted s h i
    Ready s h i .partition → mayUse s h x.val → destOf a h.queue.val dest.toNat = .local_ d → d % 64 = 0 →
    inPartition s (ctxOf s x.val).partition d 64 = true →
    (auditBytes a x.val).length = 64 ∧ exec i s = .next (deliver a (newCmd s h i) dest.toNat (auditBytes a x.val))) ∧
  (∀ (s : State) (h : Hdr) (slot : Fin 64) (clear : Bool) (dest : BitVec 64),
    let i := Instr.tallyRead h slot clear dest
    let a := admitted s h i
    Ready s h i .partition → ownsTally a (queue s h.queue.val).partition slot.val = true →
    destDenied a (newCmd s h i) dest.toNat 264 = false →
    (tallyBytes a slot.val).length = 264 ∧
    exec i s = .next (deliver (if clear then clearTally slot.val a else a) (newCmd s h i) dest.toNat (tallyBytes a slot.val))) ∧
  (∀ (s : State) (h : Hdr) (p : Fin 16) (credits : BitVec 32),
    let i := Instr.budgetSet h p credits
    let a := admitted s h i
    Ready s h i .any → (h.queue.val = 0 ∨ (queue s h.queue.val).partition = p.val) →
    (credits.toNat ≤ 4352 ∨ credits.toNat = 0xFFFFFFFF) → partActive s p.val = true →
    exec i s = .next (setWait { a with power := { a.power with nextSets := a.power.nextSets ++
      [(p.val, if credits.toNat = 0xFFFFFFFF then none else some credits.toNat)] } } s.nextCmd .ledgerClose)) ∧
  (∀ (s : State) (h : Hdr) (p : Fin 16) (credits : BitVec 32),
    let i := Instr.budgetSetModule h p credits
    let a := admitted s h i
    Ready s h i .any → h.queue.val = 0 → 1536 ≤ credits.toNat → credits.toNat ≤ 4352 →
    exec i s = .next (setWait { a with power := { a.power with nextProgrammed := some credits.toNat } } s.nextCmd .ledgerClose)) ∧
  (∀ (s : State) (h : Hdr) (dest : BitVec 64),
    let i := Instr.ledgerRead h dest
    let a := sampleEnergy (admitted s h i)
    Ready s h i .any →
    exec i s = .next (deliver a (newCmd s h i) dest.toNat (ledgerBytes a (queueWho a h.queue.val))))

/-! ### Clearing (12_clearing.md) -/

/-- R613: the commands of the packet's queue may name bucket `b` of the open job `j`. -/
def mayClear (s : State) (h : Hdr) (j : ClrJob) (b : Nat) : Prop :=
  findJob s j.id = some j ∧ queueWho s h.queue.val = some j.partition ∧ b < j.buckets.length

/-- R358 to R361: a JOB_OPEN that passes the checks opens the job (with ALLOC under the lowest free ID) with the buckets of its
table at FIRST_STEP, zeroes their reserves unless KEEP_RESERVE is set, and returns the ID and JOB_SIG. R362: JOB_CLOSE of a job
with no step in flight releases it and completes; with steps in flight it waits, and with FORCE it ends them. A released job is
open no longer. -/
def Obligations.JobCommands : Prop :=
  (∀ (s : State) (h : Hdr) (p : JobParams) (id : Nat) (b : List Byte) (u : State),
    let i := Instr.jobOpen h p
    let a := admitted s h i
    let part' := (queue s h.queue.val).partition
    let j := newJob u p part' id b
    Ready s h i .partition → jobBad p = none → mayUse s h p.ctx.val → jobParamsOk p = true → p.bucketTable.toNat % 64 = 0 →
    inPartition s part' p.bucketTable.toNat (64 * (p.buckets.val + 1)) = true →
    readBytes a (waysOf a (some part')) p.bucketTable.toNat (64 * (p.buckets.val + 1)) = (b, none, u) →
    (if p.alloc then id < 4096 ∧ findJob s id = none ∧ ∀ k < id, findJob s k ≠ none else id = p.jobId.val) →
    jobOpenError u p part' b j = none →
    let t := if p.keepReserve then u else zeroReserves u (waysOf u (some part')) j.buckets
    exec i s = .next (succeed { t with clr := t.clr ++ [j] } s.nextCmd (id + 2 ^ 32 * j.sig)) ∧
    (∀ k ∈ j.buckets, k.nextStep = p.firstStep.toNat ∧ k.gather = p.firstStep.toNat ∧ k.state = .idle ∧ k.parSet = false)) ∧
  (∀ (s : State) (h : Hdr) (job : Fin 4096) (j : ClrJob), j.id = job.val → mayClear s h j 0 →
    (let i := Instr.jobClose h job
     let t := setWait (admitted s h i) s.nextCmd (.jobClose job.val)
     Ready s h i .partition →
      (jobIdle j = true → exec i s = .next (releaseJob t job.val)) ∧ (jobIdle j = false → exec i s = .next t)) ∧
    (let i := Instr.jobCloseForce h job
     Ready s h i .partition → exec i s = .next (succeed (forceJob (admitted s h i) job.val) s.nextCmd 0)) ∧
    (∀ t : State, findJob (releaseJob t job.val) job.val = none ∧ findJob (forceJob t job.val) job.val = none))

/-- R366, R367, R605: a contribution to the step of an idle bucket is taken: the member encodes, or first probes for par codes; a step
that is not the bucket's next, or a bucket with a step in progress, refuses it BAD_SEQUENCE, a bucket that failed PEER_LOST. R387: in
replay mode its record is read first, and it is refused BAD_PARAM, the step failing, when that does not pass. R352: one
whose packets the axis map leaves without a way to a tree neighbour is refused NO_RESOURCE (at the contribution: the model's choice,
log entry 49). -/
def Obligations.ContributeOutcome : Prop :=
  ∀ (s : State) (h : Hdr) (job : Fin 65536) (bucket x : Fin 256) (step : BitVec 48) (due : BitVec 64) (weight : BitVec 32) (j : ClrJob),
    let i := Instr.bucketContribute h job bucket x step due weight
    let a := admitted s h i
    let c := newCmd s h i
    let k := bucketOf j bucket.val
    Ready s h i .partition → mayUse s h x.val → j.id = job.val → mayClear s h j bucket.val → k.spent = false →
    ((k.state = .probe ∨ k.state = .wait) → exec i s = .next (fail a s.nextCmd .badSequence 0x2B0A)) ∧
    (k.state ≠ .probe → k.state ≠ .wait → step.toNat ≠ k.nextStep → exec i s = .next (fail a s.nextCmd .badSequence 0x2B06)) ∧
    (k.state = .idle → step.toNat = k.nextStep → (j.mode = 0 → k.parSet = true → s.beat.synced = true) →
      nearUnroutable a j (treeOf a j bucket.val) = true → exec i s = .next (fail a s.nextCmd .noResource 0x2A02)) ∧
    (k.state = .idle → step.toNat = k.nextStep → (j.mode = 0 → k.parSet = true → s.beat.synced = true) →
      nearUnroutable a j (treeOf a j bucket.val) = false →
      let rep := if j.mode = 2 then replayRecord a j bucket.val step.toNat else (none, a)
      (j.mode = 2 → rep.1 = none →
        exec i s = .next (fail (failStep rep.2 j bucket.val step.toNat 0 none) s.nextCmd .badParam 0x2B09)) ∧
      ((j.mode = 2 → rep.1 ≠ none) →
      let own : ClrOwn :=
        { cmd := s.nextCmd, due := due.toNat, dueAt := if due.toNat ≤ s.beat.count then some s.beat.waits else none
          weight := weight.toNat, seed := c.seed.getD 0, probe := !k.parSet
          maxima := if k.parSet then [] else (ownMaxima rep.2 j k).1, probed := false, blocks := none, poison := none, replay := rep.1 }
      let u := if k.parSet then rep.2 else (ownMaxima rep.2 j k).2
      let t := modBucket (setWait u s.nextCmd (.contribute job.val bucket.val step.toNat)) job.val bucket.val (fun v =>
        let n := nodeOf v step.toNat
        { setNode v { n with due := n.due <|> some due.toNat } with own := some own, state := if k.parSet then .wait else .probe })
      exec i s = .next (if k.parSet then encodeOwn t ((findJob t job.val).getD j) bucket.val else tryProbe t job.val bucket.val))) ∧
    (k.state = .excluded → step.toNat = k.nextStep → (j.mode = 0 → k.parSet = true → s.beat.synced = true) →
      exec i s = .next (contributeExcluded a j bucket.val c)) ∧
    (k.state = .failed → step.toNat = k.nextStep → (j.mode = 0 → k.parSet = true → s.beat.synced = true) →
      exec i s = .next (fail a s.nextCmd .peerLost 0x2B12))

/-- R383, R379: ROLL_READ of a step that has ended here writes the roll kept for it, NOT_READY before, BAD_PARAM when the ring
holds it no longer; PAR_SET of a bucket with no step in flight sets its par codes, and waits while one is. R388, R614: a
RESERVE_FLUSH of buckets with no step in flight: ZERO writes +0 to the named reserves, SAVE copies them to the buffer and zeroes
them, LOAD copies them from the buffer, one bucket after the other in ascending order. -/
def Obligations.JobData : Prop :=
  (∀ (s : State) (h : Hdr) (job : Fin 65536) (bucket : Fin 256) (step : BitVec 48) (dest : BitVec 64) (j : ClrJob)
      (b : List Byte) (u : State),
    let i := Instr.rollRead h job bucket step dest
    let a := admitted s h i
    let k := bucketOf j bucket.val
    Ready s h i .partition → j.id = job.val → mayClear s h j bucket.val → j.firstStep ≤ step.toNat →
    (k.nextStep ≤ step.toNat → k.spent = false → exec i s = .next (fail a s.nextCmd .notReady 0)) ∧
    (step.toNat < k.nextStep →
      readBytes a (waysOf a (some j.partition)) (j.rollRing + 576 * rollSlot j bucket.val step.toNat)
        (64 + ((treeOf a j bucket.val).g + 255) / 256 * 32) = (b, none, u) →
      let mine := fieldLe b 4 2 % 4096 = job.val ∧ fieldLe b 6 1 = bucket.val ∧ fieldLe b 8 6 = step.toNat
      (mine → exec i s = .next (deliver u (newCmd s h i) dest.toNat b)) ∧
      (¬ mine → exec i s = .next (fail u s.nextCmd .badParam 0x2B08)))) ∧
  (∀ (s : State) (h : Hdr) (job : Fin 65536) (bucket : Fin 256) (src : BitVec 44) (j : ClrJob) (b : List Byte) (u : State),
    let i := Instr.parSet h job bucket src
    let a := setWait (admitted s h i) s.nextCmd .parSet
    let k := bucketOf j bucket.val
    Ready s h i .partition → j.id = job.val → mayClear s h j bucket.val →
    (bucketBusy k = true → exec i s = .next a) ∧
    (bucketBusy k = false → readsAs a h.queue.val src.toNat k.blocks b u → (∀ x ∈ b, x ≠ 0xFF) →
      exec i s = .next (succeed (modBucket (writePar u j bucket.val 0 (b.map (·.toNat))) job.val bucket.val
        (fun k => { k with parSet := true })) s.nextCmd 0))) ∧
  (∀ (s : State) (h : Hdr) (job : Fin 65536) (buckets : BitVec 256) (buffer : BitVec 44) (j : ClrJob),
    let bs := bitsSet buckets.toNat 256
    j.id = job.val → findJob s j.id = some j → queueWho s h.queue.val = some j.partition → j.buckets ≠ [] →
    (∀ b ∈ bs, b < j.buckets.length ∧ bucketBusy (bucketOf j b) = false) →
    (let i := Instr.reserveFlushZero h job buckets buffer
     let a := setWait (admitted s h i) s.nextCmd .reserveFlush
     Ready s h i .partition →
      exec i s = .next (succeed (zeroReserves a (waysOf a (some j.partition)) (bs.map (bucketOf j))) s.nextCmd 0)) ∧
    (let i := Instr.reserveFlushSave h job buckets buffer
     Ready s h i .partition → flushBufferOk s j buckets.toNat buffer.toNat = true →
      exec i s = .next (flushSave (setWait (admitted s h i) s.nextCmd .reserveFlush) j (newCmd s h i)
        (flushPlaces j buffer.toNat bs).1)) ∧
    (let i := Instr.reserveFlushLoad h job buckets buffer
     Ready s h i .partition → flushBufferOk s j buckets.toNat buffer.toNat = true →
      exec i s = .next (flushLoad (setWait (admitted s h i) s.nextCmd .reserveFlush) j (newCmd s h i)
        (flushPlaces j buffer.toNat bs).1)) ∧
    (∀ (t : State) (c : Cmd) (b at_ : Nat) (l : List (Nat × Nat)) (x : List Byte) (u : State),
      let k := bucketOf j b
      let ways := fun (v : State) => waysOf v (some j.partition)
      (readsAs t c.queue k.reserve (4 * k.elements) x u →
        flushSave t j c ((b, at_) :: l) = flushSave (writeRange (writeRange u (ways u) at_ x) (ways u) k.reserve
          (List.replicate (4 * k.elements) 0)) j c l) ∧
      (readsAs t c.queue at_ (4 * k.elements) x u →
        flushLoad t j c ((b, at_) :: l) = flushLoad (writeRange u (ways u) k.reserve x) j c l) ∧
      flushSave t j c [] = succeed t c.id 0 ∧ flushLoad t j c [] = succeed t c.id 0))

/-- R374, R376, R378: clearing's values. A node's partial of a block is each element's exact sum rounded once to FP32; the root's result
is that sum over the divisor rounded once, and +0 when there is none; a par code never becomes the reserved 0xFF; a close combines
the weights, counts and member sets of its contributions. -/
def Obligations.ClearingValues : Prop :=
  (∀ (parts : List ClrPart) (n e : Nat) (vals : List F32), e < 256 → (combineBlock parts n).1.values = .node vals → vals ≠ [] →
    vals.length = 256 ∧ vals[e]? = some (BitVec.ofNat 32 (groupStep layFp32 .rne 0
      ((parts.filterMap (fun p => p.blocks.find? (fun b => b.index == n))).map (fun b => blockValue b e))))) ∧
  (∀ (d : Nat), divideSum extZero d = 0) ∧
  (∀ (neg : Bool) (n m d : Nat), divideSum (.fin neg n m) d = rndFp32 (.fin neg n (m * d))) ∧
  (∀ (j : ClrJob) (cur divisor e : Nat) (b : ClrBlock), e < 256 → j.bf16 = false →
    slice (resultBlock j true divisor cur b).1.data (4 * e) 4 = [0, 0, 0, 0]) ∧
  (∀ (amax : F32) (cur : Nat), cur ≤ 254 → nextPar amax cur ≤ 254) ∧
  (∀ (parts : List ClrPart) (due : Nat),
    (combineClose due parts).weight = (parts.map (·.close.weight)).sum ∧
    (combineClose due parts).present = (parts.map (·.close.present)).sum ∧
    ∀ k, (combineClose due parts).bitmap.testBit k = parts.any (fun p => p.close.bitmap.testBit k))

/-- R372: a clearing packet is counted as discarded when its checksum or form is wrong, and reported as of a bad job when no open job
has its signature or its sender is no neighbour that its kind may come from; one that fits is acted on. -/
def Obligations.ClearPacketDispatch : Prop :=
  ∀ (s : State) (tile : Nat) (payload : List Byte),
    (parseClr payload = none → consumeClear s tile payload = count s .clrDiscards tile 0) ∧
    (∀ x, parseClr payload = some x →
      let bad := raiseEvent (setFlag (count s .clrBadJob (x.job % 4) 0) .clrStatus (x.job % 4) 0 15) (tileSrc (x.job % 4) 28)
      (findJob s x.job = none → consumeClear s tile payload = bad) ∧
      (∀ j, findJob s x.job = some j → x.sig ≠ j.sig → consumeClear s tile payload = bad) ∧
      (∀ j, findJob s x.job = some j → x.sig = j.sig → x.bucket < j.buckets.length →
        (senderFits j (treeOf s j x.bucket) x = false → consumeClear s tile payload = bad) ∧
        (senderFits j (treeOf s j x.bucket) x = true → consumeClear s tile payload = actClr s j (treeOf s j x.bucket) x)))

/-- R380, R381, R367: a close beat that is there closes its node's gathering step in beat mode, unless the beat is lost, and whether or
not the member has failed (the model's choice, log entry 22); a roll that has not come by the broadcast limit fails the bucket, completes
its contribution PEER_LOST and raises an event. R384: a strict step has no close beat and no broadcast limit: neither changes it. -/
def Obligations.ClearingTimers : Prop :=
  (∀ (s : State) (job : Fin 4096) (bucket : Fin 256) (step : BitVec 48) (j : ClrJob) (due : Nat),
    let t := treeOf s j bucket.val
    let k := bucketOf j bucket.val
    findJob s job.val = some j → bucket.val < j.buckets.length → (nodeOf k k.gather).due = some due → strictStep j k = false →
    k.gather = step.toNat → t.children ≠ [] → due ≤ s.beat.count + t.depth * j.hop →
    (s.beat.lost = false → exec (.closeBeat job bucket step) s = .next (closeNode s j bucket.val)) ∧
    (s.beat.lost = true → exec (.closeBeat job bucket step) s = .next s)) ∧
  (∀ (s : State) (job : Fin 4096) (bucket : Fin 256) (j : ClrJob) (o : ClrOwn) (since : Nat),
    let k := bucketOf j bucket.val
    findJob s job.val = some j → k.own = some o → o.dueAt = some since → k.state = .wait → strictStep j k = false →
    since + (getReg s .clrBcastLimit (jobTile j) 0).toNat ≤ s.beat.waits →
    exec (.bcastLimitExpire job bucket) s = .next (fail (raiseEvent (setFlag (modBucket s j.id bucket.val (fun k => { k with
      state := .failed, own := none, down := [] })) .clrStatus (jobTile j) 0 13) (clrSrc j)) o.cmd .peerLost 0x2B12)) ∧
  (∀ (s : State) (job : Fin 4096) (bucket : Fin 256) (step : BitVec 48) (j : ClrJob),
    findJob s job.val = some j → strictStep j (bucketOf j bucket.val) = true →
    exec (.closeBeat job bucket step) s = .next s ∧ exec (.bcastLimitExpire job bucket) s = .next s ∧
    closeBeatOf s j bucket.val = none)

/-! ### Ingest (16_ingest_video.md) -/

/-- R501, R529: the commands of the packet's queue may name the open stream `x`. -/
def mayStream (s : State) (h : Hdr) (id : Nat) (x : MilStream) : Prop :=
  findStream s id = some x ∧ queueWho s h.queue.val = some x.partition ∧ x.closing = false

/-- R499 to R501, R523: STREAM_OPEN and ENCODE_OPEN that pass the checks open the lowest free entry of the mill, take the pages
that R497 gives from its pool, and return the stream's ID. R501 to R505, R510, R513, R529: a STREAM_FEED in the partition's memory
joins its stream's feeds with its capture stamp, and waits; a BATCH_DEFINE arms a fill of its batch; a STREAM_CLOSE of a stream
without feeds frees it, and one with feeds marks it closing. -/
def Obligations.StreamCommands : Prop :=
  (∀ (s : State) (h : Hdr) (p : StreamParams) (n : Nat),
    let i := Instr.streamOpen h p
    let a := admitted s h i
    let part' := (queue s h.queue.val).partition
    let id := 128 * p.tile.val + n
    let pages := streamPages (if p.codec.val = 0 then 9 else 17) p.maxW.toNat p.maxH.toNat
    Ready s h i .partition → mayUse s h p.ctx.val → millPresent s = true → streamFieldsOk p = true →
    batchTakes s part' p.batch.toNat p.maxW.toNat p.maxH.toNat = true →
    n < 128 → findStream s id = none → (∀ m < n, findStream s (128 * p.tile.val + m) ≠ none) →
    pagesUsed s p.tile.val + pages ≤ poolPages a p.tile.val →
    ∃ x : MilStream, x.encode = false ∧ x.codec = p.codec.val ∧ x.partition = part' ∧ x.ctx = p.ctx.val ∧ x.batch = p.batch.toNat ∧
      x.pages = pages ∧ x.maxW = p.maxW.toNat ∧ x.maxH = p.maxH.toNat ∧ x.stale = p.stale.toNat ∧ x.feeds = [] ∧ x.closing = false ∧
      x.live = p.live ∧ x.priority = p.priority.toNat ∧ x.access = false ∧ x.fed = [] ∧
      exec i s = .next (succeed (setStreamEntry a id (some x)) s.nextCmd id)) ∧
  (∀ (s : State) (h : Hdr) (p : EncodeParams) (n : Nat) (b : List Byte) (u : State),
    let i := Instr.encodeOpen h p
    let a := admitted s h i
    let part' := (queue s h.queue.val).partition
    let id := 128 * p.tile.val + n
    let pages := streamPages 2 p.w.toNat p.h.toNat
    Ready s h i .partition → mayUse s h p.ctx.val → millPresent s = true → encodeFieldsOk p = true →
    ringElsewhere s part' p.outRing.toNat = false → p.outRing.toNat % 64 = 0 → inPartition s part' p.outRing.toNat 64 = true →
    readBytes a (waysOf a (some part')) p.outRing.toNat 64 = (b, none, u) → encodeRingOk b none = true →
    n < 128 → findStream s id = none → (∀ m < n, findStream s (128 * p.tile.val + m) ≠ none) →
    ((millStreams s p.tile.val).filter (fun x => x.2.encode)).length < 16 →
    pagesUsed s p.tile.val + pages ≤ poolPages u p.tile.val →
    ∃ x : MilStream, x.encode = true ∧ x.codec = boolNat p.hevc ∧ x.partition = part' ∧ x.ctx = p.ctx.val ∧ x.pages = pages ∧
      x.maxW = p.w.toNat ∧ x.maxH = p.h.toNat ∧ x.initQp = p.initQp.toNat ∧ x.rate = p.rate.toNat ∧ x.outRing = p.outRing.toNat ∧
      x.feeds = [] ∧ x.closing = false ∧ x.pictures = 0 ∧ x.coded = [] ∧
      exec i s = .next (succeed (setStreamEntry u id (some x)) s.nextCmd id)) ∧
  (∀ (s : State) (h : Hdr) (stream : BitVec 16) (src : BitVec 44) (len : BitVec 32) (capture : BitVec 64) (x : MilStream),
    let i := Instr.streamFeed h stream src len capture
    let a := { admitted s h i with nextFeed := (admitted s h i).nextFeed + 1 }
    let f : Feed := ⟨s.nextFeed, s.nextCmd, x.nextIndex, h.ticket.toNat, src.toNat, len.toNat,
      if capture.toNat = 0 then s.beat.count else capture.toNat, none, false, .waiting⟩
    Ready s h i .partition → mayStream s h stream.toNat x → len.toNat ≠ 0 → len.toNat ≤ 16777216 →
    inPartition s x.partition src.toNat len.toNat = true → (x.encode = true → needBytes x.maxW x.maxH ≤ len.toNat) →
    (capture.toNat = 0 ∨ s.beat.synced = true) → x.feeds.length < 64 →
    let t := setStreamEntry (setWait a s.nextCmd (.feed stream.toNat s.nextFeed)) stream.toNat
      (some { x with feeds := x.feeds ++ [f], nextIndex := x.nextIndex + 1 })
    exec i s = .next (if x.encode then t else assignSlots t x.batch 1)) ∧
  (∀ (s : State) (h : Hdr) (batch : BitVec 16) (slots bytes : BitVec 32) (dest record : BitVec 44),
    let i := Instr.batchDefine h batch slots bytes dest record
    let part' := (queue s h.queue.val).partition
    let x := (findBatch s batch.toNat).getD ⟨part', [], 0⟩
    Ready s h i .partition → millPresent s = true →
    batchFieldsOk s part' batch.toNat slots.toNat bytes.toNat dest.toNat record.toNat = true → x.partition = part' → x.fills.length < 4 →
    (∀ y ∈ openStreams s, y.2.encode = false → y.2.batch = batch.toNat → needBytes y.2.maxW y.2.maxH ≤ bytes.toNat) →
    let t := setBatch (setWait (admitted s h i) s.nextCmd (.batchFill batch.toNat x.nextFill)) batch.toNat (some { x with
      fills := x.fills ++ [⟨x.nextFill, slots.toNat, bytes.toNat, dest.toNat, record.toNat, s.nextCmd, 0, [], false⟩]
      nextFill := (x.nextFill + 1) % 2 ^ 32 })
    exec i s = .next (assignSlots t batch.toNat (slotless t batch.toNat).length)) ∧
  (∀ (s : State) (h : Hdr) (stream : BitVec 16) (x : MilStream),
    let i := Instr.streamClose h stream
    let t := setStreamEntry (setWait (admitted s h i) s.nextCmd (.streamClose stream.toNat)) stream.toNat
      (some { x with closing := true })
    Ready s h i .partition → mayStream s h stream.toNat x →
    (x.feeds = [] → exec i s = .next (freeStream t stream.toNat { status := .ok }) ∧
      findStream (freeStream t stream.toNat { status := .ok }) stream.toNat = none) ∧
    (x.feeds ≠ [] → exec i s = .next t))

/-! ### The cluster sequencer (06_cluster_sequencer.md) -/

/-- R192, R195, R480: stream `st` of cluster `c` may issue, and its next word is `w`. -/
def inTurn (s : State) (c st : Nat) (w : Word) : Prop :=
  st < (cluster s c).streams.length ∧ issues s (cluster s c) st = true ∧
    (stream (cluster s c) st).pc < codeWords s (cluster s c) ∧ nextWord (cluster s c) st = w

/-- A stream past its current word with scalar `d` set to `x`. -/
def scalarSet (t : Stream) (d : Nat) (x : Word) : Stream := { t with scalars := t.scalars.set d x }.next

/-- R198, R199: LOOP enters a loop of its body when fewer than four are active at it or its count is 0, which skips the body, and faults
otherwise, or when its scalar count is above 0xFFFF_FFFF; a loop entered with any count, whose body holds no other control of its own,
runs its body that many times and leaves the stream at the word after it, in the loops that enclosed it. R195: where the LOOP is itself
the last word of an enclosing body with passes left, those follow: the stream goes back to that body's first word, with one pass fewer.
Which loops are active at such a word is the model's choice, log entry 45. -/
def Obligations.LoopRuns : Prop :=
  (∀ (s : State) (c : Fin 64) (st : Fin 4) (w : Word), inTurn s c.val st.val w → opOf w = 0xE2 → getBits w 33 15 ≠ 0 →
    let t := stream (cluster s c.val) st.val
    let k := loopsAt t (getBits w 33 15)
    let stops := exec (.loop c st w) s = .next (streamFault s c.val st.val)
    let runs := fun (n : Nat) =>
      ((n = 0 ∨ k.length < 4) → exec (.loop c st w) s = .next
        (setCluster s c.val (setStream (cluster s c.val) st.val (enterLoop t (getBits w 33 15) n)))) ∧
      (n ≠ 0 → 4 ≤ k.length → stops)
    (natBit w.toNat 55 = false → reservedZero w [(47, 33), (31, 0)] = true → runs (getBits w 0 32)) ∧
    (natBit w.toNat 55 = true → reservedZero w [(55, 55), (47, 33), (32, 28)] = true → getBits w 28 5 ≤ 15 →
      let n := (scalar t (getBits w 28 5)).toNat
      (n ≤ 0xFFFFFFFF → runs n) ∧ (0xFFFFFFFF < n → stops))) ∧
  (∀ (t : Stream) (body n : Nat), 0 < body →
    Nat.repeat Stream.next (n * body) (enterLoop t body n) = ({ t with loops := loopsAt t body }).past (t.pc + body)) ∧
  (∀ (t : Stream) (body : Nat), (∀ f ∈ t.loops, f.last ≠ t.pc) → loopsAt t body = t.loops) ∧
  (∀ (t : Stream) (body n : Nat) (f : LoopFrame) (rest : List LoopFrame), 0 < body → t.loops = f :: rest → f.last = t.pc → 1 < f.left →
    (∀ g ∈ rest, g.last ≠ t.pc) → Nat.repeat Stream.next (n * body) (enterLoop t body n) =
      { t with pc := f.first, loops := { f with last := t.pc + body, left := f.left - 1 } :: rest, waiting := none })

/-- R204: waiter `u` is served before waiter `n`. -/
def servedFirst (u n : Nat) : Prop := ∃ i j : Nat, takeOrder[i]? = some u ∧ takeOrder[j]? = some n ∧ i < j

/-- R193, R195, R196, R191: the control instructions in their turn, with no reserved value in their words: CNOP only goes on; SLI and
SLUI write a scalar's immediate or its high half, SALU an operation's result, SID the cluster's rank or the slice's cluster count; END
ends the stream, and the cluster is finishing once all four have. Nothing but the cluster changes. R204: TWAIT takes its count from a
token that holds it, unless a waiter that is served before it (vats 0 to 3, then the MOVE, VAT, VEC and ROW streams) finds its counts
there and takes from the same token, and waits otherwise; TSIGNAL adds its count; a waiting TWAIT proceeds, and a waiting vat takes its
fill counts, when that becomes so; a TWAIT faults with detail 0x2392 when it has waited SEQ_WAIT_LIMIT beats; a count that would pass
0xFF_FFFF faults the cluster with detail 0x2391. R200, R213, R455: a stream that issues past the end of its program, or a word whose
opcode is reserved in it, faults; a stream fault is recorded with its word, stream and code 1 and stops the cluster; its run carries the
fault (R214) and ends once the clusters that served it have completed what they issued. R184: a waiter comes to know what its tokens
know, and a token what the stream that signals it knows, which is how the model keeps the order of accesses (log entry 16). -/
def Obligations.ControlAndFaults : Prop :=
  (∀ (s : State) (c : Fin 64) (st : Fin 4) (w : Word), inTurn s c.val st.val w →
    let v := cluster s c.val
    let t := stream v st.val
    let d := getBits w 43 5
    let goes := fun (x : Stream) => Host.Outcome.next (setCluster s c.val (setStream v st.val x))
    (opOf w = 0xE0 → reservedZero w [] = true → exec (.cnop c st w) s = goes t.next) ∧
    (opOf w = 0xE1 → reservedZero w [] = true →
      let k := setStream v st.val { t with ended := true, pc := t.pc + 1 }
      exec (.endStream c st w) s = .next (setCluster s c.val
        (if k.streams.all (fun t => t.ended) then { k with state := .finishing } else k))) ∧
    (opOf w = 0xE5 → reservedZero w [(47, 43), (31, 0)] = true → d ≤ 15 →
      exec (.sli c st w) s = goes (scalarSet t d ((BitVec.ofNat 32 w.toNat).signExtend 64))) ∧
    (opOf w = 0xE6 → reservedZero w [(47, 43), (31, 0)] = true → d ≤ 15 →
      exec (.slui c st w) s = goes (scalarSet t d (BitVec.ofNat 64 ((scalar t d).toNat % 2 ^ 32 + w.toNat % 2 ^ 32 * 2 ^ 32)))) ∧
    (opOf w = 0xE7 → saluFieldsOk w = true →
      exec (.salu c st w) s = goes (scalarSet t d (saluOp (getBits w 48 4) (scalar t (getBits w 38 5))
        (if natBit w.toNat 55 then immSext w else scalar t (getBits w 33 5))))) ∧
    (opOf w = 0xE8 → reservedZero w [(47, 43), (1, 0)] = true → d ≤ 15 → getBits w 0 2 ≤ 1 →
      exec (.sid c st w) s = goes (scalarSet t d (BitVec.ofNat 64 (if getBits w 0 2 = 0 then v.rank else v.count))))) ∧
  (∀ (s : State) (c : Fin 64) (st : Fin 4) (w : Word), inTurn s c.val st.val w → tokenFieldsOk w = true →
    let v := cluster s c.val
    let t := stream v st.val
    let tok := getBits w 48 6
    let n := getBits w 0 16
    let tokens := fun m => mapSet (fun _ => 0) v.tokens tok m
    (opOf w = 0xE3 → mayTake s.power.hold v st.val [(tok, n)] = true → n ≤ tokenOf v tok ∧ ∃ u, exec (.twait c st w) s = .next u ∧
      u = { s with clusters := u.clusters, order := u.order } ∧
      (∀ x ∈ knownTo s (tokenKey c.val tok), x ∈ knownTo u (streamKey c.val st.val)) ∧
      cluster u c.val = setStream { v with tokens := tokens (tokenOf v tok - n) } st.val t.next ∧
      ∀ d, d ≠ c.val → cluster u d = cluster s d) ∧
    (opOf w = 0xE3 → mayTake s.power.hold v st.val [(tok, n)] = false →
      exec (.twait c st w) s = .next (setCluster s c.val (setStream v st.val { t with waiting := some s.beat.waits }))) ∧
    (opOf w = 0xE4 → tokenOf v tok + n ≤ 0xFFFFFF → ∃ u, exec (.tsignal c st w) s = .next u ∧
      u = { s with clusters := u.clusters, order := u.order } ∧
      (∀ x ∈ knownTo s (streamKey c.val st.val), x ∈ knownTo u (tokenKey c.val tok)) ∧
      cluster u c.val = setStream { v with tokens := tokens (tokenOf v tok + n) } st.val t.next ∧
      ∀ d, d ≠ c.val → cluster u d = cluster s d) ∧
    (opOf w = 0xE4 → 0xFFFFFF < tokenOf v tok + n → exec (.tsignal c st w) s =
      .next (seqFault (setCluster (learn s (tokenKey c.val tok) (knownTo s (streamKey c.val st.val))) c.val
        { v with tokens := tokens 0xFFFFFF }) c.val st.val 4 .badParam 0x2391))) ∧
  (∀ (hold : Bool) (v : Cluster) (n : Nat) (needs : List (Nat × Nat)), n ∈ takeOrder →
    (mayTake hold v n needs = true ↔ (∀ p ∈ needs, p.2 ≤ tokenOf v p.1) ∧
      ∀ (u : Nat) (ns : List (Nat × Nat)), servedFirst u n → waiterNeeds hold v u = some ns →
        (∀ p ∈ ns, p.2 ≤ tokenOf v p.1) → ∀ p ∈ ns, ∀ q ∈ needs, p.1 ≠ q.1)) ∧
  (∀ (s : State) (c : Fin 64) (n : Fin 8) (needs : List (Nat × Nat)),
    let v := cluster s c.val
    clusterActive v = true → waiterNeeds s.power.hold v n.val = some needs → mayTake s.power.hold v n.val needs = true →
    (n.val < 4 → needs = twaitNeeds v n.val ∧ exec (.twaitSatisfied c n) s =
      .next (passWord (takeForStream s c.val n.val needs) c.val n.val)) ∧
    (4 ≤ n.val → (∃ o, (vatOf v (n.val - 4)).acc = some o ∧ needs = fillNeeds o) ∧
      exec (.twaitSatisfied c n) s = .next (tookFill s c.val (n.val - 4) needs))) ∧
  (∀ (s : State) (c : Fin 64) (st : Fin 4) (since : Nat), clusterActive (cluster s c.val) = true →
    (stream (cluster s c.val) st.val).waiting = some since →
    since + (getReg s .seqWaitLimit (c.val / 16) (c.val % 16)).toNat ≤ s.beat.waits →
    exec (.tokenTimeout c st) s = .next (seqFault s c.val st.val 5 .badParam 0x2392)) ∧
  (∀ (s : State) (c : Fin 64) (st : Fin 4) (w : Word), issues s (cluster s c.val) st.val = true →
    codeWords s (cluster s c.val) ≤ (stream (cluster s c.val) st.val).pc →
    exec (.cnop c st w) s = .next (streamFault s c.val st.val)) ∧
  (∀ (s : State) (c : Fin 64) (st : Fin 4) (w : Word), inTurn s c.val st.val w → opcodeDefined st.val (opOf w) = false →
    (st.val = 1 → 0xE0 ≤ opOf w) → exec (.cnop c st w) s = .next (streamFault s c.val st.val)) ∧
  (∀ (s : State) (c : Fin 64) (tok n stream : Nat),
    let v := cluster s c.val
    let full := setCluster s c.val { v with tokens := mapSet (fun _ => 0) v.tokens tok 0xFFFFFF }
    0xFFFFFF < tokenOf v tok + n → v.state = .idle →
    addToken s c.val tok n stream =
      raiseEvent (modCluster (recordFault c.val stream 4 full) c.val (fun v => { v with state := .stopped })) (clusterSrc c.val)) ∧
  (∀ (s : State) (c st : Nat), c < 64 →
    let t := streamFault s c st
    (cluster t c).state = .stopped ∧ (cluster t c).faultPc = (stream (cluster s c) st).pc ∧ (cluster t c).faultStream = st ∧
    (cluster t c).faultCode = 1 ∧ (runQuiet t (cluster s c).run = true → findRun t (cluster s c).run = none) ∧
    ∀ r x, findRun s (cluster s c).run = some r → r.fault = none → findRun t (cluster s c).run = some x →
      x.fault = some (.badParam, 0x2380 + st))

/-! ### The vats (03_dot_product.md, 04_vat.md) -/

/-- R184, as the model keeps it (log entry 16): an access of an engine that comes after the accesses `l` shares none of the areas with an
earlier access of another engine, one of the two a write, that it is not known to come after. -/
def ordered (s : State) (engine : Nat) (l : List Nat) (write : Bool) (areas : List (Nat × Nat)) : Prop :=
  areas.flatMap (clashes s ⟨s.order.next, engine, l⟩ write) = []

/-- R91: what a group of products makes of the running sum: a NaN, an infinity, the sum unchanged, +0, or the exact sum rounded once. -/
def groupRule : Prop :=
  ∀ (mode : Rounding) (sum : Nat) (ps : List Ext),
    let l := decodeIeee layFp32 sum :: ps
    let x := l.foldl (fun a y => fracAdd a (extFrac y)) ⟨0, 1⟩
    ((.nan ∈ l ∨ (.inf false ∈ l ∧ .inf true ∈ l)) → groupStep layFp32 mode sum ps = 0x7FC00000) ∧
    (∀ neg, .nan ∉ l → .inf neg ∈ l → .inf (!neg) ∉ l → groupStep layFp32 mode sum ps = if neg then 0xFF800000 else 0x7F800000) ∧
    ((∀ y ∈ l, extIsFin y = true) →
      (ps.all extIsZero = true → groupStep layFp32 mode sum ps = sum) ∧
      (ps.all extIsZero = false → x.num = 0 → groupStep layFp32 mode sum ps = 0) ∧
      (ps.all extIsZero = false → x.num ≠ 0 → groupStep layFp32 mode sum ps = encodeIeee layFp32 mode false (extOfFrac x)))

/-- R89, R90, R102, R103, R117: the cell (r, j) after the next slice of an operation: the exact products of the lines' elements at the
positions of the slice, +0 at the others and throughout a skipped slice, in groups of four in ascending order; in PT-600 mode one by one
into the chunk's sum, which joins the cell's at the end of a chunk and of the operation. The first slice begins at the initial value
(R86). -/
def sliceSums : Prop :=
  ∀ (s : State) (c : Fin 64) (v : Fin 4) (stall : BitVec 32) (o : VatOp),
    let k := cluster s c.val
    let t := vatOf k v.val
    let d := vatDesc o.desc
    let a := (operandLines s c.val ((sideA d).slotAt d.k0 (o.nextPos / 32)) (sideA d)).1
    let b := (operandLines s c.val ((sideB d).slotAt d.k0 (o.nextPos / 32)) (sideB d)).1
    let p := fun r j x => if o.nextPos ≤ x ∧ x < sliceEnd o ∧ skips s c.val o = false then
      extMul ((a.getD r []).getD (x % 32) extZero) ((b.getD j []).getD (x % 32) extZero) else extZero
    let first := fun r j => if o.loaded = true then mapGet (fun _ => 0) (bankOf t o.bank) (128 * r + j)
      else if d.init = true then canonNan32 (storeF32 s c.val (cellAt d d.initAddr 4 r j)) else 0
    t.acc = some o → clusterActive k = true → s.power.hold = false → t.waiting = none → bankFree t o = true → k.vats.length = 4 →
    mayTake false k (v.val + 4) (fillNeeds o) = true → o.nextPos < sliceEnd o →
    tokenOf k d.a.free + 2 ≤ 0xFFFFFF → tokenOf k d.b.free + 2 ≤ 0xFFFFFF →
    ordered s (vatKey c.val v.val) (joinKnown o.knows (knownToTokens s c.val (fillNeeds o))) false (sliceAreas c.val o) →
    ∃ u, exec (.vatSlice c v stall) s = .next u ∧ ∀ r j, r < 32 * d.m → j < 32 * d.n →
      let w := vatOf (cluster u c.val) v.val
      (d.pt600 = false → o.nextPos % 4 = 0 → mapGet (fun _ => 0) (bankOf w o.bank) (128 * r + j) =
        BitVec.ofNat 32 (((List.range 8).map (fun g => o.nextPos / 4 + g)).foldl (fun x g =>
          groupStep layFp32 (dotMode d o.seed ((d.i0 + r) % 2 ^ 32) ((d.j0 + j) % 2 ^ 32) g) x
            [p r j (4 * g), p r j (4 * g + 1), p r j (4 * g + 2), p r j (4 * g + 3)]) (first r j).toNat)) ∧
      (d.pt600 = true →
        let q := ((List.range (sliceEnd o - o.nextPos)).map (fun x => o.nextPos + x)).foldl (fun (q : Nat × Nat) x =>
          let y := groupStep layA22 .rne q.2 [p r j x]
          if x % 64 = 63 ∨ x + 1 = d.k0 + d.k then (groupStep layFp32 .rne q.1 [decodeIeee layFp32 (widenA22 y)], 0) else (q.1, y))
          ((first r j).toNat, if o.loaded = true then (mapGet (fun _ => 0) (chunkOf t o.bank) (128 * r + j)).toNat else 0)
        mapGet (fun _ => 0) (bankOf w o.bank) (128 * r + j) = BitVec.ofNat 32 q.1 ∧
        mapGet (fun _ => 0) (chunkOf w o.bank) (128 * r + j) = BitVec.ofNat 22 q.2)

/-- R138 to R141: a drain takes each cell's sum through the bias, the scale and the derivative, each step rounded once, and writes its code
in the output format: an element of a format without scales rounded by itself, one of a scaled format with its group of 32 along
OUT_SAXIS. -/
def drainValues : Prop :=
  ∀ (s : State) (c : Fin 64) (v : Fin 4) (o : VatOp) (rest : List VatOp),
    let t := vatOf (cluster s c.val) v.val
    let d := vatDesc o.desc
    let f := fmtOf d.outFmt
    let at_ := fun base i => storeF32 s c.val (base + 4 * i)
    let s1 := fun r j =>
      let sum := mapGet (fun _ => 0) (bankOf t o.bank) (128 * r + j)
      if d.biasMode = 1 then f32Add sum (at_ d.biasAddr r) else if d.biasMode = 2 then f32Add sum (at_ d.biasAddr j) else sum
    let s2 := fun r j => if d.scaleMode = 1 then f32Mul (s1 r j) d.scaleValue else if d.scaleMode = 2 then f32Mul (s1 r j) (at_ d.scaleAddr r)
      else if d.scaleMode = 3 then f32Mul (s1 r j) (at_ d.scaleAddr j) else s1 r j
    let s3 := fun r j =>
      let z := s2 r j
      let y := savedValue s c.val d r j
      if d.deriv = 0 then z else if extIsNan (decode32 y) = true then nan32
      else if d.deriv = 3 then f32Mul z (f32Mul y (f32OneMinus y)) else if d.deriv = 4 then f32Mul z (f32OneMinus (f32Mul y y))
      else if extLt extZero (decode32 y) = true then z
      else if d.deriv = 1 then 0 else if d.deriv = 2 then f32Mul z d.alpha else f32Mul z (f32Add y d.alpha)
    (cluster s c.val).vats.length = 4 → t.finished = o :: rest → d.biasMode ≤ 2 → d.deriv ≤ 5 → outOverlaps o = false →
    ordered s (vatKey c.val v.val) o.knows false (drainAreas c.val d) →
    ∃ u x, exec (.vatDrain c v) s = .next u ∧ u.mem = s.mem ∧
      (vatOf (cluster u c.val) v.val).finished = rest ∧ (vatOf (cluster u c.val) v.val).draining = t.draining ++ [x] ∧ x.token = d.done ∧
      ∀ bm bn p q, bm < d.m → bn < d.n → p < 32 → q < 32 →
        let mode := fun p q => convMode d.outSr o.seed d.tensor ((d.i0 + 32 * bm + p) % 2 ^ 32) ((d.j0 + 32 * bn + q) % 2 ^ 32)
        let val := fun p q => decode32 (s3 (32 * bm + p) (32 * bn + q))
        let sup := if d.supplied = true then some d.scaleCode else none
        ∃ b, (d.outAddr + (bm * d.n + bn) * blockBytes f, b) ∈ x.writes ∧
          unpackElem f (fieldLe b (p * groupBytes f) (groupBytes f)) q =
            if fmtScaled f = false then encodePlain f (mode p q) d.outSat (val p q)
            else if d.outSaxis = true then
              (convGroup f (fun i => mode i q) sup ((List.range 32).map (fun i => val i q))).codes.getD p 0
            else (convGroup f (mode p) sup ((List.range 32).map (val p))).codes.getD q 0

/-- R202, R113, R130: a VOP with a well-formed word and descriptor enters its vat, which holds fewer than two operations; a VAT_SLICE
that may take its fill counts (R204) reads the operation's next slice, and waits otherwise, its stall counted; a summed operation
drains, which frees its bank; a drain's completion writes its output and adds one to its DONE_TOKEN. R89 to R91, R102, R103: the sums are
exact and rounded once a group. R138 to R141: the drain's epilogue and conversion. The model's own choices: a VAT_SLICE without
fill counts starts the wait (log entry 14), the output is written at the completion and not before (log entry 37), and what the
engines know of each other's accesses (log entry 16), with the contents of areas that they share without an order free (R184). -/
def Obligations.VatRows : Prop :=
  (∀ (s : State) (c : Fin 64) (w : Word) (stall : BitVec 32), inTurn s c.val 0 w → opOf w = 1 →
    let k := cluster s c.val
    let v := getBits w 43 2
    let addr := ((scalar (stream k 0) (getBits w 38 5)).toNat + getBits w 0 24) % 2 ^ 24
    let r := readDesc s c.val 0 (vatKey c.val v) addr 128
    let d := storeBytes r.2 c.val addr 128
    let u := countVat r.2 .vatStall c.val v stall.toNat
    reservedZero w [(44, 43), (42, 38), (23, 0)] = true → getBits w 38 5 ≤ 15 → addr % 128 = 0 → (vatOf k v).queued = none →
    (vatFault d = none → exec (.vop c w stall) s =
      .next (passWord (setVat u c.val v (enterVat (vatOf k v) d addr (clusterSeed s c.val) r.1.done)) c.val 0)) ∧
    (∀ o, vatFault d = some o → exec (.vop c w stall) s = .next (vatDescFault u c.val v o))) ∧
  (∀ (s : State) (c : Fin 64) (v : Fin 4) (stall : BitVec 32) (o : VatOp),
    let t := vatOf (cluster s c.val) v.val
    t.acc = some o → clusterActive (cluster s c.val) = true → s.power.hold = false → t.waiting = none → bankFree t o = true →
    (mayTake false (cluster s c.val) (v.val + 4) (fillNeeds o) = true →
      exec (.vatSlice c v stall) s = .next (runSlice s c.val v.val o stall.toNat)) ∧
    (mayTake false (cluster s c.val) (v.val + 4) (fillNeeds o) = false → exec (.vatSlice c v stall) s =
      .next (setVat (countVat s .vatStall c.val v.val stall.toNat) c.val v.val { t with waiting := some s.beat.waits }))) ∧
  (∀ (s : State) (c : Fin 64) (v : Fin 4) (o : VatOp) (rest : List VatOp), (cluster s c.val).vats.length = 4 →
    (vatOf (cluster s c.val) v.val).finished = o :: rest →
    ∃ t x, exec (.vatDrain c v) s = .next t ∧ (vatOf (cluster t c.val) v.val).finished = rest ∧
      (vatOf (cluster t c.val) v.val).draining = (vatOf (cluster s c.val) v.val).draining ++ [x] ∧ x.token = (vatDesc o.desc).done ∧
      ∀ a, (∀ p ∈ drainAreas c.val (vatDesc o.desc), a < p.1 ∨ p.1 + p.2 ≤ a) → memByte t a = memByte s a) ∧
  (∀ (s : State) (c : Fin 64) (v : Fin 4) (x : VatDrain) (rest : List VatDrain), (vatOf (cluster s c.val) v.val).draining = x :: rest →
    let key := vatKey c.val v.val
    let l := joinKnown x.knows (knownTo s key)
    let r := newUse (setVat s c.val v.val { vatOf (cluster s c.val) v.val with draining := rest }) key l
    let u := touchStore (x.writes.foldl (fun s p => putStore s c.val p.1 p.2) r.2) r.1 true (writeAreas c.val x.writes)
    exec (.vatDrainComplete c v) s =
      .next (settleCluster (signalToken (learn u key r.1.done) c.val x.token 1 0 r.1.done) c.val) ∧
    (ordered s key l true (writeAreas c.val x.writes) → u.mem = (x.writes.foldl (fun s p => putStore s c.val p.1 p.2) s).mem)) ∧
  groupRule ∧ sliceSums ∧ drainValues

/-! ### The vector engine (05_vector_row_engines.md) -/

/-- R163, R164: what every completed vector instruction counts: itself, and the cycles it was held. -/
def counted (s : State) (c : Fin 64) (stall : BitVec 32) : State :=
  let s := count s .vecInsns (c.val / 16) (c.val % 16)
  if stall = 0 then s else count s .vecStall (c.val / 16) (c.val % 16) stall.toNat

/-- R157, R158: the instructions of operands A and B, with their opcodes and exact functions. -/
def binaryRows (c : Fin 64) (w : Word) (stall : BitVec 32) : List (Instr × Nat × (Ext → Ext → Ext)) :=
  [(.vadd c w stall, 0x10, extAdd), (.vsub c w stall, 0x11, fun a b => extAdd a (extNeg b)), (.vmul c w stall, 0x12, extMul),
   (.vmax c w stall, 0x15, extMax), (.vmin c w stall, 0x16, extMin)]

/-- R157: the instructions of operands A, B and C. -/
def ternaryRows (c : Fin 64) (w : Word) (stall : BitVec 32) : List (Instr × Nat × (Ext → Ext → Ext → Ext)) :=
  [(.vfma c w stall, 0x13, fun a b x => extAdd (extMul a b) x), (.vfnma c w stall, 0x14, fun a b x => extAdd x (extNeg (extMul a b)))]

/-- R158, R159: the instructions of operand A, with their functions of its bits and the rounding of the destination. -/
def unaryRows (c : Fin 64) (w : Word) (stall : BitVec 32) : List (Instr × Nat × ((Ext → F32) → F32 → F32)) :=
  [(.vabs c w stall, 0x17, fun rnd x => rnd (extAbs (decode32 x))), (.vrcp c w stall, 0x18, fun rnd x => elemFn rnd .rcp x),
   (.vsqrt c w stall, 0x19, fun rnd x => elemFn rnd .sqrt x), (.vrsqrt c w stall, 0x1A, fun rnd x => elemFn rnd .rsqrt x),
   (.vexp c w stall, 0x1B, fun rnd x => elemFn rnd .exp x), (.vexp2 c w stall, 0x1C, fun rnd x => elemFn rnd .exp2 x),
   (.vlog2 c w stall, 0x1D, fun rnd x => elemFn rnd .log2 x), (.vtanh c w stall, 0x1E, fun rnd x => elemFn rnd .tanh x),
   (.verf c w stall, 0x1F, fun rnd x => elemFn rnd .erf x)]

/-- R152, R153, R155: the element (r, k) of tile register `n` is one that a tile instruction `w` writes: of its destination or
destination pair, active, and admitted by the write mask. -/
def written (v : VecRegs) (w : Word) (n r k : Nat) : Prop :=
  insD w ≤ n ∧ n - insD w < (if insPrec w then 2 else 1) ∧ r < v.rows ∧ k < v.cols ∧
    (insWm w = true → maskAt v (insWmr w) r k = true)

/-- What a tile instruction of cluster `c` leaves unchanged: the vector registers but the tile registers, the other streams,
the tokens, the stat memory, every other cluster, memory with its marks, contexts, queues and commands. -/
def tileFrame (s t : State) (c : Fin 64) : Prop :=
  let a := cluster s c.val
  let b := cluster t c.val
  b.vec = { a.vec with t := b.vec.t } ∧ b = { a with vec := b.vec, streams := b.streams } ∧
  (∀ st, st ≠ 1 → stream b st = stream a st) ∧ (∀ d, d ≠ c.val → cluster t d = cluster s d) ∧
  t = { s with clusters := t.clusters, regs := t.regs, runs := t.runs }

/-- R153, R155, R157, R158: an arithmetic instruction of two operands in its turn writes, at every element that it writes, the exact
result of its operands rounded once, read before any element is written; every other element keeps its value. R157: the fused
instructions round once, after the addition. R158, R159, R163: VABS and the elementary functions of one operand; VMOV takes the bits of
B, VTRN those of A transposed, VSEL those of A or B by the mask, and VMASKF 1 or +0 by the mask. What VTRN gives an active element whose
mirror image is inactive, which R152 forbids it to read, is a free value of the element, the active area and the register's bits: the
model's choice, log entry 38, and so is VSEL's and VMOV's rounding of a pair. -/
def Obligations.VectorElements : Prop :=
  (∀ (s : State) (c : Fin 64) (w : Word) (stall : BitVec 32) (i : Instr) (op : Nat) (g : Ext → Ext → Ext),
    (i, op, g) ∈ binaryRows c w stall → inTurn s c.val 1 w → opOf w = op → formOk ⟨true, true, true, false, false⟩ w = true →
    let v := (cluster s c.val).vec
    v.rows ≤ 32 → v.cols ≤ 32 →
    ∃ t, exec i s = .next t ∧ tileFrame s t c ∧ stream (cluster t c.val) 1 = (stream (cluster s c.val) 1).next ∧
      ∀ n r k, r < 32 → k < 32 →
        (written v w n r k → tileAt (cluster t c.val).vec n r k =
          rndPrec (insPrec w) (g (decode32 (opA w v (n - insD w) r k)) (decode32 (opB w v (n - insD w) r k)))) ∧
        (¬ written v w n r k → tileAt (cluster t c.val).vec n r k = tileAt v n r k)) ∧
  (∀ (s : State) (c : Fin 64) (w : Word) (stall : BitVec 32) (i : Instr) (op : Nat) (g : Ext → Ext → Ext → Ext),
    (i, op, g) ∈ ternaryRows c w stall → inTurn s c.val 1 w → opOf w = op → formOk ⟨true, true, true, true, false⟩ w = true →
    let v := (cluster s c.val).vec
    v.rows ≤ 32 → v.cols ≤ 32 →
    ∃ t, exec i s = .next t ∧ tileFrame s t c ∧ stream (cluster t c.val) 1 = (stream (cluster s c.val) 1).next ∧
      ∀ n r k, r < 32 → k < 32 →
        (written v w n r k → tileAt (cluster t c.val).vec n r k = rndPrec (insPrec w) (g (decode32 (opA w v (n - insD w) r k))
          (decode32 (opB w v (n - insD w) r k)) (decode32 (opC w v (n - insD w) r k)))) ∧
        (¬ written v w n r k → tileAt (cluster t c.val).vec n r k = tileAt v n r k)) ∧
  (∀ (s : State) (c : Fin 64) (w : Word) (stall : BitVec 32), inTurn s c.val 1 w →
    let v := (cluster s c.val).vec
    let gives := fun (i : Instr) (x : Nat → Nat → Nat → F32) => ∃ t, exec i s = .next t ∧ tileFrame s t c ∧
      stream (cluster t c.val) 1 = (stream (cluster s c.val) 1).next ∧ ∀ n r k, r < 32 → k < 32 →
        (written v w n r k → tileAt (cluster t c.val).vec n r k = x (n - insD w) r k) ∧
        (¬ written v w n r k → tileAt (cluster t c.val).vec n r k = tileAt v n r k)
    let bits := fun x => if insPrec w then rndBf16 (decode32 x) else x
    v.rows ≤ 32 → v.cols ≤ 32 →
    (∀ i op g, (i, op, g) ∈ unaryRows c w stall → opOf w = op → formOk ⟨true, true, false, false, false⟩ w = true →
      gives i (fun o r k => g (rndPrec (insPrec w)) (opA w v o r k))) ∧
    (opOf w = 0x08 → formOk ⟨true, false, true, false, false⟩ w = true → gives (.vmov c w stall) (fun o r k => bits (opB w v o r k))) ∧
    (opOf w = 0x09 → formOk ⟨false, true, false, false, false⟩ w = true → gives (.vtrn c w stall)
        (fun o r k => if k < v.rows ∧ r < v.cols then opA w v o k r else Config.vtrnInactive v.rows v.cols r k (opA w v o k r))) ∧
    (opOf w = 0x29 → formOk ⟨true, true, true, false, true⟩ w = true →
      gives (.vsel c w stall) (fun o r k => bits (if maskAt v (insC w) r k then opA w v o r k else opB w v o r k))) ∧
    (opOf w = 0x2A → formOk ⟨false, false, false, false, false⟩ w = true → insA w ≤ 3 →
      gives (.vmaskf c w stall) (fun _ r k => if maskAt v (insA w) r k then 0x3F800000#32 else 0)))

/-- R160: the comparisons, with their opcodes and relations. -/
def compareRows (c : Fin 64) (w : Word) (stall : BitVec 32) : List (Instr × Nat × (Ext → Ext → Bool)) :=
  [(.vcmplt c w stall, 0x20, extLt), (.vcmple c w stall, 0x21, fun a b => extLt a b || extEq a b), (.vcmpeq c w stall, 0x22, extEq),
   (.vcmpun c w stall, 0x23, fun a b => extIsNan a || extIsNan b)]

/-- The logical instructions of two masks. -/
def maskRows (c : Fin 64) (w : Word) (stall : BitVec 32) : List (Instr × Nat × (Bool → Bool → Bool)) :=
  [(.vmand c w stall, 0x24, fun a b => a && b), (.vmor c w stall, 0x25, fun a b => a || b), (.vmxor c w stall, 0x26, fun a b => a != b)]

/-- R152, R160: comparisons and mask instructions write their mask register at the active elements, whatever the write mask, and
change no other register. R161: the reductions write, for each active row into V[D] or each active column into U[D], the exact sum
rounded once or the greatest of the elements that the write mask admits. -/
def Obligations.VectorMasks : Prop :=
  (∀ (s : State) (c : Fin 64) (w : Word) (stall : BitVec 32), inTurn s c.val 1 w →
    let v := (cluster s c.val).vec
    let gives := fun (i : Instr) (x : Nat → Nat → Bool) => ∃ t, exec i s = .next t ∧
      (cluster t c.val).vec = { v with m := (cluster t c.val).vec.m } ∧ t = { s with clusters := t.clusters, regs := t.regs } ∧
      stream (cluster t c.val) 1 = (stream (cluster s c.val) 1).next ∧ (∀ d, d ≠ c.val → cluster t d = cluster s d) ∧
      ∀ n r k, r < 32 → k < 32 → maskAt (cluster t c.val).vec n r k =
        if n = insD w ∧ r < v.rows ∧ k < v.cols then x r k else maskAt v n r k
    v.rows ≤ 32 → v.cols ≤ 32 →
    (∀ i op f, (i, op, f) ∈ compareRows c w stall → opOf w = op → formOk ⟨false, true, true, false, false⟩ w = true → insD w ≤ 3 →
      gives i (fun r k => f (decode32 (opA w v 0 r k)) (decode32 (opB w v 0 r k)))) ∧
    (∀ i op f, (i, op, f) ∈ maskRows c w stall → opOf w = op → maskOk w true = true →
      gives i (fun r k => f (maskAt v (insA w) r k) (maskAt v (insB w) r k))) ∧
    (opOf w = 0x27 → maskOk w false = true → gives (.vmnot c w stall) (fun r k => !maskAt v (insA w) r k)) ∧
    (opOf w = 0x28 → insPrec w = false → getBits w 32 1 = 0 → insD w ≤ 3 →
      gives (.vmset c w stall) (fun _ _ => natBit w.toNat 0))) ∧
  (∀ (s : State) (c : Fin 64) (w : Word) (stall : BitVec 32), inTurn s c.val 1 w →
    formOk ⟨false, true, false, false, false⟩ w = true → insD w ≤ 7 →
    let v := (cluster s c.val).vec
    v.rows ≤ 32 → v.cols ≤ 32 →
    let rows := fun (i : Instr) (g : List F32 → F32) => ∃ t, exec i s = .next t ∧
      (cluster t c.val).vec = { v with v := (cluster t c.val).vec.v } ∧
      ∀ n r, n ≤ 7 → r < 32 → colVec (cluster t c.val).vec n r =
        if n = insD w ∧ r < v.rows then g (selected v w true r) else colVec v n r
    let cols := fun (i : Instr) (g : List F32 → F32) => ∃ t, exec i s = .next t ∧
      (cluster t c.val).vec = { v with u := (cluster t c.val).vec.u } ∧
      ∀ n k, n ≤ 7 → k < 32 → rowVec (cluster t c.val).vec n k =
        if n = insD w ∧ k < v.cols then g (selected v w false k) else rowVec v n k
    (opOf w = 0x30 → rows (.vrsumr c w stall) reduceSum) ∧ (opOf w = 0x31 → cols (.vrsumc c w stall) reduceSum) ∧
    (opOf w = 0x32 → rows (.vrmaxr c w stall) reduceMax) ∧ (opOf w = 0x33 → cols (.vrmaxc c w stall) reduceMax))

/-- R156, R165 to R168: the engine instructions with their opcodes and whether a word of theirs holds no reserved value. -/
def vectorChecks (s : State) (c : Fin 64) (w : Word) (stall : BitVec 32) : List (Instr × Nat × Bool) :=
  (binaryRows c w stall).map (fun r => (r.1, r.2.1, formOk ⟨true, true, true, false, false⟩ w)) ++
  (ternaryRows c w stall).map (fun r => (r.1, r.2.1, formOk ⟨true, true, true, true, false⟩ w)) ++
  (unaryRows c w stall).map (fun r => (r.1, r.2.1, formOk ⟨true, true, false, false, false⟩ w)) ++
  (compareRows c w stall).map (fun r => (r.1, r.2.1, formOk ⟨false, true, true, false, false⟩ w && decide (insD w ≤ 3))) ++
  (maskRows c w stall).map (fun r => (r.1, r.2.1, maskOk w true)) ++
  [(.vrsumr c w stall, 0x30), (.vrsumc c w stall, 0x31), (.vrmaxr c w stall, 0x32), (.vrmaxc c w stall, 0x33)].map (fun r =>
    (r.1, r.2, formOk ⟨false, true, false, false, false⟩ w && decide (insD w ≤ 7))) ++
  [(.vnop c w stall, 0x00, getBits w 0 28 == 0 && !insPrec w), (.vld c w stall, 0x02, blockOk s c.val w),
    (.vst c w stall, 0x03, blockOk s c.val w), (.vldu c w stall, 0x04, vectorOk s c.val w), (.vldv c w stall, 0x05, vectorOk s c.val w),
    (.vstu c w stall, 0x06, vectorOk s c.val w), (.vstv c w stall, 0x07, vectorOk s c.val w),
    (.vsetvl c w stall, 0x01, !insPrec w && getBits w 32 1 == 0 && (if natBit w.toNat 16 then decide (insA w ≤ 15 ∧ insB w ≤ 15)
      else decide (1 ≤ getBits w 0 6 ∧ getBits w 0 6 ≤ 32 ∧ 1 ≤ getBits w 8 6 ∧ getBits w 8 6 ≤ 32))),
    (.vmov c w stall, 0x08, formOk ⟨true, false, true, false, false⟩ w), (.vtrn c w stall, 0x09, formOk ⟨false, true, false, false, false⟩ w),
    (.vmnot c w stall, 0x27, maskOk w false), (.vmset c w stall, 0x28, !insPrec w && getBits w 32 1 == 0 && decide (insD w ≤ 3)),
    (.vsel c w stall, 0x29, formOk ⟨true, true, true, false, true⟩ w),
    (.vmaskf c w stall, 0x2A, formOk ⟨false, false, false, false, false⟩ w && decide (insA w ≤ 3))]

/-- The code of the element at stored (p, q) of a block in the cluster store. -/
def blockCode (s : State) (c : Nat) (f : Fmt) (at_ p q : Nat) : Nat :=
  unpackElem f (fieldLe (storeBytes s c at_ (blockBytes f)) (p * groupBytes f) (groupBytes f)) q

/-- R166, R167, R118, R119: VLD and VST. VLD gives every active element that the write mask admits its stored element's value, rounded
once, and +0 every inactive one, and changes no memory; VST encodes each active element, and +0 for every inactive one, into the whole
block and its scale block, and changes no other byte and no register. -/
def tileTransfers : Prop :=
  ∀ (s : State) (c : Fin 64) (w : Word) (stall : BitVec 32), inTurn s c.val 1 w → blockOk s c.val w = true →
    let v := (cluster s c.val).vec
    let x := stream (cluster s c.val) 1
    let f := fmtOf (getBits w 24 4)
    let at_ := blockAddr s c.val w
    let sat := scaleBlockAddr s c.val w
    let trans := natBit w.toNat 28
    let saxis := natBit w.toNat 29
    let place := fun (r k : Nat) => if trans = true then (k, r) else (r, k)
    let alone := fun write => ordered s (streamKey c.val 1) (knownTo s (streamKey c.val 1)) write (blockAreas s c.val w)
    (opOf w = 0x02 → alone false → ∃ t, exec (.vld c w stall) s = .next t ∧ (∀ a, memByte t a = memByte s a) ∧
      (cluster t c.val).vec = { v with t := (cluster t c.val).vec.t } ∧
      ∀ n r k, r < 32 → k < 32 → tileAt (cluster t c.val).vec n r k =
        if n = insD w ∧ (insWm w = true → maskAt v (insWmr w) r k = true) then
          (if r < v.rows ∧ k < v.cols then
            let p := place r k
            let scale := if fmtScaled f = true then ((storeBytes s c.val sat 32).getD (if saxis = true then p.2 else p.1) 0).toNat else 0
            rndFp32 (elemValue f scale (blockCode s c.val f at_ p.1 p.2))
          else 0)
        else tileAt v n r k) ∧
    (opOf w = 0x03 → ∃ t, exec (.vst c w stall) s = .next t ∧ (cluster t c.val).vec = v ∧
      (∀ a, (∀ p ∈ blockAreas s c.val w, a < p.1 ∨ p.1 + p.2 ≤ a) → memByte t a = memByte s a) ∧
      (alone true → (fmtScaled f = true → overlaps (at_, blockBytes f) (sat, 32) = false) →
        let low := fun n => (scalar x n).toNat % 2 ^ 32
        let val := fun p q => let e := place p q
          if e.1 < v.rows ∧ e.2 < v.cols then decode32 (tileAt v (insD w) e.1 e.2) else extZero
        let mode := fun p q => let e := place p q
          convMode (natBit w.toNat 30) (clusterSeed s c.val) (low 15) ((low 13 + e.1) % 2 ^ 32) ((low 14 + e.2) % 2 ^ 32)
        let group := fun g => if saxis = true then convGroup f (fun i => mode i g) none ((List.range 32).map (fun i => val i g))
          else convGroup f (mode g) none ((List.range 32).map (val g))
        (∀ p q, p < 32 → q < 32 → blockCode t c.val f at_ p q =
          if fmtScaled f = false then encodePlain f (mode p q) (natBit w.toNat 31) (val p q)
          else if saxis = true then (group q).codes.getD p 0 else (group p).codes.getD q 0) ∧
        (fmtScaled f = true → ∀ g, g < 32 → (storeBytes t c.val sat 32)[g]? = some (BitVec.ofNat 8 (group g).scale))))

/-- R156, R165 to R168: VNOP only goes on; VSETVL sets the active area, clipped to 32 by a scalar; the loads write their register
from the store, +0 at inactive elements, and change no memory; the stores write their 128 bytes or block there, +0 at inactive
elements, and change no register and no other byte, VSTU and VSTV 128 bytes at the address that the instruction computes. R156: a word of
any engine instruction that holds a reserved value, and an opcode that is reserved, fault with detail 0x2100. The model's own choices: the
write mask applies to VLD, so that it keeps what its bits do not admit (log entry 38); what the engines know of each other's accesses,
and that areas they share without an order take free contents (R184; log entry 16). -/
def Obligations.VectorMemory : Prop :=
  (∀ (s : State) (c : Fin 64) (w : Word) (stall : BitVec 32), inTurn s c.val 1 w →
    let a := counted s c stall
    let v := (cluster s c.val).vec
    let x := stream (cluster s c.val) 1
    let addr := ((scalar x (insA w)).toNat + getBits w 0 24) % 2 ^ 24
    let goes := fun (t : State) => Host.Outcome.next (φ := Fault) (ρ := Refusal) (passWord t c.val 1)
    let reads := vecTouch a c.val false (storeAreas c.val addr 128)
    (opOf w = 0x00 → getBits w 0 28 = 0 → insPrec w = false → exec (.vnop c w stall) s = goes a) ∧
    (opOf w = 0x01 → insPrec w = false → getBits w 32 1 = 0 → natBit w.toNat 16 = false → 1 ≤ getBits w 0 6 → getBits w 0 6 ≤ 32 →
      1 ≤ getBits w 8 6 → getBits w 8 6 ≤ 32 → exec (.vsetvl c w stall) s = goes (setVlen a c.val (getBits w 0 6) (getBits w 8 6))) ∧
    (opOf w = 0x01 → insPrec w = false → getBits w 32 1 = 0 → natBit w.toNat 16 = true → insA w ≤ 15 → insB w ≤ 15 →
      let p := (scalar x (insA w)).toNat
      let q := (scalar x (insB w)).toNat
      (p ≠ 0 → q ≠ 0 → exec (.vsetvl c w stall) s = goes (setVlen a c.val (min p 32) (min q 32))) ∧
      ((p = 0 ∨ q = 0) → exec (.vsetvl c w stall) s = .next (vecFault s c.val 9 0x2101))) ∧
    (opOf w = 0x02 → blockOk a c.val w = true → exec (.vld c w stall) s = goes (loadTile a c.val w)) ∧
    (opOf w = 0x03 → blockOk a c.val w = true → exec (.vst c w stall) s = goes (storeTile a c.val w)) ∧
    (vectorOk a c.val w = true →
      (opOf w = 0x04 → ∃ t, exec (.vldu c w stall) s = .next t ∧ t.mem = reads.mem ∧
        (cluster t c.val).vec = { v with u := (cluster t c.val).vec.u } ∧
        ∀ k, k < 32 → rowVec (cluster t c.val).vec (insD w) k = if k < v.cols then storeF32 reads c.val (addr + 4 * k) else 0) ∧
      (opOf w = 0x05 → ∃ t, exec (.vldv c w stall) s = .next t ∧ t.mem = reads.mem ∧
        (cluster t c.val).vec = { v with v := (cluster t c.val).vec.v } ∧
        ∀ r, r < 32 → colVec (cluster t c.val).vec (insD w) r = if r < v.rows then storeF32 reads c.val (addr + 4 * r) else 0) ∧
      (ordered s (streamKey c.val 1) (knownTo s (streamKey c.val 1)) false (storeAreas c.val addr 128) →
        reads.mem = s.mem ∧ ∀ off, storeF32 reads c.val off = storeF32 s c.val off))) ∧
  (∀ (s : State) (c : Fin 64) (w : Word) (stall : BitVec 32) (i : Instr) (val : Nat → F32), inTurn s c.val 1 w →
    let v := (cluster s c.val).vec
    let addr := storeBase c.val + blockAddr s c.val w
    vectorOk s c.val w = true →
    ((i = .vstu c w stall ∧ opOf w = 0x06 ∧ val = fun k => if k < v.cols then rowVec v (insD w) k else 0) ∨
      (i = .vstv c w stall ∧ opOf w = 0x07 ∧ val = fun r => if r < v.rows then colVec v (insD w) r else 0)) →
    ∃ t, exec i s = .next t ∧ (∀ x, (x < addr ∨ addr + 128 ≤ x) → memByte t x = memByte s x) ∧ (cluster t c.val).vec = v ∧
      (ordered s (streamKey c.val 1) (knownTo s (streamKey c.val 1)) true (storeAreas c.val (blockAddr s c.val w) 128) →
        ∀ k, k < 32 → leNat (memBytes t (addr + 4 * k) 4) = (val k).toNat)) ∧
  tileTransfers ∧
  (∀ (s : State) (c : Fin 64) (w : Word) (stall : BitVec 32), inTurn s c.val 1 w →
    (∀ i op, (i, op, false) ∈ vectorChecks s c w stall → opOf w = op → exec i s = .next (vecFault s c.val 8 0x2100)) ∧
    (opcodeDefined 1 (opOf w) = false → opOf w < 0xE0 → exec (.vnop c w stall) s = .next (vecFault s c.val 8 0x2100)))

/-! ### The row engine (05_vector_row_engines.md) -/

/-- R172, R173, R181: what the operations that read no stat entry give row r: its main outputs at the valid columns and its stat entry. -/
def rowForwardValues : Prop :=
  ∀ (s : State) (c : Nat) (x : RowDesc) (r : Nat),
    let p := rowPart s c x r
    let n := validCols s c x r
    let xs := rowInput s c x 0 r
    let dys := rowInput s c x 2 r
    let at_ := fun (l : List Ext) k => l.getD k .nan
    let val := fun k => (p.main.map (·.1))[k]?
    (x.op = 0 → n = 0 → p.main = [] ∧ p.stats = [(x.base + r, pairEntry 1 x.tag 0 0)]) ∧
    (x.op = 0 → n ≠ 0 →
      let mu := if x.rms = true then (0 : F32) else rndFp32 (xDiv (xSum xs) (xNat n))
      let rstd := roundRsqrt (xSum [xDiv (xSum (xs.map (fun v => extMul (xSub v (decode32 mu)) (xSub v (decode32 mu))))) (xNat n), decode32 x.param])
      let gam := fun k => if x.affine = true then decode32 (storeF32 s c (x.addr 2 + 4 * k)) else xNat 1
      let beta := fun k => if x.affine = true then decode32 (storeF32 s c (x.addr 3 + 4 * k)) else extZero
      p.main.length = n ∧ p.stats = [(x.base + r, pairEntry 1 x.tag mu rstd)] ∧
      ∀ k, k < n → val k = some (rndFp32 (xSum [extMul (extMul (xSub (at_ xs k) (decode32 mu)) (decode32 rstd)) (gam k), beta k]))) ∧
    (x.op = 2 →
      let zs := xs.map (fun v => extMul (decode32 x.param) v)
      let m := rndFp32 (zs.foldl extMax (.inf true))
      let e := fun k => if decode32 m = .inf true then (0 : F32) else roundExp (xSub (at_ zs k) (decode32 m))
      let sum := rndFp32 (xSum ((List.range n).map (fun k => decode32 (e k))))
      p.main.length = n ∧ p.stats = [(x.base + r, pairEntry 2 x.tag m sum)] ∧
      ∀ k, k < n → val k = some (rndFp32 (xDiv (decode32 (e k)) (decode32 sum)))) ∧
    (x.op = 5 →
      let t := decode32 (rndFp32 (xSum (List.zipWith extMul dys xs)))
      p.main.length = n ∧ p.stats = [] ∧ ∀ k, k < n → val k = some (rndFp32 (extMul (at_ xs k) (xSub (at_ dys k) t)))) ∧
    (x.op = 6 →
      let zs := xs.map (fun v => extMul (decode32 x.param) v)
      let l := topK x.k zs
      let w := fun m => if x.smax = true then roundShare (xSub (at_ (l.map (·.2)) m) (at_ (l.map (·.2)) 0))
        (l.map (fun q => xSub q.2 (at_ (l.map (·.2)) 0))) else rndFp32 (at_ (l.map (·.2)) m)
      l.length = min x.k n ∧ l.Pairwise (fun a b => ranksBefore a b = true) ∧ (∀ a ∈ l, zs[a.1]? = some a.2) ∧
      (∀ i z, zs[i]? = some z → (i, z) ∉ l → ∀ a ∈ l, ranksBefore a (i, z) = true) ∧
      ∀ m, m < 8 → (x.addr 1 + 32 * r + 4 * m, if m < l.length then (l.map (·.1)).getD m 0 else 0xFFFFFFFF) ∈ p.ints ∧
        ∃ b, (x.addr 2 + 32 * r + 4 * m, (if m < l.length then w m else 0), b) ∈ p.words)

/-- R172, R173, R181: what the operations that read a stat entry give row r: from an entry that passes the check their values, and
0x7FC0_0000 from one that fails it. -/
def rowBackwardValues : Prop :=
  ∀ (s : State) (c : Nat) (x : RowDesc) (r : Nat),
    let p := rowPart s c x r
    let n := validCols s c x r
    let xs := rowInput s c x 0 r
    let dys := rowInput s c x 2 r
    let at_ := fun (l : List Ext) k => l.getD k .nan
    let e := statEntry (cluster s c) (x.base + r)
    let first := decode32 (statWord e 0)
    let second := decode32 (statWord e 1)
    let val := fun k => (p.main.map (·.1))[k]?
    let word := fun a y => ∃ b, (a, y, b) ∈ p.words
    (x.op = 1 → statMatches e 1 x.tag = true →
      let hat := fun k => decode32 (rndFp32 (extMul (xSub (at_ xs k) first) second))
      let g := fun k => decode32 (rndFp32 (extMul (at_ dys k) (if x.affine = true then decode32 (storeF32 s c (x.addr 3 + 4 * k)) else xNat 1)))
      let a := if x.rms = true then extZero else decode32 (rndFp32 (xDiv (xSum ((List.range n).map g)) (xNat n)))
      let b := decode32 (rndFp32 (xDiv (xSum ((List.range n).map (fun k => extMul (g k) (hat k)))) (xNat n)))
      p.main.length = n ∧
      ∀ k, k < n → val k = some (rndFp32 (extMul second (xSum [g k, extNeg a, extNeg (extMul (hat k) b)])))) ∧
    (x.op = 3 → (x.start = true ∨ fieldLe e 10 1 = 0 ∨ statMatches e 2 x.tag = true) →
      let none_ := x.start = true ∨ fieldLe e 10 1 = 0
      let mo := if none_ then .inf true else first
      let so := if none_ then extZero else second
      let zs := xs.map (fun v => extMul (decode32 x.param) v)
      let m := rndFp32 (extMax mo (zs.foldl extMax (.inf true)))
      let q := fun k => if decode32 m = .inf true then (0 : F32) else roundExp (xSub (at_ zs k) (decode32 m))
      let step := if decode32 m = .inf true then extZero else xSub mo (decode32 m)
      p.main.length = n ∧ (∀ k, k < n → val k = some (q k)) ∧ word (x.addr 2 + 4 * r) (roundExp step) ∧
      p.stats = [(x.base + r, pairEntry 2 x.tag m (roundScaledExp so step (xSum ((List.range n).map (fun k => decode32 (q k))))))]) ∧
    (x.op = 4 → statMatches e 2 x.tag = true →
      word (x.addr 1 + 4 * r) (if extIsZero second = true then 0 else rndFp32 (xDiv (xNat 1) second))) ∧
    (x.op = 7 → let h := statEntry (cluster s c) (x.base + 4 * r)
      statMatches h 3 x.tag = true →
      let m := min 8 (fieldLe h 2 1)
      let idx := fun i => fieldLe (statEntry (cluster s c) (x.base + 4 * r + 1)) (2 * i) 2
      let w := fun i => decode32 (statWord (statEntry (cluster s c) (x.base + 4 * r + 2 + i / 4)) (i % 4))
      let dw := fun i => decode32 (storeF32 s c (x.addr 2 + 32 * r + 4 * i))
      let t := decode32 (rndFp32 (xSum ((List.range m).map (fun i => extMul (w i) (dw i)))))
      p.main.length = x.l ∧
      (∀ k, k < x.l → (∀ i, i < m → idx i ≠ k) → val k = some 0) ∧
      (∀ i, i < m → idx i < x.l → (∀ j, j < i → idx j ≠ idx i) →
        val (idx i) = some (if natBit (fieldLe h 1 1) 0 = true then rndFp32 (extMul (w i) (xSub (dw i) t)) else rndFp32 (dw i)))) ∧
    (((x.op = 1 ∧ statMatches e 1 x.tag = false) ∨
        (x.op = 3 ∧ x.start = false ∧ fieldLe e 10 1 ≠ 0 ∧ statMatches e 2 x.tag = false)) →
      p.main.map (·.1) = List.replicate n nan32 ∧ (x.op = 3 → word (x.addr 2 + 4 * r) nan32)) ∧
    (x.op = 4 → statMatches e 2 x.tag = false → word (x.addr 1 + 4 * r) nan32) ∧
    (x.op = 7 → statMatches (statEntry (cluster s c) (x.base + 4 * r)) 3 x.tag = false → p.main.map (·.1) = List.replicate x.l nan32)

/-- R171, R174: where a row's results go: each main output in the output format, rounded with its element's coin, +0 at the invalid
columns, and no other byte. -/
def rowOutputs : Prop :=
  (∀ (s0 s : State) (c : Nat) (x : RowDesc) (r : Nat), hasMain x.op = true →
    let p := rowPart s0 c x r
    (applyRow s0 c x s r).mem = (writeWords (writeMain s c x r (p.main.mapIdx (fun k y => encodePlain (fmtOf x.outFmt)
      (convMode x.sr (clusterSeed s0 c) x.tensor ((x.i0 + r) % 2 ^ 32) k) false (decode32 y.1)))) c p.words p.ints).mem) ∧
  (∀ (s0 s : State) (c : Nat) (x : RowDesc) (r : Nat), hasMain x.op = false →
    let p := rowPart s0 c x r
    (applyRow s0 c x s r).mem = (writeWords s c p.words p.ints).mem) ∧
  (∀ (s : State) (c : Nat) (x : RowDesc) (r : Nat) (codes : List Nat),
    let f := fmtOf x.outFmt
    let n := fmtBits f / 8
    let at_ := fun k => x.addr 1 + k / 32 * blockBytes f + n * (32 * r + k % 32)
    r < 32 → x.outFmt ≤ 2 → x.addr 1 + (x.l + 31) / 32 * blockBytes f ≤ 2 ^ 24 →
    let t := writeMain s c x r codes
    (∀ k, k < x.l → fieldLe (storeBytes t c (at_ k) n) 0 n = codes.getD k 0 % 2 ^ (8 * n)) ∧
    (∀ a, (∀ k, k < x.l → a < storeBase c + at_ k ∨ storeBase c + at_ k + n ≤ a) → memByte t a = memByte s a))

/-- R169 to R181: an ROP in its turn whose descriptor passes its checks carries out the operation that the descriptor names, row by row,
counts its cycles and is outstanding; a descriptor fault ends the slice with detail 0x2200 and the offset; a completion adds one to
the oldest operation's DONE_TOKEN. R171 to R174, R181: each operation's values, where they go, and what a failed stat check gives. The
model's own choices: the rows read the state that the operation issues in, and are written then (log entries 16 and 39); what the
engines know of each other's accesses, and free contents where they share areas without an order (R184; log entry 16). -/
def Obligations.RowRows : Prop :=
  (∀ (s : State) (c : Fin 64) (w : Word) (i : Instr) (op : Nat),
    (i, op) ∈ [(Instr.normFwd c w, 0), (.normBwd c w, 1), (.smaxFwd c w, 2), (.smaxAcc c w, 3), (.smaxFin c w, 4), (.smaxBwd c w, 5),
      (.topkFwd c w, 6), (.topkBwd c w, 7)] →
    inTurn s c.val 2 w → opOf w = 1 → reservedZero w [(42, 38), (23, 0)] = true → getBits w 38 5 ≤ 15 →
    let addr := ((scalar (stream (cluster s c.val) 2) (getBits w 38 5)).toNat + getBits w 0 24) % 2 ^ 24
    let r := (readDesc s c.val 2 (rowKey c.val) addr 64).2
    let d := storeBytes r c.val addr 64
    let x := rowDesc d
    addr % 64 = 0 →
    (rowFault d = none → x.op = op →
      let u := newUse r (rowKey c.val) (knownTo r (streamKey c.val 2))
      let t := touchStore (runRows (touchStore u.2 u.1 false (rowReads c.val x)) c.val x) u.1 true (rowWritten c.val x)
      exec i s = .next (passWord (modCluster (count t .rowActive (c.val / 16) (c.val % 16) (rowCycles x)) c.val
        (fun v => { v with rowOps := v.rowOps ++ [⟨x.token, u.1.done⟩] })) c.val 2)) ∧
    (∀ o, rowFault d = some o → exec i s = .next (rowDescFault r c.val o))) ∧
  (∀ (s : State) (c : Fin 64) (o : RowOut) (rest : List RowOut), (cluster s c.val).rowOps = o :: rest →
    let l := joinKnown o.knows (knownTo s (rowKey c.val))
    let t := count (setCluster s c.val { cluster s c.val with rowOps := rest }) .rowOps (c.val / 16) (c.val % 16)
    exec (.rowOpComplete c) s = .next (settleCluster (signalToken (learn t (rowKey c.val) l) c.val o.token 1 2 l) c.val)) ∧
  rowForwardValues ∧ rowBackwardValues ∧ rowOutputs

/-! ### The data mover (06_cluster_sequencer.md) -/

/-- R203, R205 to R209: a MOVE in its turn whose descriptor passes its checks and whose areas the slice may reach carries out its
transfers, is outstanding and passes its word; while eight are outstanding it is held; a faulty descriptor, a PEER that the slice does not
have and an area out of its reach end the slice (R210); its completion adds one to its DONE_TOKEN and its remote token, the latter only
while the peer serves the MOVE's slice (R458). R184: areas of a store that engines share without an order take free contents, and an
access changes no byte outside its own areas. The model's own choices: a MOVE reads and writes its data when it issues (log entry 18);
the order of accesses is what tokens, streams and operations know (log entry 16). -/
def Obligations.MoveRows : Prop :=
  (∀ (s : State) (c : Fin 64) (w : Word) (i : Instr) (kind : Nat),
    (i, kind) ∈ [(Instr.moveLinear c w, 0), (.moveStrided c w, 1), (.moveGather c w, 2), (.moveScatter c w, 3), (.slotFill c w, 4)] →
    inTurn s c.val 3 w → opOf w = 1 → reservedZero w [(55, 55), (42, 38), (37, 33), (32, 28), (23, 0)] = true → insA w ≤ 15 →
    (natBit w.toNat 55 = true → insB w ≤ 15 ∧ insC w ≤ 15) →
    let v := cluster s c.val
    let t := stream v 3
    let addr := ((scalar t (insA w)).toNat + getBits w 0 24) % 2 ^ 24
    let r := (readDesc s c.val 3 (streamKey c.val 3) addr 128).2
    let u := newUse r (streamKey c.val 3) (knownTo r (streamKey c.val 3))
    let d := storeBytes r c.val addr 128
    let x := if natBit w.toNat 55 then moveDesc d (scalar t (insB w)).toNat (scalar t (insC w)).toNat else moveDesc d 0 0
    let ranks := sliceClusters s v
    let peerBad := (2 ≤ x.dir ∨ x.remEn = true) ∧ ranks.length ≤ x.peer
    addr % 128 = 0 →
    (8 ≤ v.moves.length → exec i s = .next s) ∧
    (v.moves.length < 8 → (∀ o, moveFault d x = some o → exec i s = .next (seqFault r c.val 3 2 .badParam (0x2300 + o)))) ∧
    (v.moves.length < 8 → moveFault d x = none → x.kind = kind →
      (peerBad → exec i s = .next (seqFault r c.val 3 6 .badParam 0x2393)) ∧
      (¬ peerBad → exec i s = .next (runMove u.2 c.val x ranks u.1)))) ∧
  (∀ (s : State) (c : Nat) (x : MoveDesc) (ranks : List Nat) (a : StoreUse), x.kind < 4 →
    let v := cluster s c
    let ways := waysOf s (some v.partition)
    let peer := ranks.getD x.peer 0
    let t := if x.kind = 2 ∨ x.kind = 3 then touchStore s a false (storeAreas c x.list (4 * x.count)) else s
    let ts := moveTransfers t c peer x
    let bell := x.kind = 0 ∧ x.dir = 1 ∧ x.len = 128 ∧ doorbellOf s v.partition = some x.mem
    let ends := fun (r : Option Nat × State) n =>
      passWord (count (addMove r.2 c x peer r.1 a.done) .seqMoveBytes (c / 16) (c % 16) n) c 3
    (∀ e, transfersError t v.partition ranks (c / 16) ts = some e →
      runMove s c x ranks a = seqFault (accessEvent t e) c 3 3 .denied 0x2390) ∧
    (transfersError t v.partition ranks (c / 16) ts = none →
      (¬ bell → runMove s c x ranks a = ends (carryTransfers t c a ways (decide (2 ≤ x.kind) && x.len == 32) ts) (ts.map (·.n)).sum) ∧
      (bell → let y := touchStore t a false (storeAreas c x.store 128)
        let z := ringDoorbell y c (some v.moveSeq) x.mem (storeBytes y c x.store 128)
        runMove s c x ranks a = ends (writeLost z x.mem 128, z) 128))) ∧
  (∀ (s : State) (c : Nat) (x : MoveDesc) (ranks : List Nat) (a : StoreUse), x.kind = 4 →
    let v := cluster s c
    let ways := waysOf s (some v.partition)
    let places := (maskAreas x).map (fun p => (⟨some (.mem p.1), .store c 0, 1⟩ : Transfer))
    let q := slotPlan (touchMemory s c false (maskAreas x)) c ways x
    transfersError s v.partition ranks (c / 16) places = none → transfersError q.2.2.2 v.partition ranks (c / 16) q.1 = none →
    let r := carryTransfers q.2.2.2 c a ways false q.1
    let u := touchStore (putStore r.2 c (slotTrailer x) (BitVec.ofNat 8 q.2.1 :: List.replicate 31 0)) a true (storeAreas c (slotTrailer x) 32)
    runMove s c x ranks a = passWord (count (addMove u c x (ranks.getD x.peer 0) (q.2.2.1 <|> r.1) a.done) .seqMoveBytes
      (c / 16) (c % 16) ((q.1.map (·.n)).sum + 32)) c 3) ∧
  (∀ (s : State) (c : Nat) (a : StoreUse) (ways : Nat) (tap : Bool) (ts : List Transfer),
    (readsOf placeStore ts).flatMap (clashes s a false) = [] → (writesOf placeStore ts).flatMap (clashes s a true) = [] →
    (∀ r g, findRun s (cluster s c).run = some r → findProgram s r.partition r.program = some g →
      (readsOf placeMemory ts).flatMap (unorderedParts r g (cluster s c).slice false) = []) →
    let t := touchMemory (touchStore s a false (readsOf placeStore ts)) c false (readsOf placeMemory ts)
    t = { s with order := t.order, runs := t.runs } ∧ (carryTransfers s c a ways tap ts).1 = (doTransfers t ways tap ts).1) ∧
  (∀ (s : State) (c : Fin 64) (m : MoveOut), (cluster s c.val).moves.find? (fun x => x.seq == m.seq) = some m →
    moveHeld s c.val m.seq = false →
    let t := setCluster s c.val { cluster s c.val with moves := (cluster s c.val).moves.filter (fun x => x.seq != m.seq) }
    let u := if remFirst t c.val m = true then moveDone c.val m (moveRem m t) else moveRem m (moveDone c.val m t)
    (m.poison = none → exec (.moveComplete c m.seq) s = .next (settleCluster u c.val)) ∧
    (∀ d, m.poison = some d → exec (.moveComplete c m.seq) s = .next
      (if clusterServes (cluster u c.val) = true then endSlice u c.val .poisoned d else settleCluster u c.val))) ∧
  (∀ (s : State) (c : Nat) (m : MoveOut), moveDone c m s = signalToken s c m.doneToken 1 3 m.knows ∧
    (m.remToken = none → moveRem m s = s) ∧
    ∀ k t, m.remToken = some (k, t) → moveRem m s =
      if (cluster s k).run = m.run ∧ (cluster s k).slice = m.slice then signalToken s k t 1 3 m.knows else s) ∧
  (∀ (s : State) (a : StoreUse) (write : Bool) (areas : List (Nat × Nat)) (x : Nat),
    ((∀ p ∈ areas, x < p.1 ∨ p.1 + p.2 ≤ x) → memByte (touchStore s a write areas) x = memByte s x) ∧
    (∀ p ∈ areas.flatMap (clashes s a write), p.1 ≤ x → x < p.1 + p.2 →
      ∃ k, memByte (touchStore s a write areas) x = Config.freeByte k))

/-! ### Scheduling (07_backward_pass.md, 14_partitions_scheduling.md) -/

/-- R218, R445, R446: the walk offers a partition's eligible and suspended slices in the order of R218; a slice whose clusters are free
and which the ledger covers starts, one whose clusters are not free is passed over and marked so, one that is not covered too; while
another slice is held for its clusters nothing else starts. R476: while a ledger close is due no walk precedes it. -/
def Obligations.SchedulerWalk : Prop :=
  (∀ (s : State) (p : Fin 16),
    let u := clearHeld (finishSuspensions s) p.val
    (s.power.closeDue = false → exec (.schedulerWalk p) s = .next (walkList p.val true (offers u p.val) u)) ∧
    (s.power.closeDue = true → exec (.schedulerWalk p) s = .next s)) ∧
  (∀ (s : State) (p : Nat), (offers s p).Pairwise (fun a b => offerBefore b a = false)) ∧
  (∀ (s : State) (p : Nat) (o : Offer), o ∈ offers s p →
    ∃ r ∈ s.runs, r.partition = p ∧ r.id = o.run ∧ r.fault = none ∧ o.slice < r.slices.length ∧
      ((sliceRun r o.slice).status = .eligible ∨ (sliceRun r o.slice).status = .suspended)) ∧
  (∀ (s : State) (p : Nat) (head : Bool) (o : Offer) (r : Run) (g : Program), findRun s o.run = some r → programOf s r = some g →
    (heldSlice s p = none →
      (∀ cs, placeSlice s r g o.slice = some cs → covers s p (sliceDesc g o.slice) ((sliceRun r o.slice).status == .eligible) = true →
        walkOffer s p head o = startSlice s r g o.slice cs) ∧
      (∀ cs, placeSlice s r g o.slice = some cs → covers s p (sliceDesc g o.slice) ((sliceRun r o.slice).status == .eligible) = false →
        walkOffer s p head o = passEnergy s o.run o.slice) ∧
      (placeSlice s r g o.slice = none → walkOffer s p head o = passClusters s o.run o.slice head)) ∧
    (∀ x, heldSlice s p = some x → x ≠ (o.run, o.slice) → walkOffer s p head o = s)) ∧
  (∀ (s : State) (r : Run) (g : Program) (i : Nat) (cs : List Nat), placeSlice s r g i = some cs →
    (∀ c ∈ cs, clusterFree s c = true) ∧ (boundBy g (sliceDesc g i) = none → cs.length = (sliceDesc g i).clusters))

/-- R95, R96, R215, R216, R449: what a restore reads out of the parts of a save area is what the suspension wrote into them: the streams at
their positions and loops with their scalars, none waiting; the tokens; the vector engine's registers and active area; the stat memory;
each vat's operations with their progress, sums and chunk sums, which the check of the dump record passes; the whole store. -/
def savedIsRestored : Prop :=
  (∀ t : Stream, t.pc < 2 ^ 16 → t.scalars.length = 16 → t.loops.length ≤ 4 →
    (∀ f ∈ t.loops, f.first < 2 ^ 16 ∧ f.last < 2 ^ 16 ∧ f.left < 2 ^ 32) → streamFrom (streamImage t) = { t with waiting := none }) ∧
  (∀ v : Cluster, v.streams.length = 4 → v.vats.length = 4 → v.vec.rows < 2 ^ 16 → v.vec.cols < 2 ^ 16 →
    (∀ n, tokenOf v n < 2 ^ 32) →
    let h := headerImage v
    let x := vecFrom h (vecImage v.vec)
    h.length = 4096 ∧ crc32c (h.take 4092) = fieldLe h 4092 4 ∧
    (∀ i, i < 4 → slice h (256 * i) 256 = streamImage (stream v i) ∧ slice h (1536 + 272 * i) 272 = vatImage (vatOf v i)) ∧
    (∀ n, n < 64 → fieldLe h (1024 + 4 * n) 4 = tokenOf v n) ∧
    x.rows = v.vec.rows ∧ x.cols = v.vec.cols ∧
    ∀ r k, r < 32 → k < 32 →
      (∀ n, n < 32 → tileAt x n r k = tileAt v.vec n r k) ∧ (∀ n, n < 4 → maskAt x n r k = maskAt v.vec n r k) ∧
      (∀ n, n < 8 → rowVec x n k = rowVec v.vec n k ∧ colVec x n r = colVec v.vec n r)) ∧
  (∀ (v : Cluster) (i : Nat), (∀ k, (statEntry v k).length = 16) → i < 16384 →
    statEntry { v with stat := statFrom (statImage v), statFree := none } i = statEntry v i) ∧
  (∀ (t u : Vat) (o : VatOp) (seed : BitVec 64), t.acc = some o → o.desc.length = 128 → o.addr < 2 ^ 32 → o.nextPos < 2 ^ 34 →
    (∀ q, t.queued = some q → q.desc.length = 128 ∧ q.addr < 2 ^ 32) →
    let d := vatDesc o.desc
    let dump := dumpImage t o
    let x := vatFrom (vatImage t) dump seed u
    x.acc = some { o with seed := seed, bank := u.bank, knows := [] } ∧
    x.queued = t.queued.map (fun q =>
      { q with seed := seed, bank := !u.bank, nextPos := (vatDesc q.desc).k0, loaded := false, took := false, knows := [] }) ∧
    (∀ n, n < 16384 → mapGet (fun _ => 0) (bankOf x u.bank) n = mapGet (fun _ => 0) (bankOf t o.bank) n) ∧
    (d.pt600 = true → ∀ n, n < 16384 → mapGet (fun _ => 0) (chunkOf x u.bank) n = mapGet (fun _ => 0) (chunkOf t o.bank) n) ∧
    (d.k0 ≤ o.nextPos → o.nextPos < d.k0 + d.k → (d.pt600 = true ∨ o.nextPos % 4 = 0) → dumpFault d dump = none)) ∧
  (∀ (s : State) (c : Nat) (b : List Byte) (i : Nat), b.length = 2 ^ 24 →
    (i < 2 ^ 24 → b[i]? = some (memByte (putImage s c b) (storeBase c + i))) ∧
    ((i < storeBase c ∨ storeBase (c + 1) ≤ i) → memByte (putImage s c b) i = memByte s i))

/-- R223, R447, R451: a head slice passed over for clusters for PRT_HOLD beats becomes the held slice; a running slice past its
partition's quantum that yields to the waiting one is asked to suspend, but under power hold keeps its clusters (R480); a cask slice that
has stood for 65,536 beats is promoted. R193, R225, R547: a slice whose clusters have all finished completes: its clusters are idle again
and it is completed, unless the run ends with it; a run without a gate whose slices have all completed completes its command OK. R215,
R216: what a suspension saves is what the resumption restores; the inner layout of the save area's header is the model's choice, log
entry 29, and so are the cells outside a dump's active area, log entry 75. -/
def Obligations.SlicesEnd : Prop :=
  (∀ (s : State) (p : Fin 16) (o : Offer) (r : Run) (since : Nat),
    let hold := getBits (getReg s .prtHold 4 0) 0 32
    (offers s p.val).head? = some o → findRun s o.run = some r → (sliceRun r o.slice).passedSince = some since →
    hold ≠ 0 → since + hold ≤ s.beat.waits →
    ∃ t, exec (.wideSliceHold p) s = .next t ∧ t = { s with wideHold := t.wideHold } ∧ heldSlice t p.val = some (o.run, o.slice)) ∧
  (∀ (s : State) (run : Nat) (slice : Fin 4096) (r : Run), findRun s run = some r → (part s r.partition).quantum ≠ 0 →
    (∃ k ∈ yielding s r.partition, k.run = run ∧ k.slice = slice.val) →
    (s.power.hold = false →
      exec (.quantumPreempt run slice) s = .next (finishSuspensions ((sliceRun r slice.val).clusters.foldl requestSuspend s))) ∧
    (s.power.hold = true → exec (.quantumPreempt run slice) s = .next s)) ∧
  (∀ (s : State) (c : Nat),
    let v := cluster (requestSuspend s c) c
    v.state = .suspending ∧ (∀ t ∈ v.streams, t.waiting = none) ∧ ∀ d, d ≠ c → cluster (requestSuspend s c) d = cluster s d) ∧
  (∀ (s : State) (run : Nat) (slice : Fin 4096) (r : Run) (g : Program), findRun s run = some r → programOf s r = some g →
    inCask g slice.val (sliceRun r slice.val) = true → (sliceRun r slice.val).since + 65536 ≤ s.beat.waits →
    ∃ t, exec (.caskAgePromote run slice) s = .next t ∧ t = { s with runs := t.runs } ∧
      ∀ x, findRun t run = some x → inCask g slice.val (sliceRun x slice.val) = false) ∧
  (∀ (s : State) (run : Nat) (slice : Fin 4096) (energy : List (BitVec 64)) (r : Run) (g : Program), findRun s run = some r →
    programOf s r = some g → sliceFinished s (sliceRun r slice.val) = true →
    exec (.sliceComplete run slice energy) s = .next (completeSlice s r g slice.val energy)) ∧
  (∀ (s : State) (r : Run) (g : Program) (i : Nat) (energy : List (BitVec 64)) (x : Run), findRun s r.id = some r →
    i < r.slices.length → findRun (completeSlice s r g i energy) r.id = some x →
    (sliceRun x i).status = .completed ∧
    ∀ c ∈ (sliceRun r i).clusters, (cluster (completeSlice s r g i energy) c).state = .idle) ∧
  savedIsRestored ∧
  (∀ (s : State) (r : Run), r.gated = false → finishRun s r = complete { s with runs := s.runs.filter (fun x => x.id != r.id) } r.cmd
    { status := .ok, value := runEnergy r, seed := r.defaultSeed })

/-- R547, R548: the commit gate. A gate that is not armed, or still in its warm-up, withholds nothing; an armed one withholds a step with
non-finite values, with a loss that is not finite, or with a loss above SPIKE times the mean, in that order; only steps it does
not withhold move the mean: to a finite loss when it is unset, else by a sixteenth of the difference, rounded once, and not for a loss
that is not finite or absent. Every decision counts as seen. -/
def Obligations.CommitGate : Prop :=
  ∀ (k : Gate) (n step : Nat) (loss : Option F32),
    let v := judge k n loss
    (k.armed = false → v.cause = none ∧ v.update = false) ∧
    (k.armed = true → k.seen < k.warmup → v.cause = none ∧ v.update = true) ∧
    (k.armed = true → k.warmup ≤ k.seen →
      v.cause = (if 0 < n then some 49 else if loss.any f32NonFinite then some 50 else if lossSpike k loss then some 51 else none)) ∧
    (v.cause.isSome = true → (gateAfter k v loss step).mean = k.mean ∧ (gateAfter k v loss step).lastWithheld = true) ∧
    (gateAfter k v loss step).seen = k.seen + 1 ∧
    (v.update = true → ∀ l, loss = some l → f32NonFinite l = false →
      (k.mean = none → (gateAfter k v loss step).mean = some l) ∧
      (∀ m, k.mean = some m → (gateAfter k v loss step).mean = some (rndFp32 (extOfFrac (fracAdd (extFrac (decode32 m))
        (fracMul (fracAdd (extFrac (decode32 l)) (extFrac (extNeg (decode32 m)))) ⟨1, 16⟩)))))) ∧
    (v.update = true → loss.all f32NonFinite = true → (gateAfter k v loss step).mean = k.mean) ∧
    (∀ s r, (applyVerdict s r loss).1 = (judge (ctxOf s r.ctx).gate r.nonFinite loss).cause.isSome)

/-! ### Exchanges (08_experts_sequence.md) -/

/-- R248: placement. No expert takes more than CAP rows, no two routes take one position of an expert, an expert's positions are filled
from 0 on without a gap, in ascending token row and, within a row, ascending slot; every route that is not placed is dropped, unrouted or
empty. A placed route stands in its own expert, or, that one being full, in its spill expert; a dropped one found both full, or no spill
expert. That a spill expert outside the exchange or without a route of its own takes none is the model's choice, log entry 49. -/
def Obligations.Placement : Prop :=
  ∀ (table : Nat → Option Route) (x : ExchDesc) (cap : Nat) (route : Nat → Nat → Nat),
    let a := placeAll table x cap route
    let spills := fun e e2 => ∃ r, table e = some r ∧ r.spill = some e2 ∧ inRange x e2 = true ∧ (table e2).isSome = true
    (∀ t ∈ a.placed, t.2.2.2 < cap ∧ t.2.2.2 < posOf a t.2.2.1) ∧
    (a.placed.map (fun t => (t.2.2.1, t.2.2.2))).Nodup ∧
    a.placed.Pairwise (fun t u => (t.1 < u.1 ∨ (t.1 = u.1 ∧ t.2.1 < u.2.1)) ∧ (t.2.2.1 = u.2.2.1 → t.2.2.2 < u.2.2.2)) ∧
    (∀ t ∈ a.placed, t.1 < x.n ∧ t.2.1 < x.k ∧ route t.1 t.2.1 ≠ 0xFFFFFFFF ∧
      ((t.2.2.1 = route t.1 t.2.1 ∧ (table t.2.2.1).isSome = true) ∨
        (spills (route t.1 t.2.1) t.2.2.1 ∧ posOf a (route t.1 t.2.1) = cap))) ∧
    (∀ e ∈ a.dropped, posOf a e = cap ∧ ∀ e2, spills e e2 → posOf a e2 = cap) ∧
    (∀ e, posOf a e = (a.placed.filter (fun t => t.2.2.1 == e)).length ∧ posOf a e ≤ cap) ∧
    (a.placed.length + a.dropped.length = a.routed.length) ∧
    (a.routed.length + a.unrouted =
      (((List.range x.n).flatMap (fun n => (List.range x.k).map (route n))).filter (fun e => e != 0xFFFFFFFF)).length)

/-- R244, R245, R247: a tile's engine takes its first request of the row's OP; a descriptor that fails its checks fails the
exchange with detail 0x2500 and the offset, and one that passes is carried out as the row says. R246, R251: a RECEIVE runs until
its records have arrived; records of other modules are counted for their partition, exchange, kind and source with their rows
written, none before the first resynchronisation since reset (R341); a completion, which waits while a record of the exchange still waits to
be sent, adds one to the DONE_TOKEN of the cluster that serves the requesting slice (it waits while that is suspended, log
entry 78, and adds nothing once it has ended, R458); a RECEIVE that has waited EXP_RECV_LIMIT beats ends its slice with detail
0x2591. R242, R243, R255: a cluster's write of its partition's whole doorbell line is stored and passes one request to the engine
of the line's home; any other write of a doorbell line is stored and reported as misuse; a read of EXP_LOAD returns both counts
and clears them. -/
def Obligations.Exchanges : Prop :=
  (∀ (s : State) (tile : Fin 4) (r : ExchReq) (i : Instr) (op : Nat) (go : State → Nat → ExchConfig → ExchReq → ExchDesc → State),
    (i, op, go) ∈ [(Instr.exchDispatch tile, 0, fun s p g r x => doDispatch s tile.val p g r x),
      (.exchReturn tile, 1, fun s p g r x => doReturn s tile.val p g r x), (.exchCombine tile, 2, fun s p g r x => doCombine s tile.val p g r x),
      (.exchReceive tile, 3, fun s p g r x => doReceive s tile.val p g r x), (.exchShift tile, 4, fun s p _ r x => doShift s tile.val p r x)] →
    s.phase = .running → firstRequest op [] (exchEngine s tile.val).queue = some r →
    let u := admitHeld (setExch s tile.val { exchEngine s tile.val with queue := dropRequest r (exchEngine s tile.val).queue }) tile.val
    let g := exchConfig u r.partition
    (exchFault g r.desc = none → exec i s = .next (go u r.partition g r (exchDesc r.desc))) ∧
    (∀ o, exchFault g r.desc = some o → exec i s = .next (exchFails u tile.val r 0 o .badParam (0x2500 + o)))) ∧
  (∀ (s : State) (t p : Nat) (g : ExchConfig) (r : ExchReq) (x : ExchDesc),
    (exchEngine (doReceive s t p g r x) t).running = (exchEngine s t).running ++
      [⟨r, p, x.id, x.recv, x.src, recordsExpected s t p g x, true, s.beat.waits, false⟩]) ∧
  (∀ (s : State) (tile : Fin 4) (r : ExchRecord),
    (s.beat.synced = false → exec (.exchangeRecordArrive tile r) s = .next s) ∧
    (s.phase = .running → s.beat.synced = true → partActive s r.partition.val = true →
      exec (.exchangeRecordArrive tile r) s = .next (holdRecord (writeRows r.partition.val tile.val s r.rows) tile.val r.partition.val
        r.exchId.toNat r.kind.val r.srcIdx.val 1))) ∧
  (∀ (s : State) (tile : Fin 4) (n : Nat) (lost : Bool) (v : ExchRun), exchRun s tile.val n = some v →
    let gone := dropExch s tile.val n v
    (((v.receive = true ∧ v.expect ≤ recordsFor (exchEngine s tile.val) v) ∨ (v.receive = false ∧ lost = false ∧ exchUnsent s v = false)) →
      (∀ c, exchServer s v.req = some c →
        exec (.exchangeComplete tile n lost) s = .next (addToken gone c (exchDesc v.req.desc).done 1 3)) ∧
      (exchServer s v.req = none →
        exec (.exchangeComplete tile n lost) s = .next (if exchLives s v.req = true then s else gone))) ∧
    (v.receive = true → recordsFor (exchEngine s tile.val) v < v.expect → exec (.exchangeComplete tile n lost) s = .next s) ∧
    (v.receive = false → exchUnsent s v = true → exec (.exchangeComplete tile n false) s = .next s) ∧
    (v.receive = false → lost = true → v.remote = true → exec (.exchangeComplete tile n lost) s =
      .next (exchFails gone tile.val v.req 3 0 .peerLost 0x2592))) ∧
  (∀ (s : State) (r : ExchReq) (c : Nat), exchServer s r = some c →
    clusterServes (cluster s c) = true ∧ (cluster s c).run = r.run ∧ (cluster s c).slice = r.slice ∧ (cluster s c).rank = r.rank) ∧
  (∀ (s : State) (tile : Fin 4) (n : Nat) (v : ExchRun), exchRun s tile.val n = some v → v.receive = true →
    recordsFor (exchEngine s tile.val) v < v.expect → v.since + getBits (getReg s .expRecvLimit tile.val 0) 0 32 ≤ s.beat.waits →
    exec (.receiveLimitExpire tile n) s =
      .next (exchFails (dropExch s tile.val n { v with receive := false }) tile.val v.req 2 0 .peerLost 0x2591)) ∧
  (∀ (s : State) (c : Fin 64) (addr : BitVec 44) (data : List Byte), clusterServes (cluster s c.val) = true →
    isDoorbell s (addr.toNat / 128) = true → addr.toNat % 128 + data.length ≤ 128 →
    let v := cluster s c.val
    let p := v.partition
    let t := storeLine s (waysOf s (some p)) addr.toNat data
    (data.length = 128 → doorbellOf s p = some addr.toNat → writeLost t addr.toNat 128 = none →
      exec (.expDoorbellWrite c addr data) s = .next (pushRequest t (homeOf s addr.toNat)
        ⟨c.val, none, data, v.run, v.slice, v.rank, p, clusterSeed s c.val⟩)) ∧
    ((data.length ≠ 128 ∨ doorbellOf s p ≠ some addr.toNat) → accessError s (some p) (c.val / 16) addr.toNat data.length = none →
      exec (.expDoorbellWrite c addr data) s = .next (writeRange s (waysOf s (some p)) addr.toNat data))) ∧
  (∀ (s : State) (t : Nat) (r : ExchReq),
    let e := exchEngine s t
    let e' := exchEngine (pushRequest s t r) t
    (e.queue.length < 256 → e.held = [] → e'.queue = e.queue ++ [r] ∧ e'.held = []) ∧
    ((256 ≤ e.queue.length ∨ e.held ≠ []) → e'.queue = e.queue ∧ e'.held = e.held ++ [r])) ∧
  (∀ (s : State) (a : Agent) (tile : Fin 4) (entry : Fin 65536), s.phase = .running →
    let w := getReg s .expLoad tile.val entry.val
    ∃ t, exec (.expLoadRead a tile entry) s = .next t ∧ t.reply = some ⟨a, false, w⟩ ∧
      getReg t .expLoad tile.val entry.val = setBits w 0 63 0 ∧ t = { s with reply := t.reply, regs := t.regs })

/-! ### Coherence (10_cellar_coherence.md) -/

/-- R301, R317: the requests that a home takes: the command, its type, its message type and, for an atomic, its AOP. -/
def homeRequests (home : Fin 4) (m : CohMsg) : List (Instr × ReqType × Nat × Option Nat) :=
  [(.rdShared home m, .rdShared, 0x01, none), (.rdOwn home m, .rdOwn, 0x02, none), (.upgrade home m, .upgrade, 0x03, none),
   (.rdNc home m, .rdNc, 0x06, none), (.wrNc home m, .wrNc, 0x07, none), (.reduce home m, .reduce, 0x09, none),
   (.atomicSwap home m, .atomic, 0x08, some 0), (.atomicCas home m, .atomic, 0x08, some 1), (.atomicAdd home m, .atomic, 0x08, some 2),
   (.atomicAnd home m, .atomic, 0x08, some 3), (.atomicOr home m, .atomic, 0x08, some 4), (.atomicXor home m, .atomic, 0x08, some 5),
   (.atomicSmin home m, .atomic, 0x08, some 6), (.atomicSmax home m, .atomic, 0x08, some 7),
   (.atomicUmin home m, .atomic, 0x08, some 8), (.atomicUmax home m, .atomic, 0x08, some 9),
   (.atomicFadd home m, .atomic, 0x08, some 10), (.atomicFmin home m, .atomic, 0x08, some 11),
   (.atomicFmax home m, .atomic, 0x08, some 12), (.atomicSc home m, .atomic, 0x08, some 13)]

/-- R302 to R305, R309, R310: a well-formed request for memory of its home is outstanding at its requester and is placed there; a
malformed one is discarded and reported, and stays without a reply. A request is admitted when its line has no open transaction and no
waiting request and its set has a place; it waits in the queue otherwise, or is refused when that is full. One with REFUSALS 8 takes its
requester's reserved slot, and is refused while that is occupied. An admitted request for a line that no agent holds is carried out at
once, with an entry of its own; one for a line that another agent owns snoops the owner and stays open. That a discarded message stays
outstanding at the requester that its header names is the model's choice, log entry 77. -/
def Obligations.HomeRequests : Prop :=
  (∀ (s : State) (home : Fin 4) (m : CohMsg) (i : Instr) (typ : ReqType) (code : Nat) (aop : Option Nat),
    (i, typ, code, aop) ∈ homeRequests home m →
    let h := cohHdr m
    let r := headerRequest h typ m
    (cohBad m = true → exec i s = .next (discardRequest s home.val typ m)) ∧
    (cohBad m = false → h.typ = code → (∀ k, aop = some k → h.aop = k) → isMemory s (128 * h.line) = true →
      homeOf s (128 * h.line) = home.val → (typ = .rdShared ∨ typ = .rdOwn ∨ typ = .upgrade → h.src < 132) →
      (h.src < 132 → agentFailed s h.src = false) → isRetired s (128 * h.line) = false →
      exec i s = .next (placeRequest (noteRequest s r h.refusals) home.val r h.refusals))) ∧
  (∀ (s : State) (home : Fin 4) (typ : ReqType) (m : CohMsg), (cohHdr m).src < 216 →
    let t := discardRequest s home.val typ m
    t.outstanding = (noteRequest s (headerRequest (cohHdr m) typ m) (cohHdr m).refusals).outstanding ∧
    t = { s with outstanding := t.outstanding, regs := t.regs, mgmt := t.mgmt } ∧
    getReg t .dirBadMsg home.val 0 = countWord 63 (getReg s .dirBadMsg home.val 0) 1) ∧
  (∀ (s : State) (home : Nat) (r : CohReq) (n : Nat),
    let t := placeRequest s home r n
    let nack : CohOut := ⟨0x15, r.src, home, r.src, r.tag, r.line, [], 0, false⟩
    (n = 8 → (∃ x ∈ reservedOf s home, x.src = r.src) → t.cohOut = s.cohOut ++ [nack] ∧ t.txns = s.txns) ∧
    (n = 8 → (∀ x ∈ reservedOf s home, x.src ≠ r.src) →
      (canAdmit s home r.line = true → t = admitRequest (count s .dirReserved home 0) home r) ∧
      (canAdmit s home r.line = false → reservedOf t home = reservedOf s home ++ [r] ∧ t.txns = s.txns)) ∧
    (n ≠ 8 →
      (canAdmit s home r.line = true → t = admitRequest s home r) ∧
      (canAdmit s home r.line = false → (homeQueueOf s home).length < 1024 → homeQueueOf t home = homeQueueOf s home ++ [r]) ∧
      (canAdmit s home r.line = false → 1024 ≤ (homeQueueOf s home).length → t.cohOut = s.cohOut ++ [nack] ∧ t.txns = s.txns)) ∧
    (canAdmit s home r.line = true → pinned s r.line = false ∧ openInSet s home (dirSet r.line) < 8 ∧
      ∀ x ∈ reservedOf s home ++ homeQueueOf s home, x.line ≠ r.line)) ∧
  (∀ (s : State) (home : Nat) (r : CohReq), dirEntry s r.line = none → (dirEntriesOf s home (dirSet r.line)).length < 16 →
    admitRequest s home r = finishRequest (allocEntry s r.line) home r) ∧
  (∀ (s : State) (home o n : Nat) (r : CohReq), dirEntry s r.line = some ⟨true, [o], n⟩ → agentFailed s o = false → o ≠ r.src →
    r.typ ≠ .writeBack → r.typ ≠ .evict →
    let t := admitRequest s home r
    t = { s with cohOut := t.cohOut, txns := t.txns } ∧
    t.cohOut = s.cohOut ++ [⟨if r.typ = .rdShared ∨ r.typ = .rdNc then 0x21 else 0x22, o, home, r.src, r.tag, r.line, [], 0, false⟩] ∧
    t.txns = s.txns ++ [⟨home, r, [(o, r.line)], s.beat.waits⟩])

/-- R305, R315, R317, R318, R319: what a request that is carried out does to a line in the cellar. A WR_NC replaces the bytes that its mask
selects; an atomic answers the element's old value and writes the new one, and nothing else; SC writes its operand only while its
agent's reservation names the line, and answers 0 then and 1 otherwise; a REDUCE applies its operation to each element that its mask
selects and replies COMPLETE; a poisoned sector answers POISONED to an atomic or a reduction. -/
def Obligations.HomeEffects : Prop :=
  (∀ (s : State) (home : Nat) (r : CohReq) (c : CelLine), cellarLine s r.line = some c → c.data.length = 128 → r.payload.length = 144 →
    c.poison = 0#4 →
    ∃ c', cellarLine (applyMasked s home r) r.line = some c' ∧ ∀ k < 128,
      c'.data[k]? = if natBit (fieldLe r.payload 128 16) k then r.payload[k]? else c.data[k]?) ∧
  (∀ (s : State) (home : Nat) (r : CohReq) (c : CelLine), cellarLine s r.line = some c → c.data.length = 128 →
    let size := if r.size8 then 8 else 4
    let old := fieldLe c.data r.offset size
    let t := applyAtomic s home r c.data
    r.offset + size ≤ 128 →
    (r.aop ≤ 12 → t.cohOut = s.cohOut ++ [⟨0x14, r.src, home, r.src, r.tag, r.line, leBytes 8 old, 0, false⟩] ∧
      ∃ c', cellarLine t r.line = some c' ∧
        fieldLe c'.data r.offset size = aopValue r.aop size old (fieldLe r.payload 0 size) (fieldLe r.payload 8 size) ∧
        ∀ k < 128, (k < r.offset ∨ r.offset + size ≤ k) → c'.data[k]? = c.data[k]?) ∧
    (r.aop = 13 → holdsReservation s home r.src r.line = true →
      t.cohOut = s.cohOut ++ [⟨0x14, r.src, home, r.src, r.tag, r.line, leBytes 8 0, 0, false⟩] ∧
      ∃ c', cellarLine t r.line = some c' ∧ fieldLe c'.data r.offset size = fieldLe r.payload 0 size) ∧
    (r.aop = 13 → holdsReservation s home r.src r.line = false →
      t.cohOut = s.cohOut ++ [⟨0x14, r.src, home, r.src, r.tag, r.line, leBytes 8 1, 0, false⟩] ∧ t.cellar = s.cellar) ∧
    (r.aop = 13 → r.src < 256 → ∀ home', holdsReservation t home' r.src r.line = false)) ∧
  (∀ (s : State) (home : Nat) (r : CohReq) (c : CelLine) (e : Nat), cellarLine s r.line = some c → c.data.length = 128 →
    r.payload.length = 32 → r.offset + 32 ≤ 128 →
    let size := if r.size8 then 8 else 4
    let old := fieldLe c.data (r.offset + e * size) size
    e * size < 32 →
    let t := applyReduce s home r c.data
    t.cohOut = s.cohOut ++ [⟨0x13, r.src, home, r.src, r.tag, r.line, [], 0, false⟩] ∧
    ∃ c', cellarLine t r.line = some c' ∧
      fieldLe c'.data (r.offset + e * size) size =
        if natBit r.emask e then aopValue r.aop size old (fieldLe r.payload (e * size) size) 0 else old) ∧
  (∀ (s : State) (home : Nat) (r : CohReq) (c : CelLine), r.typ = .atomic ∨ r.typ = .reduce →
    cellarLine s r.line = some c → natBit c.poison.toNat (r.offset / 32) = true →
    (finishRequest s home r).cohOut = s.cohOut ++ [⟨0x16, r.src, home, r.src, r.tag, r.line, [], 0x2810 + home, false⟩] ∧
    (finishRequest s home r).cellar = s.cellar)

/-- R302, R305, R307, R309, R315, R317: a reply that answers an outstanding request takes it from the outstanding ones and leaves the
requester with its copy: DATA_S a shared one for RD_SHARED, DATA_E an owned one, GRANT ownership of the copy it has; a NACK has the
request sent again with REFUSALS one higher, at most 8. R302, R315, R280: a POISONED reply ends the slice of a data mover that
still serves the one it asked for, and the work in progress of an exchange engine, a clearing unit or a mill; that this is what the unit
has had in progress longest, and that an arriving packet's accesses leave the network none, is the model's choice, log entry 77. An
agent answers a snoop at once: with the line's data, and DIRTY when it has modified its own copy, where it holds one that SNP_DATA or
SNP_INV_DATA asks for, and with SNP_ACK where it holds none, or holds none by the time the snoop arrives (R307); it keeps a clean shared
copy after it has answered SNP_DATA with data, and none after the others. -/
def Obligations.RequesterMessages : Prop :=
  (∀ (s : State) (home : Fin 4) (m : CohMsg) (o : Outstanding), cohBad m = false → findOutstanding s (cohHdr m) = some o →
    let h := cohHdr m
    let u := replied s h
    u.outstanding = s.outstanding.filter (fun x => !(x.req.src == h.src && x.req.tag == h.tag)) ∧
    (h.typ = 0x10 → exec (.dataS home m) s =
      .next (if o.req.typ = .rdShared then putCopy u h.src h.line false m.payload else u)) ∧
    (h.typ = 0x11 → exec (.dataE home m) s = .next (putCopy u h.src h.line true m.payload)) ∧
    (h.typ = 0x12 → exec (.cohGrant home m) s = .next { u with copies := s.copies.map (fun c =>
      if c.agent = h.src ∧ c.line = h.line then { c with excl := true } else c) }) ∧
    (h.typ = 0x13 → exec (.cohComplete home m) s = .next u) ∧
    (h.typ = 0x14 → exec (.atomicResult home m) s = .next u) ∧
    (h.typ = 0x15 → ∃ t, exec (.cohNack home m) s = .next t ∧
      t.outstanding = u.outstanding ++ [{ o with refusals := min 8 (o.refusals + 1), since := s.beat.waits }]) ∧
    (h.typ = 0x17 → exec (.cohDenied home m) s = .next u) ∧
    (h.typ = 0x16 → exec (.cohPoisoned home m) s = .next (poisonRequester u o (poisonReplyDetail u h m.payload)))) ∧
  (∀ (s : State) (o : Outstanding) (d : Nat),
    let src := o.req.src
    let tile := src % 4
    let mover := o.serves.isSome = true ∧ moverServes s src = o.serves
    (mover → poisonRequester s o d = endSlice s (src - 132) .poisoned d) ∧
    (¬ mover → (src < 196 ∨ 208 ≤ src) → poisonRequester s o d = s) ∧
    (¬ mover → 196 ≤ src → src < 200 → ∀ x rest, (exchEngine s tile).running = x :: rest →
      poisonRequester s o d = exchEnds (setExch s tile { exchEngine s tile with running := rest }) x.req .poisoned d) ∧
    (¬ mover → 200 ≤ src → src < 204 → poisonRequester s o d = poisonClearing s tile d) ∧
    (¬ mover → 204 ≤ src → src < 208 → poisonRequester s o d = poisonMill s tile d)) ∧
  (∀ (s : State) (home : Fin 4) (agent : Fin 132) (m : CohMsg) (held : AgentLine) (i : Instr) (code : Nat),
    (i, code) ∈ [(Instr.snpInv home agent m, 0x20), (.snpData home ⟨agent, held⟩ m, 0x21), (.snpInvData home ⟨agent, held⟩ m, 0x22)] →
    cohBad m = false → (cohHdr m).typ = code →
    let h := cohHdr m
    let out := takeOut code agent.val h.tag h.line s.cohOut
    let ack := (⟨0x28, 256 + home.val, home.val, agent.val, h.tag, h.line, [], 0, false⟩ : CohOut)
    let data := fun (d : List Byte) (dirty : Bool) =>
      (⟨0x29, 256 + home.val, home.val, agent.val, h.tag, h.line, d, 0, dirty⟩ : CohOut)
    ∃ t, exec i s = .next t ∧ t = { s with cohOut := t.cohOut, copies := t.copies } ∧
      (s.copies.find? (fun c => c.agent == agent.val && c.line == h.line) = none → t.cohOut = out ++ [ack] ∧ t.copies = s.copies) ∧
      (∀ c, s.copies.find? (fun c => c.agent == agent.val && c.line == h.line) = some c →
        ((code = 0x20 ∨ held = .gone) → t.cohOut = out ++ [ack]) ∧
        (code ≠ 0x20 → (held = .clean ∨ (c.excl = false ∧ held ≠ .gone)) → t.cohOut = out ++ [data c.data false]) ∧
        (code ≠ 0x20 → c.excl = true → ∀ d, held = .modified d → t.cohOut = out ++ [data d true]) ∧
        (code = 0x21 → held ≠ .gone → ∃ x ∈ t.copies, x.agent = agent.val ∧ x.line = h.line ∧ x.excl = false) ∧
        ((code ≠ 0x21 ∨ held = .gone) → ∀ x ∈ t.copies, x.agent = agent.val → x.line ≠ h.line)))

/-- R305, R306, R308, R311, R312: an owner's write-back and a sharer's eviction free the holder and are answered COMPLETE, the
write-back's data now in the cellar, modified when it says DIRTY; a snoop's answer is awaited no longer and the last closes its
transaction with the request carried out; a home with a free place in a set admits the first waiting request of it, a reserved slot's
first, and answers it DENIED when its agent has failed or its unit is retired meanwhile (R286, R313); 64 beats without a snoop's answer
fail the silent agents, poison the line and answer POISONED; R302: 128 beats without a reply end a request, with source 21 raised, and
the access completes POISONED with detail 0x2830 and the home at what the unit has in progress. A write-back or eviction of a line
outside memory is DENIED (R4, R259): the model's choice against R306, which refuses none, log entry 77. -/
def Obligations.HomeProgress : Prop :=
  (∀ (s : State) (home : Fin 4) (m : CohMsg) (n : Nat), cohBad m = false →
    let h := cohHdr m
    let done : CohOut := ⟨0x13, h.src, home.val, h.src, h.tag, h.line, [], 0, false⟩
    agentFailed s h.src = false → (∀ t ∈ s.txns, t.awaiting.contains (h.src, h.line) = false) → isMemory s (128 * h.line) = true →
    (h.typ = 0x04 → dirEntry s h.line = some ⟨true, [h.src], n⟩ → pinned s h.line = false → isRetired s (128 * h.line) = false →
      ∃ t, exec (.wb home m) s = .next t ∧ t.cohOut = s.cohOut ++ [done] ∧ dirEntry t h.line = none ∧
        (h.dirty = true → ∃ c, cellarLine t h.line = some c ∧ c.data = m.payload ∧ c.dirty = true ∧ c.poison = 0#4)) ∧
    (h.typ = 0x05 → ∀ hs, dirEntry s h.line = some ⟨false, hs, n⟩ → h.src ∈ hs → (∀ a ∈ hs, agentFailed s a = false) →
      ∃ t, exec (.evict home m) s = .next t ∧ t.cohOut = s.cohOut ++ [done] ∧
        liveHolders t h.line = hs.filter (fun a => a != h.src))) ∧
  (∀ (s : State) (home : Fin 4) (m : CohMsg) (x : Txn), cohBad m = false →
    let h := cohHdr m
    let u := { s with cohOut := takeOut h.typ (256 + home.val) h.tag h.line s.cohOut }
    s.txns.find? (fun t => t.home == home.val && t.awaiting.contains (h.src, h.line)) = some x → x.req.tag = h.tag →
    (h.typ = 0x28 → exec (.snpAck home m) s = .next (answered (if snoopType x h.line = 0x21 then
      putHolders u h.line false ((liveHolders u h.line).filter (fun a => a != h.src)) else u) x h.src h.line)) ∧
    (h.typ = 0x29 → exec (.snpAckData home m) s =
      .next (answered (if h.dirty then takeData u (requesterWays u x.req.src) h.src h.line true m.payload else u) x h.src h.line))) ∧
  (∀ (s : State) (x : Txn) (agent line : Nat), x.awaiting = [(agent, line)] →
    let u := afterSnoop s (snoopType x line) agent line
    let v := { u with txns := u.txns.filter (fun y => y.req.line != x.req.line) }
    (line ≠ x.req.line → answered s x agent line = finishRequest (allocEntry (tidyEntry v line) x.req.line) x.home x.req) ∧
    (line = x.req.line → x.req.typ ≠ .rdShared → answered s x agent line = finishRequest v x.home x.req) ∧
    (line = x.req.line → x.req.typ = .rdShared → answered s x agent line = tidyEntry (answerShared v x.home x.req) line)) ∧
  (∀ (s : State) (home : Fin 4) (set : Fin 32768) (r : CohReq) (u : State), openInSet s home.val set.val < 8 →
    ((nextWaiting s set.val (reservedOf s home.val) = some r ∧
        u = count (setReserved s home.val ((reservedOf s home.val).erase r)) .dirReserved home.val 0) ∨
      (nextWaiting s set.val (reservedOf s home.val) = none ∧ nextWaiting s set.val (homeQueueOf s home.val) = some r ∧
        u = setHomeQueue s home.val ((homeQueueOf s home.val).erase r))) →
    let denied := fun (t : State) => cohReply t home.val 0x17 r [] 0
    let failed := r.src < 132 ∧ agentFailed u r.src = true
    (failed → exec (.homeQueueAdmit home set) s = .next (denied u)) ∧
    (¬ failed → isRetired u (128 * r.line) = true →
      exec (.homeQueueAdmit home set) s = .next (denied (raiseEvent u (retiredSrc u (128 * r.line))))) ∧
    (¬ failed → isRetired u (128 * r.line) = false → exec (.homeQueueAdmit home set) s = .next (admitRequest u home.val r))) ∧
  (∀ (s : State) (home : Fin 4) (line : BitVec 37) (x : Txn),
    s.txns.find? (fun t => t.home == home.val && t.awaiting.any (fun p => p.2 == line.toNat)) = some x →
    x.since + 64 ≤ s.beat.waits → (∀ p ∈ x.awaiting, p.1 < 132) →
    ∃ t c, exec (.snoopTimeout home line) s = .next t ∧ t.txns = s.txns.filter (fun y => y.req.line != x.req.line) ∧
      dirEntry t line.toNat = none ∧ cellarLine t line.toNat = some c ∧ c.poison = 15#4 ∧
      (∀ p ∈ x.awaiting, p.2 = line.toNat → agentFailed t p.1 = true) ∧
      t.cohOut = s.cohOut ++ [⟨0x16, x.req.src, home.val, x.req.src, x.req.tag, x.req.line, [], 0x2800 + home.val, false⟩]) ∧
  (∀ (s : State) (agent : Fin 256) (tag : BitVec 16) (o : Outstanding),
    s.outstanding.find? (fun o => o.req.src == agent.val && o.req.tag == tag.toNat) = some o → o.since + 128 ≤ s.beat.waits →
    let home := lineTile s o.req.line
    let u := raiseEvent { s with outstanding := s.outstanding.filter (fun x => !(x.req.src == agent.val && x.req.tag == tag.toNat)) }
      (tileSrc home 21)
    (isMemory s (128 * o.req.line) = true → home = homeOf s (128 * o.req.line)) ∧
    exec (.coherenceRequestTimeout agent tag) s = .next (poisonRequester u o (0x2830 + home))) ∧
  (∀ (s : State) (home : Fin 4) (m : CohMsg), cohBad m = false →
    let h := cohHdr m
    let a := 128 * h.line
    let back := (h.typ = 0x04 ∧ ∃ t, exec (.wb home m) s = .next t ∧ t.cohOut = s.cohOut ++
        [⟨0x17, h.src, home.val, h.src, h.tag, h.line, [], 0, false⟩] ∧ t.copies = s.copies ∧ t.dir = s.dir) ∨
      (h.typ = 0x05 ∧ ∃ t, exec (.evict home m) s = .next t ∧ t.cohOut = s.cohOut ++
        [⟨0x17, h.src, home.val, h.src, h.tag, h.line, [], 0, false⟩] ∧ t.copies = s.copies ∧ t.dir = s.dir)
    (h.typ = 0x04 ∨ h.typ = 0x05) → agentFailed s h.src = false → isMemory s a = false → back)

/-! ### Memory (09_memory.md, 10_cellar_coherence.md) -/

/-- The home of a line is ready for an engine's access of it: it can admit a request at once, and the line's set has room. -/
def homeReady (s : State) (line : Nat) : Prop :=
  canAdmit s (homeOf s (128 * line)) line = true ∧ (dirEntriesOf s (homeOf s (128 * line)) (dirSet line)).length < 16

/-- R305, R315, R279: a line's write of whole sectors through its home is what a read of them gives next, without poison; while the line is
in the cellar and no agent owns it, the write changes no other line, no other byte of the line and nothing of the memory behind it. R312,
R313: an access of a line whose owner has failed is answered POISONED: a read without data, a write with detail 0x2820 and the home, the
line poisoned. A modified line that leaves the cellar leaves its bytes in memory. -/
def Obligations.HomeReadsBack : Prop :=
  (∀ (s : State) (ways ways' a : Nat) (bytes : List Byte), isRetired s a = false → a % 32 = 0 → bytes.length % 32 = 0 →
    0 < bytes.length → a % 128 + bytes.length ≤ 128 → (∀ c, cellarLine s (a / 128) = some c → c.data.length = 128) →
    homeReady s (a / 128) → lostOwner s (a / 128) = false → (∀ hs n, dirEntry s (a / 128) = some ⟨true, hs, n⟩ → hs.length ≤ 1) →
    let r := readLine (writeLine s ways a bytes) ways' a bytes.length
    firstPoison r.1 = none ∧ pieceBytes r.1 = bytes) ∧
  (∀ (s : State) (ways a : Nat) (bytes : List Byte) (c : CelLine), a % 128 + bytes.length ≤ 128 →
    cellarLine s (a / 128) = some c → c.data.length = 128 → homeReady s (a / 128) → ownerOf s (a / 128) = none →
    let t := writeLine s ways a bytes
    t.mem = s.mem ∧ (∀ l, l ≠ a / 128 → cellarLine t l = cellarLine s l) ∧
    ∃ c', cellarLine t (a / 128) = some c' ∧ ∀ k < 128, (k < a % 128 ∨ a % 128 + bytes.length ≤ k) → c'.data[k]? = c.data[k]?) ∧
  (∀ (s : State) (ways a n : Nat) (bytes : List Byte), isRetired s a = false → canAdmit s (homeOf s (128 * (a / 128))) (a / 128) = true →
    lostOwner s (a / 128) = true →
    let lost := fun (t : State) => ∃ c, cellarLine t (a / 128) = some c ∧ c.poison = 15#4
    (∀ p ∈ (readLine s ways a n).1, p.data = none) ∧ lost (readLine s ways a n).2 ∧ lost (writeLine s ways a bytes) ∧
    (0 < bytes.length → a % 128 + bytes.length ≤ 128 →
      writeLost (writeLine s ways a bytes) a bytes.length = some (0x2820 + homeOf s (128 * (a / 128))))) ∧
  (∀ (s : State) (line : Nat) (c : CelLine), cellarLine s line = some c → c.dirty = true → c.poison = 0#4 → c.data.length = 128 →
    isDown s (unitOf s (128 * line)) = false →
    cellarLine (evictLine s line) line = none ∧ memBytes (evictLine s line) (128 * line) 128 = c.data)

/-- R262 to R264, R273 to R277, R281 to R283, R290: a unit that is down poisons what is read of it and drops what is stored; a sector
with one or two bit errors is corrected and keeps its bytes, with three is poisoned; a whole sector stored clears its poison and takes
an injection armed for it. A change of SPREAD is refused while a partition holds memory of the tile, and leaves the tile's memory
undefined otherwise; the patrol scrub senses a sector; an old correction entry is freed; a read of the retirement reports takes the
oldest; only the management controller arms an injection. -/
def Obligations.MemoryEvents : Prop :=
  (∀ (s : State) (u : MemUnit), s.phase ≠ .off →
    ∃ t, exec (.stackDown u) s = .next t ∧ t = { s with unitDown := t.unitDown } ∧ isDown t (unitIndex u) = true) ∧
  (∀ (s : State) (sec : Nat),
    let t := senseSector s sec
    (isDown s (unitOf s (32 * sec)) = true →
      sectorPoison t sec = true ∧ ∀ b, storeSector s sec b = raiseEvent s (unitSrc (unitOf s (32 * sec)))) ∧
    (sectorPoison s sec = false → isDown s (unitOf s (32 * sec)) = false →
      ((sectorErrors s sec = 1 ∨ sectorErrors s sec = 2) →
        t.mem = s.mem ∧ sectorErrors t sec = 0 ∧ sectorPoison t sec = false) ∧
      (3 ≤ sectorErrors s sec → sectorPoison t sec = true ∧ sectorErrors t sec = 0))) ∧
  (∀ (s : State) (sec : Nat) (b : List Byte), b.length = 32 → isDown s (unitOf s (32 * sec)) = false →
    let arm := mapGet (fun _ => (0, 0)) s.inject (unitSite (unitOf s (32 * sec)))
    let t := storeSector s sec b
    memBytes t (32 * sec) 32 = b ∧ sectorPoison t sec = false ∧
    (∀ a, (a < 32 * sec ∨ 32 * sec + 32 ≤ a) → memByte t a = memByte s a) ∧
    (arm.1 ≠ 0 → arm.2 = sec → sectorErrors t sec = arm.1 ∧
      (mapGet (fun _ => (0, 0)) t.inject (unitSite (unitOf s (32 * sec)))).1 = 0) ∧
    ((arm.1 = 0 ∨ arm.2 ≠ sec) → sectorErrors t sec = 0 ∧ t.inject = s.inject)) ∧
  (∀ (s : State) (a : Agent) (tile : Fin 4) (spread : Bool), s.phase = .running →
    let i := Instr.spreadChange a tile spread
    let now := natBit (getReg s .memCfg tile.val 0).toNat 0
    (now = spread → exec i s = .next (answer s a false 0)) ∧
    (now ≠ spread → tileHeld s tile.val = true →
      exec i s = .next (reservedWrite (setFlag s .memStatus tile.val 0 9) a (tileSrc tile.val 20))) ∧
    (now ≠ spread → tileHeld s tile.val = false → ∃ t, exec i s = .next t ∧
      natBit (getReg t .memCfg tile.val 0).toNat 0 = spread ∧
      ∀ x, tile.val * 0x5000000000 ≤ x → x < (tile.val + 1) * 0x5000000000 → ∃ n, memByte t x = Config.freeByte n)) ∧
  (∀ (s : State) (sector : BitVec 39), s.phase = .running → isMemory s (32 * sector.toNat) = true →
    isRetired s (32 * sector.toNat) = false → s.beat.lost = false →
    natBit (scrubReg s (unitOf s (32 * sector.toNat))).toNat 40 = true →
    exec (.scrubRead sector) s = .next (senseSector s sector.toNat)) ∧
  (∀ (s : State) (u : MemUnit) (sector : BitVec 39),
    let n := unitIndex u
    let window := getBits (getReg s (if n < 16 then .memRetireThresh else .capRetireThresh) (unitSite n) 0) 16 40
    ∃ t, exec (.correctionEntryExpire u sector) s = .next t ∧ t = { s with corr := t.corr } ∧
      mapGet (fun _ => []) t.corr n = (mapGet (fun _ => []) s.corr n).filter (fun e =>
        !(e.sector == sector.toNat && decide (e.since + window < s.beat.waits)))) ∧
  (∀ (s : State) (a : Agent) (site : Fin 6), s.phase = .running → capAbsent s site.val = false →
    let q := mapGet (fun _ => (⟨[], false⟩ : ReportQueue)) s.reports site.val
    (q.reports = [] → exec (.retireReportRead a site) s = .next (answer s a false 0)) ∧
    (∀ r rest, q.reports = r :: rest → ∃ t, exec (.retireReportRead a site) s = .next t ∧ t = { s with reply := t.reply, reports := t.reports } ∧
      t.reply = some ⟨a, false, reportWord q⟩ ∧
      mapGet (fun _ => (⟨[], false⟩ : ReportQueue)) t.reports site.val = ⟨rest, false⟩)) ∧
  (∀ (s : State) (a : Agent) (site : Fin 6) (v : Word), s.phase = .running → capAbsent s site.val = false →
    (a = .mmc → ∃ t, exec (.injectWrite a site v) s = .next t ∧ t = { s with reply := t.reply, inject := t.inject } ∧
      mapGet (fun _ => (0, 0)) t.inject site.val = (getBits v 44 2, getBits v 5 39)) ∧
    (a ≠ .mmc → exec (.injectWrite a site v) s = .next (reservedWrite s a (controlSrc site.val))))

/-! ### The network (11_network_fabric.md) -/

/-- R324, R325: a frame arrives whole on port `n` of a running module, and the module supports it. -/
def arrives (s : State) (n : Fin 16) (f : FrameHead) (p : Packet) : Prop :=
  s.phase = .running ∧ (port s n.val).up = true ∧ f.corrupt = false ∧ frameBad f p = false

/-- R329, R331, R341: a packet reaches port `n` of a running module, passes the checks of every receiver and is addressed to it, and the
transport runs. -/
def reaches (s : State) (n : Fin 16) (f : FrameHead) (p : Packet) : Prop :=
  arrives s n f p ∧ headerOk p = true ∧ (netHdr p.hdr).dst = ownPkg s ∧
  payloadOk (netHdr p.hdr).typ p.payload = true ∧ transportOn s = true

/-- R330, R366: the numbered packets: the command, its type and, for CLEAR, its kind. -/
def numberedRows (n : Fin 16) (f : FrameHead) (p : Packet) : List (Instr × Nat × Option Nat) :=
  [(.netWrite n f p, 0, none), (.netReadReq n f p, 1, none), (.netReadResp n f p, 2, none), (.probeUp n f p, 5, some 0),
   (.probeDown n f p, 5, some 1), (.contribUp n f p, 5, some 2), (.partialUp n f p, 5, some 3), (.closeUp n f p, 5, some 4),
   (.resultDown n f p, 5, some 5), (.rollDown n f p, 5, some 6), (.clrAbort n f p, 5, some 7)]

/-- R328, R333, R334, R337, R338, R339, R353: a numbered packet of a source whose epoch is current is consumed when its sequence number
is the expected one, or opens its path afresh; a gap gets a NAK and a repetition an ACK; without a path, OPEN takes the tile's lowest
free entry, and a packet without it gets a NAK. A consumed WRITE raises the expected number and the settle count, and its effect is the
write that an inbound window admits; one that none admits, or whose target lies outside the partition's memory (R354), is counted,
reported and refused with a NAK DENIED. A READ_REQ is answered with the data, and a READ_RESP of an outstanding read writes it and
completes the command with the last byte. The model's choices (log entry 61): the lowest of several matching windows acts, the lowest
free inbound entry is taken, and a READ_RESP that belongs to no read is stored as an inbound WRITE is. -/
def Obligations.NumberedPackets : Prop :=
  (∀ (s : State) (n : Fin 16) (f : FrameHead) (p : Packet) (i : Instr) (typ : Nat) (kind : Option Nat),
    (i, typ, kind) ∈ numberedRows n f p → reaches s n f p →
    let h := netHdr p.hdr
    h.typ = typ → (∀ k, kind = some k → fieldBe p.payload 0 1 % 16 = k) →
    epochOf s h.tile h.src = some h.epoch → exec i s = .next (takeNumbered s f.ce h p.payload)) ∧
  (∀ (s : State) (ce : Bool) (h : NetHdr) (b : List Byte), findIn s h.src h.path = none →
    (h.open_ = false → takeNumbered s ce h b = sendNak s h 4 0) ∧
    (h.open_ = true → freeIn s h.tile = none → takeNumbered s ce h b = sendNak s h 5 0) ∧
    (∀ k, h.open_ = true → freeIn s h.tile = some k →
      takeNumbered s ce h b = consumePacket s k ⟨h.src, h.path, h.seq, 0, 0, 0, ce⟩ h b)) ∧
  (∀ (s : State) (ce : Bool) (h : NetHdr) (b : List Byte) (k : Nat) (v : InPath), findIn s h.src h.path = some (k, v) →
    let d := (h.seq + 2 ^ 24 - v.expect) % 2 ^ 24
    let v' := { v with ece := v.ece || ce }
    ((d = 0 ∨ (d < 2 ^ 23 ∧ h.open_ = true)) → takeNumbered s ce h b = consumePacket s k v' h b) ∧
    (0 < d → d < 2 ^ 23 → h.open_ = false → takeNumbered s ce h b = sendNak (setInPath s k (some v')) h 3 (lastSeq v)) ∧
    (2 ^ 23 ≤ d → takeNumbered s ce h b = sendAck (setInPath s k (some v')) k)) ∧
  (∀ (s : State) (k : Nat) (v : InPath) (h : NetHdr) (b : List Byte), h.typ = 0 →
    ∃ v', inPath (consumePacket s k v h b) k = some v' ∧ v'.expect = (h.seq + 1) % 2 ^ 24 ∧
      v'.settle = (v.settle + 1) % 2 ^ 64 ∧ v'.srcPkg = v.srcPkg ∧ v'.path = v.path ∧
      v'.owed = (if 8 ≤ v.owed + 1 then 0 else v.owed + 1)) ∧
  (∀ (s : State) (h : NetHdr) (right : Right) (a len w : Nat) (refuse : State → State) (go : State → Nat → State),
    h.addr % 2 ^ 48 = a → a < 2 ^ 44 →
    ((∀ x < 64, ¬(windowCovers s x right 0 a len = true ∧ windowFrom s x h.src = true)) →
      admitAccess s h right len refuse go = refuse (windowRefused s h.tile)) ∧
    ((List.range 64).find? (fun x => windowCovers s x right 0 a len && windowFrom s x h.src) = some w →
      let p := windowPart s w
      (partActive s p = true → accessError s (some p) h.tile a len = none → admitAccess s h right len refuse go = go s p) ∧
      (partActive s p = false → admitAccess s h right len refuse go = refuse (windowRefused s h.tile)) ∧
      (partActive s p = true → ∀ e, accessError s (some p) h.tile a len = some e → inStore a = false →
        (rangeIsMemory s a len && inPartition s p a len) = false →
        admitAccess s h right len refuse go = refuse (windowRefused s h.tile)))) ∧
  (∀ (s : State) (h : NetHdr) (ack : Nat) (b : List Byte),
    takeWrite s h ack b = admitAccess s h .write b.length (fun u => sendNak u h 1 ack)
      (fun u p => writeRange u (waysOf u (some p)) (h.addr % 2 ^ 44) b) ∧
    takeReadReq s h ack b = admitAccess s h .read (fieldBe b 8 4) (fun u => sendNak u h 1 ack)
      (fun u p => answerRead u h ack (fieldBe b 0 8) (fieldBe b 8 4) p)) ∧
  (∀ (s : State) (h : NetHdr) (ack : Nat) (b : List Byte),
    let a := h.addr % 2 ^ 44
    let space := h.addr / 2 ^ 44 % 16
    (2 ≤ space → takeReadResp s h ack b = sendNak s h 1 ack) ∧
    (space < 2 → readOf s h b.length = none → takeReadResp s h ack b = takeWrite s h ack b) ∧
    (∀ r, readOf s h b.length = some r → r.pkg = h.src ∧ r.path = h.path ∧ r.msg = h.msg ∧ space = 0 ∧ r.base ≤ a ∧
      a + b.length ≤ r.base + r.len ∧
      let u := writeReadData s r a b
      (r.len ≤ r.got + b.length → takeReadResp s h ack b =
        succeed { u with reads := u.reads.filter (fun x => x.cmd != r.cmd) } r.cmd 0) ∧
      (r.got + b.length < r.len → takeReadResp s h ack b =
        { u with reads := u.reads.filter (fun x => x.cmd != r.cmd) ++ [{ r with got := r.got + b.length }] })))

/-- R324, R325, R331, R335 to R339, R342, R346, R348, R349, R353: a frame that the FEC could not mend is dropped and counted; one that the
module does not support, or whose packet fails the checks of every receiver, is counted as discarded. An ACK frees the packets it
covers and completes their writes; a NAK DENIED ends the request it names, one for a gap resends from there, one for an unknown path
abandons the path, one at the receiver's limit ends the request it names. A packet of an older epoch is counted and dropped. A PROBE
records the neighbour of a port in DIRECT mode; a packet for another module leaves with HOPS one lower, or is discarded when that
would reach 0. The model's choices: NET_DISCARDS counts the frames that R325 drops, and a NAK SEQUENCE frees nothing (log entry 61);
the refusals for which no detail is named, NAK DENIED and LIMIT_REACHED among them, carry detail 0 (log entry 10). -/
def Obligations.ControlPackets : Prop :=
  (∀ (s : State) (n : Fin 16) (f : FrameHead) (mac : BitVec 48) (p : Packet) (i : Instr) (typ : Nat),
    (i, typ) ∈ [(Instr.netWrite n f p, 0), (.netReadReq n f p, 1), (.netReadResp n f p, 2), (.netAck n f p, 3), (.netNak n f p, 4),
      (.netProbe n f mac p, 6)] →
    s.phase = .running → (port s n.val).up = true → (netHdr p.hdr).typ = typ →
    (f.corrupt = true → exec i s = .next (count s .netPortFecUe (portTile n.val) (n.val % 4))) ∧
    (f.corrupt = false → (frameBad f p = true ∨ headerOk p = false) → exec i s = .next (discardAt s n.val))) ∧
  (∀ (s : State) (n : Fin 16) (f : FrameHead) (p : Packet), reaches s n f p →
    let h := netHdr p.hdr
    epochOf s h.tile h.src = some h.epoch →
    (h.typ = 3 → exec (.netAck n f p) s = .next (takeAck s h p.payload)) ∧
    (h.typ = 4 → h.nak = 1 → ∀ id, nakCmd s h = some id →
      exec (.netNak n f p) s = .next (fail (dropRead s id) id .denied 0)) ∧
    (h.typ = 4 → h.nak = 3 → exec (.netNak n f p) s = .next (retryPath s h.src h.path (fun u => !ackedBy h.ackSeq u.seq))) ∧
    (h.typ = 4 → h.nak = 4 → exec (.netNak n f p) s = .next (abandonPath s h.src h.path false)) ∧
    (h.typ = 4 → h.nak = 5 → ∀ id, nakCmd s h = some id → exec (.netNak n f p) s =
      .next (fail (dropRead (dropFromPath s [id] true (pathKey h.src h.path)) id) id .limitReached 0))) ∧
  (∀ (s : State) (h : NetHdr) (b : List Byte),
    let o := outPath s (pathKey h.src h.path)
    let freed := o.unacked.takeWhile (fun u => ackedBy h.ackSeq u.seq)
    ∃ more, (outPath (takeAck s h b) (pathKey h.src h.path)).unacked = o.unacked.drop freed.length ++ more ∧
      ∀ u ∈ freed, ∀ id, u.last = true → u.cmd = some id → (∀ c, findCmd s id = some c → writesOut c = true) →
        findCmd (takeAck s h b) id = none) ∧
  (∀ (s : State) (ce : Bool) (h : NetHdr) (b : List Byte) (e : Nat), epochOf s h.tile h.src = some e →
    let d := (h.epoch + 2 ^ 32 - e) % 2 ^ 32
    (2 ^ 31 < d → takeByEpoch s ce h b = count s .netStaleEpoch h.tile 0) ∧
    (0 < d → d ≤ 2 ^ 31 → h.open_ = true → takeByEpoch s ce h b = takeCurrent (resetEpoch s h) ce h b ∧
      epochOf (resetEpoch s h) h.tile h.src = some h.epoch) ∧
    (0 < d → d ≤ 2 ^ 31 → h.open_ = false → takeByEpoch s ce h b = sendNak (peerReset s h.src) h 4 0)) ∧
  (∀ (s : State) (n : Fin 16) (f : FrameHead) (mac : BitVec 48) (p : Packet), arrives s n f p →
    headerOk p = true → payloadOk 6 p.payload = true →
    let h := netHdr p.hdr
    h.typ = 6 → h.dst = ownPkg s → h.dst ≠ 0xFFFF → isDirect s n.val = true →
    ∃ t, exec (.netProbe n f mac p) s = .next t ∧ t = { s with regs := t.regs } ∧
      getReg t .netPortNeighbour (portTile n.val) (n.val % 4) = BitVec.ofNat 64 mac.toNat ∧
      getBits (getReg t .netPortStatus (portTile n.val) (n.val % 4)) 24 16 = h.src) ∧
  (∀ (s : State) (n : Fin 16) (f : FrameHead) (p : Packet), arrives s n f p → headerOk p = true →
    let h := netHdr p.hdr
    h.dst ≠ ownPkg s → h.dst ≠ 0xFFFF → (s.beat.synced = true ∨ h.typ = 6) →
    (2 ≤ h.hops → exec (.packetForward ⟨n, f⟩ p) s = .next (emitPacket s (portTile n.val) (lowerHops p))) ∧
    (h.hops ≤ 1 → exec (.packetForward ⟨n, f⟩ p) s = .next (discardAt s n.val)))

/-- R324, R325, R328, R334, R335, R344, R345, R349, R351: an ACK leaves 2 beats after a consumption that none covers. A path without
progress for RTO beats is resent, and abandoned after RETRY resends; its rate recovers by 1 % of the port's rate each 64 beats. A port
that loses a lane goes down and retrains; it comes up when its four lanes are locked and come from one far-end port (R595), and fails
when a retrain takes 10,000 beats or is the seventeenth. A retraining port stays lit, and one that has failed or is not enabled is dark
(R597). Only the management controller enables a port or sets the package ID. A port in DIRECT mode probes; priority flow control of its
class pauses and resumes it. -/
def Obligations.PortsAndTimers : Prop :=
  (∀ (s : State) (pkg : BitVec 16) (path : BitVec 12) (k : Nat) (v : InPath), s.phase = .running →
    findIn s pkg.toNat path.toNat = some (k, v) → inPath s k = some v → 0 < v.owed → v.owedSince + 2 ≤ s.beat.waits →
    exec (.ackTimer pkg path) s = .next (sendAck s k) ∧
    inPath (sendAck s k) k = some { v with owed := 0, ece := false }) ∧
  (∀ (s : State) (pkg : BitVec 16) (path : BitVec 12), s.phase = .running → transportOn s = true →
    let k := pathKey pkg.toNat path.toNat
    let o := outPath s k
    let retry := getBits (getReg s .netTransport 0 0) 32 8
    o.unacked ≠ [] → o.since + getBits (getReg s .netTransport 0 0) 0 32 ≤ s.beat.waits →
    (retry ≤ o.resends → exec (.rtoExpire pkg path) s = .next (abandonPath s pkg.toNat path.toNat false)) ∧
    (o.resends < retry → ∃ t, exec (.rtoExpire pkg path) s = .next t ∧
      t = { s with ports := t.ports, outPaths := t.outPaths, netOut := t.netOut, loopback := t.loopback, regs := t.regs } ∧
      outPath t k = { o with resends := o.resends + 1, since := s.beat.waits })) ∧
  (∀ (s : State) (pkg : BitVec 16) (path : BitVec 12), s.phase = .running →
    let k := pathKey pkg.toNat path.toNat
    let o := outPath s k
    o.rate < 1000000 → o.rateSince + 64 ≤ s.beat.waits → exec (.rateRecover pkg path) s =
      .next (setOutPath s k { o with rate := min 1000000 (o.rate + 10000), rateSince := o.rateSince + 64 })) ∧
  (∀ (s : State) (lane : Fin 64), s.phase = .running →
    let n := lane.val / 4
    let recent := (port s n).retrains.filter (fun t => decide (s.beat.waits - t < 1048576))
    (port s n).up = true → ∃ t, exec (.laneLockLoss lane) s = .next t ∧ (port t n).up = false ∧
      (port t n).lanes = [false, false, false, false] ∧ (port t n).held = [] ∧
      (recent.length < 16 → (port t n).retraining = some s.beat.waits ∧ (port t n).failed = (port s n).failed ∧
        portLit t n = portLit s n) ∧
      (16 ≤ recent.length → (port t n).retraining = none ∧ (port t n).failed = true ∧ portLit t n = false) ∧
      ∀ m, m ≠ n → port t m = port s m) ∧
  (∀ (s : State) (n : Fin 16) (far : List Nat), s.phase = .running →
    let p := port s n.val
    (natBit (portCtrl s n.val).toNat 0 = true → p.up = false → p.failed = false → ∀ x, far = [x, x, x, x] →
      exec (.portRetrainDone ⟨n, far⟩) s =
        .next (setPort s n.val { p with up := true, lanes := fourLanes true, retraining := none, probeSince := s.beat.waits })) ∧
    ((∀ x, far ≠ [x, x, x, x]) → exec (.portRetrainDone ⟨n, far⟩) s = .next s) ∧
    (∀ t, p.retraining = some t → t + 10000 ≤ s.beat.waits → exec (.portFailed n) s = .next (failPort s n.val) ∧
      (port (failPort s n.val) n.val).failed = true ∧ (port (failPort s n.val) n.val).up = false ∧
      portLit (failPort s n.val) n.val = false)) ∧
  (∀ (s : State) (a : Agent) (n : Fin 16) (enable : Bool), s.phase = .running →
    (a = .mmc → exec (.portEnableWrite a n enable) s = .next (answer (enablePort s n.val enable) a false 0)) ∧
    (a ≠ .mmc → exec (.portEnableWrite a n enable) s = .next (answer s a false 0)) ∧
    natBit (portCtrl (enablePort s n.val enable) n.val).toNat 0 = enable ∧ portLit (enablePort s n.val enable) n.val = enable) ∧
  (∀ (s : State) (a : Agent) (pkg : BitVec 16), s.phase = .running →
    (a = .mmc → ∃ t, exec (.pkgIdWrite a pkg) s = .next t ∧ ownPkg t = pkg.toNat) ∧
    (a ≠ .mmc → exec (.pkgIdWrite a pkg) s = .next (reservedWrite s a (tileSrc 0 26)))) ∧
  (∀ (s : State) (n : Fin 16), s.phase = .running → (port s n.val).up = true →
    let p := port s n.val
    (isDirect s n.val = true → ownPkg s ≠ 0xFFFF → p.probeSince + 1000 ≤ s.beat.waits → exec (.probeTimer n) s =
      .next (putOn (setPort s n.val { p with probeSince := s.beat.waits }) n.val (probePacket s n.val))) ∧
    (∀ pcp : Fin 8, natBit (portCtrl s n.val).toNat 8 = true → getBits (portCtrl s n.val) 9 3 = pcp.val →
      exec (.pfcFrame n true pcp) s = .next (setPort s n.val { p with paused := true }) ∧
      ∃ t, exec (.pfcFrame n false pcp) s = .next t ∧ port t n.val = { p with paused := false, held := [], heldRoce := [] } ∧
        t.netOut = s.netOut ++ p.held.map (fun x => ⟨n.val, frameOf s n.val x, x⟩) ∧ t.roceOut = s.roceOut ++ p.heldRoce))

/-- R353 to R356, R423, R425: an inbound RDMA WRITE that the named window admits is applied, acknowledged and counted, and an RDMA READ
answered with the data; what no window admits is refused with the remote-access error, counted and reported. A packet with another
P_Key, a wrong invariant CRC or an unsupported path MTU is not taken, and an operation that carries CE is answered with a CNP as well. A
CNP halves a queue pair's rate; an acknowledgement completes the writes whose last messages it covers; the retry timer resends seven
times and then resets the pair, or ends the wait that an RNR NAK began; the data of a read are written where its command asked. R325, R327,
R328, R355: every message leaves in packets of the path MTU at most, with P_Key 0xFFFF and the invariant CRC, in frames to UDP port 4791
with ECT(0) and Don't Fragment set, on a SWITCHED port to its gateway, held while the port is paused. The model's own choices: the retry
timer ends an RNR hold uncounted, the oldest read takes the data, a pair's tile is its number modulo 4 and the split of an address (log
entry 62); the port, the ends, the path MTU and a DIRECT port's destination MAC of a pair are free (log entry 79). -/
def Obligations.QueuePairs : Prop :=
  (∀ (s : State) (qp : Fin 1024) (addr : BitVec 64) (rkey : BitVec 32) (f : RoceHead) (data : List Byte) (len : BitVec 32),
    takesRoce s f = true →
    let u := answerCe s qp.val f.ce
    let a := addr.toNat % 2 ^ 44
    let site := qp.val % 4
    addr.toNat % 2 ^ 48 < 2 ^ 44 →
    (rkeyWindow s rkey.toNat = none →
      exec (.roceRdmaWrite qp addr rkey f data) s = .next (answerRoce (windowRefused u site) qp.val .accessNak []) ∧
      exec (.roceRdmaRead qp addr rkey f len) s = .next (answerRoce (windowRefused u site) qp.val .accessNak [])) ∧
    (∀ w, rkeyWindow s rkey.toNat = some w → partActive s (windowPart s w) = true →
      let who := some (windowPart s w)
      (windowCovers s w .write 0 a data.length = true → accessError s who site a data.length = none →
        exec (.roceRdmaWrite qp addr rkey f data) s =
          .next (bumpQp (writeRange (answerRoce u qp.val .ack []) (waysOf s who) a data) qp.val)) ∧
      (windowCovers s w .read 0 a len.toNat = true → accessError s who site a len.toNat = none →
        let r := readRange u (waysOf s who) a len.toNat
        (firstPoison r.1 = none → exec (.roceRdmaRead qp addr rkey f len) s =
          .next (answerRoce r.2 qp.val .readResp (pieceBytes r.1)))))) ∧
  (∀ (s : State) (qp : Fin 1024) (addr : BitVec 64) (rkey : BitVec 32) (f : RoceHead) (data : List Byte) (len : BitVec 32) (n : BitVec 16),
    (s.phase ≠ .running ∨ f.pkey ≠ 0xFFFF ∨ f.icrc = false ∨ f.mtu ∉ [1024, 2048, 4096]) →
    ∀ i ∈ [Instr.roceRdmaWrite qp addr rkey f data, .roceRdmaRead qp addr rkey f len, .roceCnp ⟨qp, f⟩, .roceAck ⟨qp, f⟩ n, .roceRnrNak ⟨qp, f⟩,
      .roceReadResponse ⟨qp, f⟩ data, .rocePeerReset ⟨qp, f⟩], exec i s = .next s) ∧
  (∀ (s : State) (qp : Fin 1024) (f : RoceHead), s.phase = .running →
    let v := qpair s qp.val
    (takesRoce s f = true → exec (.roceCnp ⟨qp, f⟩) s = .next (setQpair s qp.val { v with rate := v.rate / 2 })) ∧
    (takesRoce s f = true → exec (.rocePeerReset ⟨qp, f⟩) s = .next (qpReset (answerCe s qp.val f.ce) qp.val)) ∧
    (takesRoce s f = true → v.out ≠ [] →
      exec (.roceRnrNak ⟨qp, f⟩) s = .next (setQpair (answerCe s qp.val f.ce) qp.val { v with rnrHeld := true })) ∧
    (v.out ≠ [] → v.rnrHeld = true → exec (.roceRetryTimeout qp) s =
      .next (v.out.foldl putRoce (setQpair s qp.val { v with rnrHeld := false }))) ∧
    (v.out ≠ [] → v.rnrHeld = false → v.retries < 7 → exec (.roceRetryTimeout qp) s =
      .next (v.out.foldl putRoce (setQpair s qp.val { v with retries := v.retries + 1 }))) ∧
    (v.out ≠ [] → v.rnrHeld = false → 7 ≤ v.retries → exec (.roceRetryTimeout qp) s = .next (qpReset s qp.val))) ∧
  (∀ (s : State) (qp : Fin 1024) (f : RoceHead) (n : BitVec 16), takesRoce s f = true →
    let v := qpair s qp.val
    let freed := v.out.take n.toNat
    freed ≠ [] → ∃ t more, exec (.roceAck ⟨qp, f⟩ n) s = .next t ∧ (qpair t qp.val).out = v.out.drop n.toNat ++ more ∧
      ∀ m ∈ freed, ∀ id, m.last = true → m.cmd = some id → (∀ c, findCmd s id = some c → writesOut c = true) →
        findCmd t id = none) ∧
  (∀ (s : State) (qp : Fin 1024) (f : RoceHead) (data : List Byte) (r : ReadOut), takesRoce s f = true →
    s.reads.find? (fun r => r.path == 4096 + qp.val) = some r →
    let b := data.take (r.len - r.got)
    let u := writeReadData (answerCe s qp.val f.ce) r (r.base + r.got) b
    (r.got + b.length < r.len → exec (.roceReadResponse ⟨qp, f⟩ data) s =
      .next { u with reads := u.reads.map (fun x => if x.cmd = r.cmd then { x with got := x.got + b.length } else x) }) ∧
    (r.len ≤ r.got + b.length → ∃ t, exec (.roceReadResponse ⟨qp, f⟩ data) s = .next t ∧ findCmd t r.cmd = none ∧
      ∀ x ∈ t.reads, x.cmd ≠ r.cmd)) ∧
  (∀ (s : State) (m : RoceMsg),
    let n := Config.rocePort m.qp % 16
    let mtu := 1024 * 2 ^ (Config.roceMtu m.qp).val
    let p := port s n
    ((p.up = false → putRoce s m = s) ∧ ∃ l : List RoceOut,
      l.flatMap (fun o => o.piece.data) = m.data ∧
      (∀ o ∈ l, o.port = n ∧ o.pkey = 0xFFFF ∧ o.icrc = true ∧ o.piece.data.length ≤ mtu ∧ o.piece.qp = m.qp ∧
        o.frame.dstPort = 4791 ∧ o.frame.ecn = 2 ∧ o.frame.df = true ∧
        (isDirect s n = false → o.frame.dstMac = nextMac s n) ∧ (isDirect s n = true → o.frame.dstMac = Config.roceMac m.qp)) ∧
      (p.up = true → p.paused = false → putRoce s m = { s with roceOut := s.roceOut ++ l }) ∧
      (p.up = true → p.paused = true → putRoce s m = setPort s n { p with heldRoce := p.heldRoce ++ l })))

/-! ### The cluster beat and the ledger (15_beat_power.md) -/

/-- R459 to R462, R465 to R470, R539: an edge too soon is a glitch; any other counts one beat, moves every wait and the hold-off groups,
and leaves the counter where it stands while a correction holds it back; the close beats that the counter has reached fire in ascending
order. A resynchronisation moves the counter to PTP time at once when it lies ahead and holds it when it lies behind; the first one sets
the epoch; without PTP lock it is a miss. The fourth missing pulse brings beat loss into force, and the sixteenth qualifying edge ends
it. That every resynchronisation replaces HOLD_LEFT, and that a lock lost before its edge counts a miss, are the model's choices (log
entry 63). -/
def Obligations.BeatUnit : Prop :=
  (∀ (s : State) (d : BitVec 32) (x : BitVec 64), s.phase = .running →
    let i := Instr.beatEdge d x
    let b := s.beat
    (b.anyEdge = true → d.toNat < 850 → exec i s = .next (count s .beatGlitches 4 0)) ∧
    ((b.anyEdge = false ∨ 850 ≤ d.toNat) → b.lost = false → b.resyncDue = false →
      (b.holdLeft = 0 → (b.count + 1) % 2 ^ 64 % 1048576 ≠ 0 → ∃ u, exec i s = .next (passBeats u) ∧
        u = { s with beat := u.beat, regs := u.regs, holdPending := [], power := tickWindow s.power } ∧
        u.beat = { b with count := (b.count + 1) % 2 ^ 64, waits := b.waits + 1, anyEdge := true, missing := 0 } ∧
        ∀ g, g < 64 → holdLeft u g =
          if s.holdPending.contains g then getBits (getReg s .evtHoldoff 0 g) 0 32 else holdLeft s g - 1) ∧
      (0 < b.holdLeft → ∃ u, exec i s = .next (passBeats u) ∧ u = { s with
        beat := { b with holdLeft := b.holdLeft - 1, waits := b.waits + 1, anyEdge := true, missing := 0 }
        regs := u.regs, holdPending := [], power := tickWindow s.power })) ∧
    ((b.anyEdge = false ∨ 850 ≤ d.toNat) → b.lost = false → b.resyncDue = true →
      ∃ u, u.beat.waits = b.waits + 1 ∧ u.beat.ptpLock = b.ptpLock ∧ exec i s = .next (resync u x.toNat)) ∧
    ((b.anyEdge = false ∨ 850 ≤ d.toNat) → b.lost = true →
      let n := if 1530 ≤ d.toNat ∧ d.toNat ≤ 1870 ∧ 0 < b.qualifying then b.qualifying + 1 else 1
      (n = 16 → ∃ t, exec i s = .next t ∧ t.beat.lost = false ∧ t.power.closeDue = true ∧ t.power.windowBeats = 0) ∧
      (n ≠ 16 → exec i s = .next { s with beat := { b with anyEdge := true, missing := 0, qualifying := n } }))) ∧
  (∀ (s : State) (x : Nat),
    let t := resync s x
    (s.beat.ptpLock = true → t.beat.synced = true ∧ t.beat.resyncDue = false ∧
      t.beat.count = max s.beat.count x ∧ t.beat.holdLeft = s.beat.count - x ∧
      (s.beat.synced = false → getReg t .netEpoch 0 0 = BitVec.ofNat 64 (x / 1024 % 2 ^ 32))) ∧
    (s.beat.ptpLock = false → t.beat = { s.beat with resyncDue := false } ∧ t.clr = s.clr)) ∧
  (∀ s : State, (passBeats s).beat = s.beat ∧ (passBeats s).power.closeDue = s.power.closeDue ∧
    (∀ x, firstClose (dueCloses s) = some x → x ∈ dueCloses s ∧ (∀ y ∈ dueCloses s, x.1 ≤ y.1) ∧ x.1 ≤ (s.beat.count : Int)) ∧
    (firstClose (dueCloses s) = none → dueCloses s = []) ∧ (dueCloses (markDue s) = [] → passBeats s = markDue s) ∧
    (∀ (j : ClrJob) (b : Nat) (x : Int), j ∈ s.clr → b < j.buckets.length → closeBeatOf s j b = some x → x ≤ (s.beat.count : Int) →
      (x, j.id, b) ∈ dueCloses s)) ∧
  (∀ s : State, s.phase = .running →
    (s.beat.ptpLock = false →
      exec .ptpLock s = .next { s with beat := { s.beat with ptpLock := true, resyncDue := true } }) ∧
    exec .ptpLockLoss s = .next { s with beat := { s.beat with ptpLock := false } } ∧
    (s.beat.lost = false → s.beat.missing < 3 →
      exec .beatPulseMissing s = .next { s with beat := { s.beat with missing := s.beat.missing + 1 } }) ∧
    (s.beat.lost = false → 3 ≤ s.beat.missing → ∃ t, exec .beatPulseMissing s = .next t ∧ t.beat.lost = true ∧
      t.beat.count = s.beat.count ∧ t.power.closeDue = true))

/-- R474, R476 to R482, R486, R488 to R490: at a close that is due the balance falls by the measured energy and rises by the allowance,
which caps it; power hold is then in force exactly when the balance is at the overdraft limit, and neither a BUDGET_SET nor a correction
waits any longer. A correction that comes while a close is due waits for it. Energy measured between closes brings the balance down, and
hold into force once the limit is reached. The effective allowances of the partitions never add up to more than the module's. The
thermal cap lies between 1,536 and 4,352 credits, and at 1,536 with a hot junction, an inlet above 45 °C or a flow below 4 L/min. A
warning cuts the allowance until sixteen whole windows without it have passed. The model's choices: LEDGER_CLOSE acts when a close is due
or the beat is lost (log entry 64), and POWER_HOLD_ENTER brings the balance to its limit by energy not yet measured (log entry 85). -/
def Obligations.PowerLedger : Prop :=
  (∀ (s : State) (r : WindowReadings), s.phase = .running →
    let t := ledgerCloseNow s r
    ((s.power.closeDue = true ∨ s.beat.lost = true) → exec (.ledgerClose r) s = .next t) ∧
    t.power.balance = min (s.power.balance - (r.energy.toNat : Int) + 1000 * (t.power.meff : Int)) (1000 * (t.power.meff : Int)) ∧
    t.power.hold = overdrawn t ∧ t.power.closes = s.power.closes + 1 ∧ t.power.closeDue = false ∧ t.power.nextSets = [] ∧
    t.power.corrections = [] ∧
    (t.power.cut = true → t.power.meff ≤ 1536) ∧ (∀ c ∈ t.cmds, c.wait ≠ .ledgerClose)) ∧
  (∀ (m : Nat) (l : List (Option Nat)),
    (l.map (effectiveOf m ((l.map (fun x => x.getD 0)).sum) ((l.filter (fun x => x.isNone)).length))).sum ≤ m) ∧
  (∀ (hot : Bool) (inlet flow : Nat), 1536 ≤ capOf hot inlet flow ∧ capOf hot inlet flow ≤ 4352 ∧
    (hot = true ∨ 450 < inlet ∨ flow < 400 → capOf hot inlet flow = 1536) ∧
    (hot = false → inlet < 400 → 400 ≤ flow → capOf hot inlet flow = 4352)) ∧
  (∀ p : Power,
    (p.warn = true → (p.pinInWindow = true ∨ p.wholeWindows + 1 < 16) → (closeWarn p).cut = true ∧ (closeWarn p).warn = true) ∧
    (p.warn = true → p.pinInWindow = false → 16 ≤ p.wholeWindows + 1 → (closeWarn p).cut = false ∧ (closeWarn p).warn = false) ∧
    (p.warn = false → (closeWarn p).cut = p.cut)) ∧
  (∀ s : State, s.phase = .running →
    (s.power.hold = false → ∃ t, exec .powerHoldEnter s = .next t ∧ t.power.hold = true ∧
      natBit (getReg t .pwrStatus 4 0).toNat 17 = true ∧
      t.power.balance ≤ s.power.balance ∧ t.power.balance ≤ -(1000 * (overdraft s : Int)) ∧
      (t.power.energy : Int) = ((s.power.energy : Int) + (s.power.balance - t.power.balance)) % 1000) ∧
    (s.power.hold = true → exec .powerHoldEnter s = .next s) ∧
    (∀ (p : Nat) (d : Int),
      (s.power.closeDue = true → (correctBalance s p d).power =
        { s.power with corrections := s.power.corrections ++ [(p, d)] }) ∧
      (s.power.closeDue = false → (partPower (correctBalance s p d) p).balance = (partPower s p).balance + d ∧
        ∀ q, q ≠ p → partPower (correctBalance s p d) q = partPower s q)) ∧
    (s.power.pin = false → ∃ t, exec .pwrWarnAssert s = .next t ∧
      t.power = { s.power with pin := true, pinInWindow := true, warn := true, wholeWindows := 0 } ∧
      natBit (getReg t .pwrStatus 4 0).toNat 16 = true) ∧
    exec .pwrWarnRelease s = .next { s with power := { s.power with pin := false } } ∧
    exec .supplyExcursion s = .next (raiseEvent (setFlag s .pwrStatus 4 0 19) (coreSrc 4 15)))

/-! ### Reset, boot and joins (01_composition_identity.md, 18_security_boot.md) -/

/-- What a reset of every die leaves: the flash, the fuses and the straps; all else is as after reset. -/
def lostAll (s t : State) : Prop :=
  t = { State.reset with
    pending := s.pending, free := s.free, dies := s.dies, ga := s.ga, smbusDest := s.smbusDest, phase := t.phase, sec := t.sec, mgmt := t.mgmt } ∧
  t.sec = { Security.factory with
    bootRecs := s.sec.bootRecs, keyCopies := s.sec.keyCopies, banks := s.sec.banks, config := s.sec.config
    fusedFloor := s.sec.fusedFloor }

/-- R29 to R35, R471 to R473, R491, R554, R558 to R560, R577, R583: an assertion of MOD_RESET_N, a thermal trip and a supply out of
range lose all state but the flash, the fuses and the straps, and the fault log where the management controller keeps its supply. A
release runs the composition check; with a fault the module stays in its ROM state and reports each, otherwise it boots ACTIVE, or
PREVIOUS when ACTIVE is not valid, with the boot configuration applied, and stays silent when neither is, or when the die in the place
of site 4 does not name it (R16, R36). A reading of the junctions trips at the first of them at 115 °C or above (R609). A trial that is
not attached in time gives way to the previous image. R10, R24 to R26: a replayed flit is counted; a join that has replayed one flit 16
times fails: its UP bit falls, its FAILED bit and a fatal event show it, later commands are refused with the first failed join, and
every open context ends; a read of a replay count clears it. The model's choices: whether a replay is of the same flit again is the
command's operand (log entry 58); a Manager.Reset that does not say ForceRestart answers 400, and the module waits for its release after
a supply restart (log entry 65). -/
def Obligations.ResetBootJoins : Prop :=
  (∀ s : State, s.phase ≠ .off → ∃ t, exec .modResetAssert s = .next t ∧ lostAll s t ∧
    t.phase = (if s.phase = .tripped ∨ s.phase = .heldTripped then .heldTripped else .held) ∧
    t.mgmt.faultLog = s.mgmt.faultLog ∧ t.mgmt.subs = [none, none, none, none]) ∧
  (∀ s : State, (∃ t, exec .undervoltageLockout s = .next t ∧ lostAll s t ∧ t.phase = .off) ∧
    (∃ t, exec .overvoltageDisconnect s = .next t ∧ lostAll s t ∧ t.phase = .off) ∧
    (s.phase = .off → exec .supplyRestart s = .next { s with phase := .held })) ∧
  (∀ (s : State) (tiles cores : List (BitVec 16)) (i : Nat) (x : BitVec 16), (s.phase = .running ∨ s.phase = .rom) →
    (tiles ++ cores)[i]? = some x → 1150 ≤ x.toNat → (∀ k < i, ∀ y, (tiles ++ cores)[k]? = some y → y.toNat < 1150) →
    ∃ t m, exec (.thermalTrip tiles cores) s = .next t ∧ lostAll s t ∧ t.phase = .tripped ∧
      m.id = "Freldo.1.0.ThermalTrip" ∧ m.args = [junctionName i, tenths x.toNat] ∧
      t.mgmt.faultLog = (m :: s.mgmt.faultLog).take 64) ∧
  (∀ (s : State) (nonce : BitVec 256) (trained : BitVec 14) (hottest : BitVec 16),
    (s.phase = .held ∨ (s.phase = .heldTripped ∧ hottest.toNat < 600)) →
    let u : State := { s with phase := .rom }
    let i := Instr.modResetRelease nonce trained hottest
    (controllerOn s = false → exec i s = .next { s with phase := .silent }) ∧
    (controllerOn s = true → compositionFaults s ≠ [] → exec i s = .next ((compositionFaults s).foldl reportFault u)) ∧
    (controllerOn s = true → compositionFaults s = [] → (∃ j < 14, natBit trained.toNat j = false) →
      exec i s = .next ((untrained trained).foldl reportJoin u)) ∧
    (controllerOn s = true → compositionFaults s = [] → (∀ j < 14, natBit trained.toNat j = true) → s.sec.attached = false →
      (bootBank (repairBoot s) = none → ∃ t, exec i s = .next t ∧ t.phase = .silent) ∧
      (∀ b fallback, bootBank (repairBoot s) = some (b, fallback) → ∃ t, exec i s = .next t ∧ t.phase = .running ∧ t.sec.bank = b ∧
        t.sec.fallback = fallback ∧ t.sec.nonce = nonce.toNat ∧ t.sec.runVersion = (fwBank s b).version ∧
        getReg t .modJoinStatus 4 0 = 0x3FFF ∧ getReg t .netPkgId 0 0 = BitVec.ofNat 64 s.sec.config.pkgId ∧
        t.sec.fusedFloor = (if t.sec.attached then max s.sec.fusedFloor (fwBank s b).floor else s.sec.fusedFloor)))) ∧
  (∀ (s : State) (nonce : BitVec 256) (trained : BitVec 14) (hottest : BitVec 16), s.phase = .heldTripped → 600 ≤ hottest.toNat →
    exec (.modResetRelease nonce trained hottest) s = .next { s with phase := .tripped }) ∧
  (∀ (s : State) (dest : MgmtAddr) (l : List (String × JArg)) (nonce : BitVec 256) (trained : BitVec 14) (hottest : BitVec 16),
    (s.phase = .running ∨ s.phase = .rom ∨ s.phase = .tripped) → isService s dest = true → (∀ p ∈ l, p.1 = "ResetType") →
    let i := Instr.managerReset dest (.props l) ⟨nonce, trained, hottest⟩
    (bodyValue l "ResetType" = some (.str "ForceRestart") →
      exec i s = .next (releaseIf (assertReset s) nonce.toNat trained hottest.toNat)) ∧
    (bodyValue l "ResetType" ≠ some (.str "ForceRestart") → exec i s = .next (httpAnswer s 400 "" []))) ∧
  (∀ (s : State) (nonce : BitVec 256) (trained : BitVec 14), s.phase = .running → s.sec.attached = false →
    ((bootRecord s).trial = false → exec (.bootTrialTimeout nonce trained) s = .next (raiseEvent s (secSrc 20))) ∧
    ((bootRecord s).trial = true →
      let u := coldState (writeBootRecord s (bootRecord s).previous false (bootRecord s).previous) .held (mgmtKept s.mgmt)
      exec (.bootTrialTimeout nonce trained) s = .next (release u nonce.toNat trained) ∧
      (bootRecord u).active = (bootRecord s).previous ∧ (bootRecord u).trial = false)) ∧
  (∀ (s : State) (j : Fin 14) (again : Bool), s.phase = .running → joinUp s j.val = true →
    ∃ t, exec (.joinFlitReplay j again) s = .next t ∧ t = { s with regs := t.regs, joinRuns := t.joinRuns } ∧
      getReg t .modJoinReplay 4 j.val = countWord 32 (getReg s .modJoinReplay 4 j.val) 1 ∧
      mapGet (fun _ => 0) t.joinRuns j.val = (if again then mapGet (fun _ => 0) s.joinRuns j.val + 1 else 1)) ∧
  (∀ (s : State) (j : Fin 14), s.phase = .running → joinUp s j.val = true → 16 ≤ mapGet (fun _ => 0) s.joinRuns j.val →
    ∃ t, exec (.joinFail j) s = .next t ∧ joinUp t j.val = false ∧ natBit (getReg t .modJoinStatus 4 0).toNat (16 + j.val) = true ∧
      t.failedJoin = some (s.failedJoin.getD j.val) ∧ t.mgmt.fatalSeen = true ∧
      ∀ x < 256, (ctxOf s x).valid = true → (ctxOf t x).ending = true ∨ (ctxOf t x).valid = false) ∧
  (∀ (s : State) (a : Agent) (j : Fin 14), s.phase = .running →
    let w := getReg s .modJoinReplay 4 j.val
    ∃ t, exec (.joinReplayRead a j) s = .next t ∧ t = { s with regs := t.regs, reply := t.reply } ∧ t.reply = some ⟨a, false, w⟩ ∧
      getReg t .modJoinReplay 4 j.val = setBits w 0 32 0)

/-! ### Events (17_events_audit.md) -/

/-- R533, R534, R535, R538 to R543: a raise sets PENDING and counts, and the counter saturates at 255. An offered source whose target is a
queue posts its record, one whose target is the management port its message, each clearing PENDING and the counter and starting the
hold-off of its group; when a hold-off ends the group's sources are delivered. A claim returns the most urgent presented source and
pushes its priority; an end of interrupt pops the most urgent priority when it names it and is reported otherwise. While a source is
presented the core's interrupt is the one that its MODE and GUEST select. That OVERFLOWED is set in the raise that reaches 255, and that
the sources of a hold-off are delivered in ascending order, are the model's choices (log entry 69). -/
def Obligations.EventRows : Prop :=
  (∀ (s : State) (src : Nat), src < 1024 →
    let w := getReg s .evtSrcCount (src / 256) (src % 256)
    isPending (raiseEvent s src) src = true ∧ (∀ y < 1024, y ≠ src → isPending (raiseEvent s src) y = isPending s y) ∧
    getReg (raiseEvent s src) .evtSrcCount (src / 256) (src % 256) =
      (if 254 ≤ getBits w 0 8 then setBits (setBits w 0 8 255) 8 1 1 else setBits w 0 8 (getBits w 0 8 + 1))) ∧
  (∀ (s : State) (src : Fin 1024), s.phase = .running →
    let r := eventRoute s src.val
    let k := getBits r 12 2
    let w := getReg s .evtSrcCount (src.val / 256) (src.val % 256)
    let u := delivered (setReg s .evtSrcCount (src.val / 256) (src.val % 256) 0) src.val
    isPending u src.val = false ∧ groupOf s src.val ∈ u.holdPending ∧
    (offered s src.val = true → k = 1 →
      exec (.eventDelivery src) s = .next (postRecord u (getBits r 0 8) (eventRecord u (getBits r 0 8) src.val w))) ∧
    (offered s src.val = true → 2 ≤ k → ∃ m, exec (.eventDelivery src) s = .next (postMgmt u m) ∧
      m.id = "Freldo.1.0.EventSource" ∧ m.args.head? = some (toString src.val)) ∧
    ((offered s src.val = false ∨ k = 0) → exec (.eventDelivery src) s = .next s)) ∧
  (∀ (s : State) (g : Fin 64), s.phase = .running → holdLeft s g.val = 0 → exec (.holdoffExpire g) s =
    .next (((List.range 1024).filter (fun src => groupOf s src == g.val)).foldl deliverEvent s)) ∧
  (∀ (s : State) (a : Agent) (tile word : Fin 4) (v : Word), s.phase = .running →
    let p := getReg s .evtPend tile.val word.val
    (∃ t, exec (.evtPendClear a tile word v) s = .next t ∧ t = { s with regs := t.regs, reply := some ⟨a, false, 0⟩ } ∧
      getReg t .evtPend tile.val word.val = (p &&& ~~~v)) ∧
    ((word.val = 2 ∨ mayPend a = true) → ∃ t, exec (.evtPendSet a tile word v) s = .next t ∧
      t = { s with regs := t.regs, reply := some ⟨a, false, 0⟩ } ∧ getReg t .evtPend tile.val word.val = (p ||| v)) ∧
    (word.val ≠ 2 → mayPend a = false → v ≠ 0 →
      exec (.evtPendSet a tile word v) s = .next (reservedWrite s a (tileSrc tile.val 30)))) ∧
  (∀ (s : State) (a : Agent) (src : Fin 1024), s.phase = .running → ∃ t, exec (.evtSrcCountRead a src) s = .next t ∧
    t.reply = some ⟨a, false, getReg s .evtSrcCount (src.val / 256) (src.val % 256)⟩ ∧
    getReg t .evtSrcCount (src.val / 256) (src.val % 256) = 0 ∧ t = { s with regs := t.regs, reply := t.reply }) ∧
  (∀ (s : State) (a : Agent) (g : Fin 64) (period : BitVec 32), s.phase = .running →
    ∃ t, exec (.evtHoldoffWrite a g period) s = .next t ∧ getBits (getReg t .evtHoldoff 0 g.val) 0 32 = period.toNat ∧
      holdLeft t g.val = holdLeft s g.val) ∧
  (∀ (s : State) (a : Agent) (core : Fin 128), s.phase = .running →
    (presented s core.val = none → exec (.evtCoreClaim a core) s = .next (answer s a false 0)) ∧
    (∀ src, presented s core.val = some src → presentedTo s core.val src = true ∧
      (∀ y < 1024, presentedTo s core.val y = true → prioOf s src < prioOf s y ∨ (prioOf s src = prioOf s y ∧ src ≤ y)) ∧
      ∃ t, exec (.evtCoreClaim a core) s = .next t ∧
        t.reply = some ⟨a, false, BitVec.ofNat 64 (2 ^ 63 + 2 ^ 16 * prioOf s src + src)⟩ ∧ isPending t src = false ∧
        natBit (coreStack t core.val) (prioOf s src) = true)) ∧
  (∀ (s : State) (core : Nat),
    let w := getReg s .evtCoreCfg (coreSite core) (core % 64)
    (presented s core = none → coreIntr s core = none) ∧
    (presented s core ≠ none → coreIntr s core = some (
      if getBits w 8 2 = 0 then .machine else if getBits w 8 2 = 2 then .guest (getBits w 12 4) else .supervisor))) ∧
  (∀ (s : State) (a : Agent) (core : Fin 128) (p : Fin 16), s.phase = .running →
    ((bitsSet (coreStack s core.val) 16).head? = some p.val → ∃ t, exec (.evtCoreEoi a core p) s = .next t ∧
      natBit (coreStack t core.val) p.val = false ∧
      ∀ q < 16, q ≠ p.val → natBit (coreStack t core.val) q = natBit (coreStack s core.val) q) ∧
    ((bitsSet (coreStack s core.val) 16).head? ≠ some p.val →
      exec (.evtCoreEoi a core p) s = .next (reservedWrite s a (coreSrc (coreSite core.val) 0))))

/-! ### The mills (16_ingest_video.md) -/

/-- R492, R504 to R509, R514: a mill takes the feed that is served next while the wort buffer has room for it, and ends the frame it has
held longest: the feed leaves its stream, its command completes with the status that the first matching row of R507 gives, and a
sample counts as a frame of the stream. A frame skipped as stale (R506) ends by the rows that come before STALE_DROPPED as any other. A
SUBFRAME stream's rows are written one by one, none before every check of R507 has passed, and ROWS, 0 when the first is written, counts
those that are in their home (R522). That FRAME_DECODE_DONE judges such a frame and that its rows follow in idle steps, the row first and
its count in the next step, is the model's choice (log entry 67). -/
def Obligations.FrameDecoding : Prop :=
  (∀ (s : State) (tile : Fin 4) (f : FrameStart) (id : Nat) (x : MilStream) (y : Feed), s.phase = .running →
    let m := millOf s tile.val
    bestFeed (waitingFeeds s tile.val false) = some (id, x, y) → findStream s id = some x →
    (m.wort + f.wort.toNat ≤ 2 ^ 24 → ∃ t, exec (.frameDecodeStart tile f) s = .next t ∧
      t = { s with mills := t.mills, streams := t.streams } ∧
      (millOf t tile.val).decoding = m.decoding ++ [⟨id, y.number, f.wort.toNat, f.width.toNat, f.height.toNat, 0, none⟩] ∧
      (millOf t tile.val).wort = m.wort + f.wort.toNat ∧
      findStream t id = some { x with feeds := x.feeds.map (fun g =>
        if g.number = y.number then { g with stage := .started (isStale s x y && !f.referenced) } else g) }) ∧
    (2 ^ 24 < m.wort + f.wort.toNat → exec (.frameDecodeStart tile f) s = .next s)) ∧
  (∀ (s : State) (tile : Fin 4) (f : FrameResult) (d : Decoding) (rest : List Decoding) (x : MilStream) (y : Feed) (c : Cmd),
    let m := millOf s tile.val
    m.decoding = d :: rest → findStream s d.stream = some x → x.feeds.find? (fun y => y.number == d.feed) = some y →
    d.judged = none → findCmd s y.cmd = some c → c.ticket ≠ 0 → s.results.length < 65536 → x.closing = false →
    let rd := readBytes s (waysOf s (some x.partition)) y.src y.len
    let o := frameOutcome rd.2.2 x y rd.2.1 f
    o.1 ≠ 2 → o.1 ≠ 3 → (o.1 = 9 → x.subframe = true → slotBase rd.2.2 x y = none) →
    ∃ t z k, exec (.frameDecodeDone tile f) s = .next t ∧ (millOf t tile.val).decoding = rest ∧ findStream t d.stream = some z ∧
      z.feeds = x.feeds.filter (fun g => g.number != d.feed) ∧
      z.frames = (if o.1 = 9 then min (x.frames + 1) 0xFFFFFFFF else x.frames) ∧ findCmd t y.cmd = none ∧
      k ∈ t.results ∧ k.queue = c.queue ∧ k.ticket = c.ticket ∧ k.record.status = o.2.status ∧ k.record.detail = o.2.detail) ∧
  (∀ (s : State) (tile : Fin 4) (f : FrameResult) (d : Decoding) (x : MilStream) (y : Feed),
    oldestFrame s tile.val = some (d, x, y) →
    let rd := readBytes s (waysOf s (some x.partition)) y.src y.len
    (d.judged.isSome = true → exec (.frameDecodeDone tile f) s = .next s) ∧
    (d.judged = none → x.subframe = true → (frameOutcome rd.2.2 x y rd.2.1 f).1 = 9 → slotBase rd.2.2 x y ≠ none →
      ∃ t, exec (.frameDecodeDone tile f) s = .next t ∧ t = { rd.2.2 with mills := t.mills, streams := t.streams } ∧
        (millOf t tile.val).decoding = { d with judged := some f } :: (millOf s tile.val).decoding.drop 1)) ∧
  (∀ (s : State) (t : Nat) (d : Decoding) (x : MilStream) (y : Feed) (f : FrameResult) (base : Nat),
    oldestFrame s t = some (d, x, y) → d.judged = some f → slotBase s x y = some base →
    (d.written = 0 → isStale s x y = false →
      (millOf (writeNextRow s t) t).decoding = { d with written := 1 } :: (millOf s t).decoding.drop 1 ∧
      ∃ z, findStream (writeNextRow s t) d.stream = some z ∧ z.rows = 0 ∧ z.feeds = x.feeds) ∧
    (d.written ≠ 0 → x.rows ≠ d.written →
      (writeNextRow s t).mem = s.mem ∧ oldestFrame (writeNextRow s t) t = some (d, { x with rows := d.written }, y)) ∧
    (d.written ≠ 0 → x.rows = d.written → d.written < lumaRows x →
      oldestFrame (writeNextRow s t) t = some ({ d with written := d.written + 1 }, x, y)) ∧
    (d.written ≠ 0 → x.rows = d.written → lumaRows x ≤ d.written →
      writeNextRow s t = endFrame s t d x y (some f) (9, { status := .ok }) x.fed)) ∧
  (∀ (s : State) (t : Nat) (d : Decoding) (x : MilStream) (y : Feed), oldestFrame s t = some (d, x, y) → d.judged = none →
    writeNextRow s t = s) ∧
  (∀ (s : State) (x : MilStream) (y : Feed) (f : FrameResult),
    let out := fun (p : Option Nat) => frameOutcome s x y p f
    let inSize := f.poison = none ∧ f.declW.toNat ≤ x.maxW ∧ f.declH.toNat ≤ x.maxH ∧ f.access = true
    (∀ a, out (some a) = (1, { status := .poisoned, detail := poisonDetail s a })) ∧
    (f.poison = none → (x.maxW < f.declW.toNat ∨ x.maxH < f.declH.toNat) →
      out none = (2, { status := .declaredSizeRejected, detail := 0x2F10 })) ∧
    (inSize → f.check = .badSyntax → out none = (6, { status := .streamCorrupt, detail := 0x2F11 })) ∧
    (inSize → f.check = .clean → (y.stage = .started true ∨ isStale s x y = true) →
      out none = (8, { status := .staleDropped, detail := 0x2F30 })) ∧
    (inSize → f.check = .clean → y.stage ≠ .started true → isStale s x y = false → out none = (9, { status := .ok })))

/-- R10, R497, R513, R517, R519 to R521, R530: a close of a batch pads its filling fill; the earliest waiting core-side feed is posted
on its partition's ring, and a core's report ends the feed that stands at the entry; the side of a stream, a core ring and a mill's pool
are written by those that may, within their rules, and refused otherwise; a read of MIL_WORT clears its peak. Where the mills are absent
each access of their registers is refused. R524 to R526, R528: the encode pipeline takes the next picture while it holds none, counts it
and moves qp by the bits of its rows, which are a function of its pictures (R526); a poisoned picture ends its feed POISONED. The oldest
unit is written at the ring's PROD once its record fits, and PROD moves past it; the last unit of a picture completes its feed. Every
value is encoded within 0 to 1,023. The model's choices: who acts for a partition (log entry 24), that an ING_CORE_DONE without a feed
at its entry changes nothing (log entry 27), and the picture that a PICTURE_ENCODE names with the free functions of its coding (log
entry 67). -/
def Obligations.IngestAndEncoding : Prop :=
  (∀ (s : State) (a : Agent) (tile : Fin 4) (entry : Fin 64) (e : Fin 128) (p : Fin 16) (side : Bool) (v : Word) (i : Instr),
    i ∈ [Instr.batchClose a tile entry, .ingCoreDone a tile v, .ingStreamSideWrite a tile e side, .ingCoreRingWrite a tile p v,
      .milPoolWrite a tile v, .wortPeakRead a tile] →
    s.phase = .running → millPresent s = false → exec i s = .next (refuseAccess s a (tileSrc tile.val 30))) ∧
  (∀ (s : State) (a : Agent) (tile : Fin 4) (entry : Fin 64) (x : Batch), s.phase = .running → millPresent s = true →
    findBatch s (4 * entry.val + tile.val) = some x → actsFor a x.partition = true →
    exec (.batchClose a tile entry) s = .next (answer (closeFill s (4 * entry.val + tile.val)) a false 0)) ∧
  (∀ (s : State) (p : Fin 16) (id fill slot : Nat) (f : Feed) (r : Nat × Nat) (x : MilStream), earliest (postable s p.val) = some (id, f) →
    let t := streamTile id
    let prod := getBits (getReg s .ingCoreProd t p.val) 0 17
    coreRing s t p.val = some r → findStream s id = some x → f.slot = some (fill, slot) →
    ∃ u, exec (.coreRingEntryPost p) s = .next u ∧ getBits (getReg u .ingCoreProd t p.val) 0 17 = (prod + 1) % 2 ^ 17 ∧
      findStream u id = some { x with feeds := x.feeds.map (fun g =>
        if g.number = f.number then { g with stage := .posted (prod % r.2) } else g) }) ∧
  (∀ (s : State) (a : Agent) (tile : Fin 4) (v : Word), s.phase = .running → millPresent s = true → actsFor a (getBits v 16 4) = true →
    (∀ id x f, postedAt s tile.val (getBits v 16 4) (getBits v 0 16) = some (id, x, f) → exec (.ingCoreDone a tile v) s =
      .next (answer (coreDone s tile.val (getBits v 16 4) (getBits v 0 16) id x f) a false 0)) ∧
    (postedAt s tile.val (getBits v 16 4) (getBits v 0 16) = none → exec (.ingCoreDone a tile v) s = .next (answer s a false 0))) ∧
  (∀ (s : State) (a : Agent) (tile : Fin 4) (entry : Fin 128) (side : Bool) (x : MilStream), s.phase = .running → millPresent s = true →
    let id := 128 * tile.val + entry.val
    findStream s id = some x →
    (actsFor a x.partition = true → (side = true → coreRing s tile.val x.partition ≠ none) →
      ∃ t y, exec (.ingStreamSideWrite a tile entry side) s = .next t ∧ t = { s with streams := t.streams, reply := some ⟨a, false, 0⟩ } ∧
        findStream t id = some y ∧ y.side = side ∧ y.active = activeSide s x ∧ y.feeds = x.feeds) ∧
    (actsFor a x.partition = true → side = true → coreRing s tile.val x.partition = none →
      exec (.ingStreamSideWrite a tile entry side) s = .next (reservedWrite s a (tileSrc tile.val 30))) ∧
    (actsFor a x.partition = false →
      exec (.ingStreamSideWrite a tile entry side) s = .next (refuseAccess s a (tileSrc tile.val 30)))) ∧
  (∀ (s : State) (a : Agent) (tile : Fin 4) (p : Fin 16) (v : Word), s.phase = .running → millPresent s = true →
    let lg := getBits v 48 5
    (actsFor a p.val = true → ((openStreams s).any (fun x => x.2.partition == p.val && activeSide s x.2)) = false →
      1 ≤ lg → lg ≤ 16 → getBits v 0 6 = 0 → ∃ t, exec (.ingCoreRingWrite a tile p v) s = .next t ∧
        coreRing t tile.val p.val = (if natBit v.toNat 63 then some (getBits v 0 44, 2 ^ lg) else none)) ∧
    (actsFor a p.val = false → exec (.ingCoreRingWrite a tile p v) s = .next (refuseAccess s a (tileSrc tile.val 30)))) ∧
  (∀ (s : State) (a : Agent) (tile : Fin 4) (v : Word), s.phase = .running → millPresent s = true →
    let first := getBits v 0 16
    let n := getBits v 16 16
    (a = .mmc → millStreams s tile.val = [] → (n = 0 ∨ (320 * tile.val ≤ first ∧ first + n ≤ 320 * (tile.val + 1))) →
      ∃ t, exec (.milPoolWrite a tile v) s = .next t ∧ poolPages t tile.val = 512 * n ∧
        getBits (getReg t .milPool tile.val 0) 0 16 = first) ∧
    ((a ≠ .mmc ∨ millStreams s tile.val ≠ []) →
      exec (.milPoolWrite a tile v) s = .next (refuseAccess s a (tileSrc tile.val 30)))) ∧
  (∀ (s : State) (a : Agent) (tile : Fin 4), s.phase = .running → millPresent s = true →
    let m := millOf s tile.val
    exec (.wortPeakRead a tile) s = .next (answer (setMill s tile.val { m with peak := 0 }) a false
      (BitVec.ofNat 64 (m.wort % 2 ^ 25 + 2 ^ 32 * (m.peak % 2 ^ 25))))) ∧
  (∀ (s : State) (tile : Fin 4) (id : Nat) (x : MilStream) (f : Feed), s.phase = .running →
    let m := millOf s tile.val
    let src := readBytes s (waysOf s (some x.partition)) f.src (needBytes x.maxW x.maxH)
    bestFeed (waitingFeeds s tile.val true) = some (id, x, f) → findStream s id = some x → id < 512 → m.units = [] →
    let values := (pictureCodes x.maxW x.maxH src.1).map (fun k => (encodeSample k).1)
    let q := rateControl x f.capture values
    let i := Instr.pictureEncode tile (BitVec.ofNat 16 id) (BitVec.ofNat 32 x.pictures)
    (src.2.1 = none → ∃ t y, exec i s = .next t ∧ findStream t id = some y ∧
      (millOf t tile.val).units.map (·.bytes) = pictureUnits x values q.2 ∧ y.pictures = x.pictures + 1 ∧
      y.lastCapture = some f.capture ∧ y.qp = q.1 ∧ y.coded = x.coded ++ [(values, q.2)]) ∧
    (∀ a, src.2.1 = some a → exec i s = .next (closeIfDone (endFeed src.2.2 id x f
      (unparsed f 4 { status := .poisoned, detail := poisonDetail src.2.2 a })) id))) ∧
  (∀ (s : State) (tile : Fin 4) (u : EncUnit) (rest : List EncUnit) (x : MilStream),
    let m := millOf s tile.val
    m.units = u :: rest → findStream s u.stream = some x →
    let ways := waysOf s (some x.partition)
    let d := readBytes s ways x.outRing 64
    let base := fieldLe d.1 0 8 % 2 ^ 44
    let size := 2 ^ (fieldLe d.1 8 1 % 32)
    let prod := fieldLe d.1 16 8
    let used := (prod + 2 ^ 64 - fieldLe d.1 24 8) % 2 ^ 64
    let r := unitRecord u
    let v := setMill (writeRange (writeRing d.2.2 x.partition tile.val base size (prod % size) r) ways (x.outRing + 16) (leBytes 8 (prod + r.length)))
      tile.val { m with units := rest }
    (size < used + r.length → exec (.encodeUnitEmit tile) s = .next d.2.2) ∧
    (used + r.length ≤ size → u.last = false → exec (.encodeUnitEmit tile) s = .next v) ∧
    (used + r.length ≤ size → u.last = true → x.closing = false → ∀ f, x.feeds.find? (fun f => f.number == u.feed) = some f →
      ∃ t y, exec (.encodeUnitEmit tile) s = .next t ∧ (millOf t tile.val).units = rest ∧ findCmd t f.cmd = none ∧
        findStream t u.stream = some y ∧ y.feeds = x.feeds.filter (fun g => g.number != f.number) ∧
        y.frames = min (x.frames + 1) 0xFFFFFFFF)) ∧
  (∀ code : Nat, (encodeSample code).1 ≤ 1023)

/-! ### The management port (19_electrical_mechanical.md) -/

/-- R585 to R593: each SMBus command that the module's slot address names is answered with its data, or not at all while the controller
does not run its firmware; one to another address changes nothing; a reading's LINEAR11 form lies within one unit of its mantissa of
it. A request to one of the service's addresses is answered, one to another address is not. A GET of a resource answers its contents, of
an unknown one 404, of one that is only acted on 405. A body that is no JSON object, or names a property that is not of the resource or
not to be written, is refused with its message. A subscription takes the lowest free place and is gone after a DELETE; a retry
counts, and the third is the last; the deliveries before it have been answered. A PATCH is refused in the ROM state, and otherwise is put
whole or not at all; a service address that it sets is in force from the next boot (R590). The model's choices: the codes 200, 400 and 404
of a served request, the read-only properties and the deliveries answered before a retry (log entry 65), the service's addresses (log
entry 82) and the SMBus address that a transfer carries (log entry 85). -/
def Obligations.ManagementPort : Prop :=
  (∀ s : State, s.smbusDest.toNat = 0x58 + s.ga.val →
    let reading := fun (f : Readings) (num den : Nat) =>
      (Host.Outcome.next (φ := Fault) (ρ := Refusal) (smbusAnswer { s with readings := f } (some (leBytes 2 (linear11 num den)))))
    (s.phase = .running → ∀ v : BitVec 16,
      exec (.readVin v) s = reading { s.readings with voltage := v.toNat } v.toNat 100 ∧
      exec (.readIin v) s = reading { s.readings with current := v.toNat } v.toNat 100 ∧
      exec (.readPin v) s = reading { s.readings with power := v.toNat } v.toNat 1 ∧
      exec (.readTemperature1 v) s = reading { s.readings with inlet := v.toNat } v.toNat 10 ∧
      exec (.readTemperature2 v) s = reading { s.readings with hottest := v.toNat } v.toNat 10) ∧
    exec .smbusCapability s = .next (smbusAnswer s (some [0xA0])) ∧
    exec .mfrId s = .next (smbusAnswer s (some [0x46, 0x52, 0x45, 0x4C, 0x44, 0x4F])) ∧
    exec .mfrModel s = .next (smbusAnswer s (some (asciiBytes (partNumber (strapSku (dieAt s 8).strap))))) ∧
    (∀ code : BitVec 8, code.toNat ∉ smbusCodes → exec (.smbusUnsupportedCommand code) s = .next (smbusAnswer s none)) ∧
    (∀ d, (smbusAnswer s d).mgmt.smbus = some ⟨if s.phase = .running then d else none⟩)) ∧
  (∀ (s : State) (v : BitVec 16) (code : BitVec 8), s.smbusDest.toNat ≠ 0x58 + s.ga.val →
    ∀ i ∈ [Instr.readVin v, .readIin v, .readPin v, .readTemperature1 v, .readTemperature2 v,
      .smbusCapability, .mfrId, .mfrModel, .smbusUnsupportedCommand code], exec i s = .next s) ∧
  (∀ (v : BitVec 16) (den : Nat), den = 1 ∨ den = 10 ∨ den = 100 →
    let n := linear11 v.toNat den
    let m := n % 2 ^ 11
    let k := (n / 2 ^ 11 + 16) % 32
    n < 2 ^ 16 ∧ m ≤ 1023 ∧ m * 2 ^ k * den ≤ v.toNat * 2 ^ 16 + 2 ^ k * den ∧ v.toNat * 2 ^ 16 ≤ m * 2 ^ k * den + 2 ^ k * den) ∧
  (∀ (s : State) (dest : MgmtAddr) (uri : String), (s.phase = .running ∨ s.phase = .rom ∨ s.phase = .tripped) → isService s dest = true →
    (resourceAt uri = none → exec (.redfishGet ⟨dest, uri⟩) s = .next (httpAnswer s 404 "" [])) ∧
    (∀ r, resourceAt uri = some r → (methodsOf r).contains "GET" = true → exists_ s r = true →
      exec (.redfishGet ⟨dest, uri⟩) s = .next (httpAnswer s 200 "" (contents s r))) ∧
    (∀ r, resourceAt uri = some r → (methodsOf r).contains "GET" = false →
      exec (.redfishGet ⟨dest, uri⟩) s = .next (httpAnswer s 405 "" [])) ∧
    (∀ method, resourceAt uri = none → exec (.redfishUnsupportedRequest method ⟨dest, uri⟩) s = .next (httpAnswer s 404 "" [])) ∧
    (∀ method r, resourceAt uri = some r → (methodsOf r).contains method = false →
      exec (.redfishUnsupportedRequest method ⟨dest, uri⟩) s = .next (httpAnswer s 405 "" []))) ∧
  (∀ (s : State) (dest : MgmtAddr) (uri method : String) (body : JBody) (json : Bool) (l : List (String × JArg)) (id : Fin 8) (nonce : BitVec 256) (trained : BitVec 14)
    (hottest : BitVec 16), (isService s dest = false ∨ s.phase = .off ∨ s.phase = .held ∨ s.phase = .heldTripped ∨ s.phase = .silent) →
    ∀ i ∈ [Instr.redfishGet ⟨dest, uri⟩, .redfishUnsupportedRequest method ⟨dest, uri⟩, .subscriptionCreate dest json l, .subscriptionDelete ⟨dest, id⟩,
      .managerReset dest body ⟨nonce, trained, hottest⟩, .bootConfigurationPatch ⟨dest, body⟩],
      exec i s = .next { s with mgmt := { s.mgmt with http := none } }) ∧
  (∀ (s : State) (dest : MgmtAddr) (body : JBody), isService s dest = true → ∀ e : String × Option String,
    let r := httpAnswer s 400 e.1 (e.2.toList.map (fun p => (p, .bool false)))
    (bodyError propOrder body = some e → s.phase = .running → exec (.bootConfigurationPatch ⟨dest, body⟩) s = .next r) ∧
    (∀ (json : Bool) (l : List (String × JArg)),
      bodyError ["Destination", "Protocol", "Context"] (if json then .props l else .malformed) = some e →
      (s.phase = .running ∨ s.phase = .rom ∨ s.phase = .tripped) → exec (.subscriptionCreate dest json l) s = .next r) ∧
    (∀ nonce trained hottest, bodyError ["ResetType"] body = some e → (s.phase = .running ∨ s.phase = .rom ∨ s.phase = .tripped) →
      exec (.managerReset dest body ⟨nonce, trained, hottest⟩) s = .next r)) ∧
  (∀ (known : List String), bodyError known .malformed = some ("MalformedJSON", none) ∧
    ∀ (pre post : List (String × JArg)) (p : String × JArg), (∀ x ∈ pre, x.1 ∈ known) → p.1 ∉ known →
      bodyError known (.props (pre ++ p :: post)) =
        some (if p.1 ∈ readOnlyProps then "PropertyNotWritable" else "PropertyUnknown", some p.1)) ∧
  (∀ (s : State), (s.phase = .running ∨ s.phase = .rom ∨ s.phase = .tripped) →
    (∀ (dest : MgmtAddr) (l : List (String × JArg)) (w : Subscription) (n : Nat), isService s dest = true →
      bodyError ["Destination", "Protocol", "Context"] (.props l) = none → wantedSub l = some w → s.mgmt.subs.length = 4 →
      n < 4 → subscription s n = none → (∀ k < n, subscription s k ≠ none) →
      ∃ t b, exec (.subscriptionCreate dest true l) s = .next t ∧ t.mgmt.http = some ⟨201, "", b⟩ ∧
        subscription t n = some w ∧ ∀ k, k ≠ n → subscription t k = subscription s k) ∧
    (∀ (dest : MgmtAddr) (id : Fin 8), isService s dest = true → subscription s id.val ≠ none →
      ∃ t, exec (.subscriptionDelete ⟨dest, id⟩) s = .next t ∧ subscription t id.val = none ∧
      (∀ d ∈ t.mgmt.queue, d.sub ≠ id.val) ∧ t.mgmt.http = some ⟨Config.deleteCode, "", []⟩) ∧
    (∀ (sub : Fin 4) (pre post : List Delivery) (d : Delivery), s.mgmt.queue = pre ++ d :: post → d.sub = sub.val →
      exec (.eventPostRetry ⟨sub, (pre.filter (fun x => x.sub == sub.val)).length⟩) s = .next { s with mgmt := { s.mgmt with
        queue := pre.filter (fun x => x.sub != sub.val) ++
          (if 3 ≤ d.retries then post else { d with retries := d.retries + 1 } :: post) } })) ∧
  (∀ (l : List (String × JArg)) (dest context : String), bodyValue l "Destination" = some (.str dest) →
    bodyValue l "Protocol" = some (.str "Redfish") → destinationOk dest = true →
    (bodyValue l "Context" = some (.str context) → context.length ≤ 64 → wantedSub l = some ⟨dest, context⟩) ∧
    (bodyValue l "Context" = none → wantedSub l = some ⟨dest, ""⟩)) ∧
  (∀ (s : State) (dest : MgmtAddr) (body : JBody), isService s dest = true →
    ((s.phase = .rom ∨ s.phase = .tripped) → exec (.bootConfigurationPatch ⟨dest, body⟩) s = .next (httpAnswer s 503 "" [])) ∧
    (s.phase = .running → ∀ l, body = .props l → (∀ p ∈ l, p.1 ∈ propOrder) →
      (∀ c, putChecked s l s.sec.config = .inl c → exec (.bootConfigurationPatch ⟨dest, body⟩) s =
        .next (httpAnswer { s with sec := { s.sec with config := c } } 200 "" (configProps c)) ∧
        ∀ d, isService { s with sec := { s.sec with config := c } } d = isService s d) ∧
      (∀ e, putChecked s l s.sec.config = .inr e → exec (.bootConfigurationPatch ⟨dest, body⟩) s =
        .next (httpAnswer s 400 e.1 [(e.2, .bool false)]))))

/-! ### Registers (01_composition_identity.md) -/

/-- R13, R398, R539, R513, R520: `c` is the row that a write of a register with acting fields is, with `w` the register with its fields
written and `u` the data; none for a queue's two registers, whose rows leave no reply, and for a CLOSE bit that is not set. -/
def actingRow (a : Agent) (k : RegKind) (site i : Nat) (w u : Word) (c : Instr) : Prop :=
  let tile := Fin.ofNat 4 site
  match k with
  | .memCfg => c = .spreadChange a tile (natBit w.toNat 0)
  | .memInject => c = .injectWrite a (Fin.ofNat 6 site) w
  | .capInject => c = .injectWrite a (Fin.ofNat 6 site) w
  | .evtPend => c = .evtPendClear a tile (Fin.ofNat 4 i) u
  | .evtPendSet => c = .evtPendSet a tile (Fin.ofNat 4 i) u
  | .evtHoldoff => c = .evtHoldoffWrite a (Fin.ofNat 64 i) (BitVec.ofNat 32 (getBits w 0 32))
  | .evtCoreEoi => c = .evtCoreEoi a (Fin.ofNat 128 (64 * (site - 4) + i)) (Fin.ofNat 16 (getBits w 0 4))
  | .netPkgId => c = .pkgIdWrite a (BitVec.ofNat 16 (getBits w 0 16))
  | .ingBatchCtrl => natBit w.toNat 0 = true ∧ c = .batchClose a tile (Fin.ofNat 64 i)
  | .ingCoreDone => c = .ingCoreDone a tile w
  | .ingStreamSide => c = .ingStreamSideWrite a tile (Fin.ofNat 128 i) (natBit w.toNat 0)
  | .ingCoreRing => c = .ingCoreRingWrite a tile (Fin.ofNat 16 i) w
  | .milPool => c = .milPoolWrite a tile w
  | _ => False

/-- R9, R10, R12, R13, R259, R464, R477, R574: an access to a reserved place or of a wrong size is refused with an event. A write of a
register acts on the fields that it covers wholly and on no other bit: a read-write field takes the data, a 1 clears a bit that is
cleared by writing 1; a write that would place a reserved value, or that only the management controller may make, changes nothing and
raises an event; a register that the site does not serve ignores writes (R44). R345: ENABLE of NET_PORT_CTRL takes the management
controller's writes alone, and brings the port down or ends its failure. A write of a register with a row of its own is that row's, and
covers at least one of its fields; one that R290 or R351 keeps for the management controller raises their event whichever half it
covers. The model's choices (log entry 59): the merged value is what the row takes, a write that covers no field changes nothing once
its agent may make it, another agent's ENABLE brings no event, and the sources of these events. -/
def Obligations.RegisterAccess : Prop :=
  (∀ (s : State) (a : Agent) (addr : BitVec 44) (size : Fin 16) (v : Word) (write : Bool) (src : Nat), s.phase = .running →
    accessFault s a addr.toNat size.val = some src →
    exec (.reservedAccess a addr size write) s = .next (refuseAccess s a src) ∧
    exec (.registerWrite a addr size v) s = .next (refuseAccess s a src)) ∧
  (∀ (s : State) (a : Agent) (addr : BitVec 44) (size : Fin 16) (v : Word) (k : RegKind) (i j : Nat), s.phase = .running →
    let site := siteOf addr.toNat
    let p := spanOf addr.toNat size.val
    inControl addr.toNat = true → accessFault s a addr.toNat size.val = none →
    regAt site (offsetOf addr.toNat / 8 * 8) = some (k, i, j) → actingFields k = [] →
    let w := writeFields (getReg s k site i j) (spanData p v) (spanFields p (regLayout k).fields)
    ((mmcOnly k = true ∧ a ≠ .mmc) → exec (.registerWrite a addr size v) s = .next (reservedWrite s a (controlSrc site))) ∧
    ((mmcOnly k = false ∨ a = .mmc) → reservedWord k w = true →
      exec (.registerWrite a addr size v) s = .next (reservedWrite s a (controlSrc site))) ∧
    ((mmcOnly k = false ∨ a = .mmc) → reservedWord k w = false → servedAt k site = true → k ≠ .netPortCtrl →
      ∃ t, exec (.registerWrite a addr size v) s = .next t ∧ t = { s with regs := t.regs, reply := some ⟨a, false, 0⟩ } ∧
        getReg t k site i j = w) ∧
    ((mmcOnly k = false ∨ a = .mmc) → reservedWord k w = false → servedAt k site = false →
      exec (.registerWrite a addr size v) s = .next (answer s a false 0)) ∧
    (k = .netPortCtrl → site < 4 → i < 4 → j = 0 → ∃ t, exec (.registerWrite a addr size v) s = .next t ∧
      getReg t .netPortCtrl site i = (if p ≠ .high ∧ a = .mmc then setBits w 0 1 (boolNat (natBit v.toNat 0)) else w) ∧
      (p ≠ .high → a = .mmc → natBit v.toNat 0 = false → (port t (4 * site + i)).up = false) ∧
      (p ≠ .high → a = .mmc → natBit v.toNat 0 = true → (port t (4 * site + i)).failed = false) ∧
      (natBit w.toNat 8 = false → (port t (4 * site + i)).paused = false))) ∧
  (∀ (s : State) (a : Agent) (addr : BitVec 44) (size : Fin 16) (v : Word) (k : RegKind) (i j : Nat), s.phase = .running →
    let site := siteOf addr.toNat
    let p := spanOf addr.toNat size.val
    let fs := spanFields p (actingFields k)
    inControl addr.toNat = true → accessFault s a addr.toNat size.val = none →
    regAt site (offsetOf addr.toNat / 8 * 8) = some (k, i, j) → actingFields k ≠ [] →
    let u := spanData p v
    let w := writeFields (actingWord s k site i) u (fs.map (fun f => { f with acc := .rw }))
    (∀ src, foreignSrc a k site = some src → exec (.registerWrite a addr size v) s = .next (reservedWrite s a src)) ∧
    (foreignSrc a k site = none → fs = [] → exec (.registerWrite a addr size v) s =
      .next (if ingestForeign s a k site i then refuseAccess s a (controlSrc site) else answer s a false 0)) ∧
    (foreignSrc a k site = none → fs ≠ [] →
      (∀ c, actingRow a k site i w u c → exec (.registerWrite a addr size v) s = exec c s) ∧
      (k = .cmdQDoorbell → exec (.registerWrite a addr size v) s =
        .next (answer (ringQueue s (128 * (site - 4) + i) (getBits w 0 17)) a false 0)) ∧
      (k = .cmdQCplHead → ∃ t, exec (.cplHeadWrite (Fin.ofNat 256 (128 * (site - 4) + i)) (BitVec.ofNat 17 (getBits w 0 17))) s = .next t ∧
        exec (.registerWrite a addr size v) s = .next (answer t a false 0)))) ∧
  (∀ (old v : Word) (fs : List Field) (b : Nat), b < 64 → (∀ f ∈ fs, f.lo ≤ f.hi ∧ f.hi < 64) →
    fs.Pairwise (fun f g => f.hi < g.lo ∨ g.hi < f.lo) →
    let w := writeFields old v fs
    ((∀ f ∈ fs, b < f.lo ∨ f.hi < b) → natBit w.toNat b = natBit old.toNat b) ∧
    (∀ f ∈ fs, f.lo ≤ b → b ≤ f.hi → natBit w.toNat b =
      match f.acc with
      | .rw => natBit v.toNat b
      | .w1c => natBit old.toNat b && !natBit v.toNat b))

/-! ### The whole block -/

/-- The registers that a reset leaves at a value other than 0, with that value, from the register tables of the chapters: a field's
value stands at the field's lowest bit. -/
def resetWords : List (RegKind × Nat) :=
  [(.seqWaitLimit, 1000000), (.memCfg, 1), (.memRetireThresh, 3 + 86400000000 * 2 ^ 16), (.capRetireThresh, 3 + 86400000000 * 2 ^ 16),
   (.memScrub, 86400000000 + 2 ^ 40), (.capScrub, 86400000000 + 2 ^ 40), (.celPartWays, 0xFFFF), (.netStatus, 2 ^ 2),
   (.netPkgId, 0xFFFF), (.netTransport, 100 + 16 * 2 ^ 32 + 63 * 2 ^ 40), (.netPortCtrl, 1 + 26 * 2 ^ 2 + 3 * 2 ^ 9),
   (.netPortStatus, 0xFFFF * 2 ^ 24), (.clrBcastLimit, 1000000), (.expRecvLimit, 1000000), (.evtSrcRoute, 2 * 2 ^ 12 + 15 * 2 ^ 20),
   (.prtHold, 1024), (.pwrCfg, 4 + 4096 * 2 ^ 16), (.beatStepLimit, 1000), (.evtCoreCfg, 2 ^ 8), (.secTwoKeyWindow, 300000000)]

/-- What reset leaves: the bits that the block keeps of each register at the reset values of the register tables; MOD_RESET_N asserted and
no command waiting, in flight or kept; memory with nothing listed, in its canonical form; no queue, partition, context, program,
run or client; every cluster idle, the beat counter at 0 and no ledger deficit. The phase (log entry 1), the empty memory (log entry 4)
and the empty tables (log entry 70) are the model's choices. -/
def Obligations.ResetState : Prop :=
  let s := State.reset
  (∀ k site i j, getReg s k site i j = BitVec.ofNat 64 ((resetWords.lookup k).getD 0)) ∧
  s.pending = [] ∧ s.phase = .held ∧ s.mem = [] ∧ Memory.wf s.mem = true ∧ s.cmds = [] ∧ s.results = [] ∧
  (∀ q, (queue s q).valid = false) ∧ (∀ p, (part s p).state = .free) ∧ (∀ x, (ctxOf s x).valid = false) ∧
  s.programs = [] ∧ s.runs = [] ∧ s.streams = [] ∧ s.clr = [] ∧
  (∀ c, (cluster s c).state = .idle) ∧ s.beat.count = 0 ∧ s.power.balance = 0

/-- R402, R410, R412, R416, R427, R499, R523: the packet of a command, written from the tables of the parameters, is taken as that command
with every operand: at every value the encoding holds, its parameters decode to the command, no bit of them counts as reserved, and
the queue accepts it as its row says. A STREAM_OPEN encodes with a PRIORITY of 4 bits and picture sizes of 14. -/
def Obligations.PacketRoundTrip : Prop :=
  ∀ (s : State) (n : Nat) (i : Instr) (h : Hdr) (op : Nat) (params : List Byte),
    encodeCommand i = some (h, op, params) →
    (∀ g p, i = .streamOpen g p → p.priority.toNat < 2 ^ 4 ∧ p.maxW.toNat < 2 ^ 14 ∧ p.maxH.toNat < 2 ^ 14) →
    params.length = 48 ∧ parse h op params = { instr := i } ∧
    ∃ f, formatOf op = some f ∧ reservedByte f (leNat params) = none ∧
      takePacket s h.queue.val n (packetBytes h op n params) = accept s h i f.scope (reservedValue i)

/-- The canonical form of memory is kept: whatever a step does, memory lists rising addresses and no byte that an unlisted address
reads as. The form is the model's own (log entry 4). -/
def Obligations.MemoryCanonical : Prop :=
  ∀ s t : State, Memory.wf s.mem = true → step s = .next t → Memory.wf t.mem = true

/-- Chapter 18: the fused rollback floor never falls. A step takes the command at the front of the queue, if there is one, and no other,
and whatever it does the straps of the dies stay. -/
def Obligations.FloorNeverFalls : Prop :=
  ∀ s t : State, step s = .next t →
    s.sec.fusedFloor ≤ t.sec.fusedFloor ∧ t.pending = s.pending.tail ∧ t.dies = s.dies
end

