-- ==== Sys2Proof/Laws/State.lean ====
section
/-!
SUPPORT. The updates of the state: each changes the field it names and no other, and what a read sees after a write of a sparse
table.
-/
namespace Sys2Proof.Machine

/-! ### Sparse tables -/

theorem mapGet_erase_same {α : Type} (d : Nat → α) (m : SMap α) (k : Nat) : mapGet d (mapErase m k) k = d k := by
  induction m with
  | nil => rfl
  | cons e t ih =>
    obtain ⟨j, v⟩ := e
    by_cases h : j = k
    · simp [mapErase, h, ih]
    · simp [mapErase, h, mapGet, ih]

theorem mapGet_erase_other {α : Type} (d : Nat → α) (m : SMap α) {k j : Nat} (h : j ≠ k) :
    mapGet d (mapErase m k) j = mapGet d m j := by
  induction m with
  | nil => rfl
  | cons e t ih =>
    obtain ⟨i, v⟩ := e
    by_cases hi : i = k
    · subst hi
      simp [mapErase, mapGet, ih, Ne.symm h]
    · by_cases hj : i = j
      · subst hj; simp [mapErase, h, mapGet]
      · simp [mapErase, hi, mapGet, hj, ih]

theorem mapGet_insert_same {α : Type} (d : Nat → α) (m : SMap α) (k : Nat) (v : α) : mapGet d (mapInsert m k v) k = v := by
  induction m with
  | nil => simp [mapInsert, mapGet]
  | cons e t ih =>
    obtain ⟨i, w⟩ := e
    unfold mapInsert
    split
    · simp [mapGet]
    · split
      · simp [mapGet]
      · rename_i h; simp [mapGet, ih, Ne.symm h]

theorem mapGet_insert_other {α : Type} (d : Nat → α) (m : SMap α) {k j : Nat} (v : α) (h : j ≠ k) :
    mapGet d (mapInsert m k v) j = mapGet d m j := by
  induction m with
  | nil => simp [mapInsert, mapGet, Ne.symm h]
  | cons e t ih =>
    obtain ⟨i, w⟩ := e
    unfold mapInsert
    split
    · simp [mapGet, Ne.symm h]
    · split
      · rename_i h2; subst h2; simp [mapGet, Ne.symm h]
      · by_cases hj : i = j <;> simp [mapGet, hj, ih]

/-- A read of a table sees the value last written at its key. -/
@[simp] theorem mapGet_set_same {α : Type} [DecidableEq α] (d : Nat → α) (m : SMap α) (k : Nat) (v : α) :
    mapGet d (mapSet d m k v) k = v := by
  unfold mapSet
  split
  · rename_i h; rw [mapGet_erase_same, h]
  · exact mapGet_insert_same d m k v

/-- A write of a table leaves the values at other keys. -/
theorem mapGet_set_other {α : Type} [DecidableEq α] (d : Nat → α) (m : SMap α) {k j : Nat} (v : α) (h : j ≠ k) :
    mapGet d (mapSet d m k v) j = mapGet d m j := by
  unfold mapSet
  split
  · exact mapGet_erase_other d m h
  · exact mapGet_insert_other d m v h

/-! ### Named updates -/

@[simp] theorem queue_setQueue (s : State) (q : Nat) (v : Queue) : queue (setQueue s q v) q = v := by
  simp [queue, setQueue]

theorem queue_setQueue_other (s : State) {q r : Nat} (v : Queue) (h : r ≠ q) : queue (setQueue s q v) r = queue s r := by
  simp [queue, setQueue, mapGet_set_other _ _ _ h]

theorem setReg_eq (s : State) (k : RegKind) (a i : Nat) (w : Word) (j : Nat) :
    setReg s k a i w j = { s with regs := (setReg s k a i w j).regs } := rfl

end Sys2Proof.Machine
end

