-- ==== Sys2Proof/Laws/Frame.lean ====
section
/-!
SUPPORT. What the shared operations may change: one lemma for each, in the terms of Safety.lean. A statement about a field
outside an operation's frame follows from its lemma without unfolding it.
-/
namespace Sys2Proof.Machine

/-! ### The frames as relations -/

theorem LogFrame.refl (s : State) : LogFrame s s := rfl
theorem MemFrame.refl (s : State) : MemFrame s s := rfl
theorem SendFrame.refl (s : State) : SendFrame s s := rfl
theorem PostFrame.refl (s : State) : PostFrame s s := ⟨rfl, fun _ => rfl⟩

theorem LogFrame.trans {s t u : State} (h : LogFrame s t) (g : LogFrame t u) : LogFrame s u :=
  (show logPart s u = logPart (logPart s t) u from rfl).trans ((congrArg (logPart · u) h).trans g)

theorem MemFrame.trans {s t u : State} (h : MemFrame s t) (g : MemFrame t u) : MemFrame s u :=
  (show memPart s u = memPart (memPart s t) u from rfl).trans ((congrArg (memPart · u) h).trans g)

theorem SendFrame.trans {s t u : State} (h : SendFrame s t) (g : SendFrame t u) : SendFrame s u :=
  (show sendPart s u = sendPart (sendPart s t) u from rfl).trans ((congrArg (sendPart · u) h).trans g)

theorem PostFrame.trans {s t u : State} (h : PostFrame s t) (g : PostFrame t u) : PostFrame s u := by
  refine ⟨?_, fun q => (g.2 q).trans (h.2 q)⟩
  have e := congrArg (fun x : State => sendPart { x with queues := u.queues } u) h.1
  exact e.trans g.1

theorem LogFrame.mem {s t : State} (h : LogFrame s t) : MemFrame s t := by
  unfold LogFrame at h
  rw [← h]
  rfl

theorem MemFrame.send {s t : State} (h : MemFrame s t) : SendFrame s t := by
  unfold MemFrame at h
  rw [← h]
  rfl

theorem SendFrame.post {s t : State} (h : SendFrame s t) : PostFrame s t := by
  unfold SendFrame at h
  rw [← h]
  exact ⟨rfl, fun _ => rfl⟩

theorem MemFrame.post {s t : State} (h : MemFrame s t) : PostFrame s t := h.send.post

theorem LogFrame.send {s t : State} (h : LogFrame s t) : SendFrame s t := h.mem.send

theorem LogFrame.post {s t : State} (h : LogFrame s t) : PostFrame s t := h.mem.post

/-- A step repeated for each element of a list keeps a frame that each step keeps. -/
theorem MemFrame.foldl {α : Type} {f : State → α → State} (h : ∀ s a, MemFrame s (f s a)) (l : List α) :
    ∀ s : State, MemFrame s (l.foldl f s) := by
  induction l with
  | nil => exact MemFrame.refl
  | cons a t ih => exact fun s => (h s a).trans (ih _)

theorem MemFrame.ite {s t u : State} {c : Prop} [Decidable c] (h : MemFrame s t) (g : MemFrame s u) :
    MemFrame s (if c then t else u) := by
  split <;> assumption

theorem SendFrame.ite {s t u : State} {c : Prop} [Decidable c] (h : SendFrame s t) (g : SendFrame s u) :
    SendFrame s (if c then t else u) := by
  split <;> assumption

theorem PostFrame.ite {s t u : State} {c : Prop} [Decidable c] (h : PostFrame s t) (g : PostFrame s u) :
    PostFrame s (if c then t else u) := by
  split <;> assumption

/-! ### Registers and events -/

theorem setReg_log (s : State) (k : RegKind) (a i : Nat) (w : Word) (j : Nat) : LogFrame s (setReg s k a i w j) := rfl

theorem setFlag_log (s : State) (k : RegKind) (a i b : Nat) : LogFrame s (setFlag s k a i b) := rfl

theorem setField_log (s : State) (k : RegKind) (a i lo n v : Nat) : LogFrame s (setField s k a i lo n v) := rfl

theorem count_log (s : State) (k : RegKind) (a i n j : Nat) : LogFrame s (count s k a i n j) := rfl

theorem sendMgmt_log (s : State) (id : String) (crit : Bool) (args : List String) : LogFrame s (sendMgmt s id crit args) := by
  unfold sendMgmt
  split <;> exact rfl

theorem raiseEvent_log (s : State) (src : Nat) : LogFrame s (raiseEvent s src) := by
  unfold raiseEvent
  split
  · exact ((setReg_log s _ _ _ _ _).trans (setField_log _ _ _ _ _ _ _)).trans
      ((sendMgmt_log _ _ _ _).trans rfl)
  · exact (setReg_log s _ _ _ _ _).trans (setField_log _ _ _ _ _ _ _)

theorem accessEvent_log (s : State) (e : Option Nat) : LogFrame s (accessEvent s e) := by
  unfold accessEvent
  split
  · exact raiseEvent_log _ _
  · exact LogFrame.refl _

end Sys2Proof.Machine
end

