-- ==== Sys2Proof/Laws/Memory.lean ====
section
/-!
SUPPORT. Memory: what a read of one byte sees after a write, and that every memory operation keeps the canonical form.
-/
namespace Sys2Proof.Machine

/-! ### The canonical form of a table -/

/-- A lower bound that a table's keys lie above may be lowered. -/
theorem mapWfFrom_weaken {α : Type} [DecidableEq α] {d : Nat → α} {l : Nat} {lo : Option Nat} {m : SMap α}
    (hl : ∀ k, lo = some k → k ≤ l) (h : mapWfFrom d (some l) m = true) : mapWfFrom d lo m = true := by
  cases m with
  | nil => rfl
  | cons e t =>
    obtain ⟨k, v⟩ := e
    simp only [mapWfFrom, Bool.and_eq_true, decide_eq_true_eq] at h ⊢
    refine ⟨⟨?_, h.1.2⟩, h.2⟩
    cases lo with
    | none => rfl
    | some j => simpa using Nat.lt_of_le_of_lt (hl j rfl) h.1.1

/-- Entries left out of a table leave it in canonical form. -/
theorem filter_wfFrom {α : Type} [DecidableEq α] {d : Nat → α} (p : Nat × α → Bool) {m : SMap α} :
    ∀ {lo : Option Nat}, mapWfFrom d lo m = true → mapWfFrom d lo (m.filter p) = true := by
  induction m with
  | nil => exact fun h => h
  | cons e t ih =>
    intro lo h
    obtain ⟨k, v⟩ := e
    simp only [mapWfFrom, Bool.and_eq_true, decide_eq_true_eq] at h
    rw [List.filter_cons]
    split
    · simp only [mapWfFrom, Bool.and_eq_true, decide_eq_true_eq]
      exact ⟨h.1, ih h.2⟩
    · refine mapWfFrom_weaken (l := k) ?_ (ih h.2)
      intro j hj
      subst hj
      have := h.1.1
      simp only [decide_eq_true_eq] at this
      exact Nat.le_of_lt this

theorem filter_wf {α : Type} [DecidableEq α] {d : Nat → α} (p : Nat × α → Bool) {m : SMap α} (h : mapWf d m = true) :
    mapWf d (m.filter p) = true := filter_wfFrom p h

theorem mapErase_wfFrom {α : Type} [DecidableEq α] {d : Nat → α} (k : Nat) {m : SMap α} :
    ∀ {lo : Option Nat}, mapWfFrom d lo m = true → mapWfFrom d lo (mapErase m k) = true := by
  have e : mapErase m k = m.filter (fun e => e.1 != k) := by
    induction m with
    | nil => rfl
    | cons x t ih =>
      obtain ⟨j, v⟩ := x
      by_cases h : j = k <;> simp [mapErase, h, ih]
  intro lo h
  rw [e]
  exact filter_wfFrom _ h

theorem mapInsert_wfFrom {α : Type} [DecidableEq α] {d : Nat → α} {k : Nat} {v : α} (hv : v ≠ d k) {m : SMap α} :
    ∀ {lo : Option Nat}, (∀ j, lo = some j → j < k) → mapWfFrom d lo m = true → mapWfFrom d lo (mapInsert m k v) = true := by
  induction m with
  | nil =>
    intro lo hk _
    cases lo with
    | none => simp [mapInsert, mapWfFrom, hv]
    | some j => simp [mapInsert, mapWfFrom, hv, hk j rfl]
  | cons e t ih =>
    intro lo hk h
    obtain ⟨j, w⟩ := e
    simp only [mapWfFrom, Bool.and_eq_true, decide_eq_true_eq] at h
    unfold mapInsert
    split
    · rename_i hkj
      simp only [mapWfFrom, Bool.and_eq_true, decide_eq_true_eq]
      refine ⟨⟨?_, hv⟩, ⟨hkj, h.1.2⟩, h.2⟩
      cases lo with
      | none => rfl
      | some l => simpa using hk l rfl
    · split
      · rename_i hkj
        subst hkj
        simp only [mapWfFrom, Bool.and_eq_true, decide_eq_true_eq]
        refine ⟨⟨?_, hv⟩, h.2⟩
        cases lo with
        | none => rfl
        | some l => simpa using hk l rfl
      · simp only [mapWfFrom, Bool.and_eq_true, decide_eq_true_eq]
        refine ⟨h.1, ih ?_ h.2⟩
        intro l hl
        cases hl
        omega

/-- A write of a table keeps its canonical form. -/
theorem mapSet_wf {α : Type} [DecidableEq α] {d : Nat → α} (k : Nat) (v : α) {m : SMap α} (h : mapWf d m = true) :
    mapWf d (mapSet d m k v) = true := by
  unfold mapSet
  split
  · exact mapErase_wfFrom k h
  · rename_i hv
    exact mapInsert_wfFrom hv (by simp) h

/-- Two tables, the keys of the first below a bound and those of the second from it on, make one. -/
theorem append_wfFrom {α : Type} [DecidableEq α] {d : Nat → α} {n : Nat} {a b : SMap α} (ha : ∀ e ∈ a, e.1 < n)
    (hb : ∀ e ∈ b, n ≤ e.1) (hbw : mapWf d b = true) :
    ∀ {lo : Option Nat}, (∀ j, lo = some j → j < n) → mapWfFrom d lo a = true → mapWfFrom d lo (a ++ b) = true := by
  induction a with
  | nil =>
    intro lo hlo _
    cases b with
    | nil => rfl
    | cons e t =>
      obtain ⟨k, v⟩ := e
      have hk := hb (k, v) (by simp)
      simp only [mapWf, mapWfFrom, Bool.and_eq_true, decide_eq_true_eq, List.nil_append] at hbw ⊢
      refine ⟨⟨?_, hbw.1.2⟩, hbw.2⟩
      cases lo with
      | none => rfl
      | some j => simpa using Nat.lt_of_lt_of_le (hlo j rfl) hk
  | cons e t ih =>
    intro lo hlo h
    obtain ⟨k, v⟩ := e
    simp only [mapWfFrom, Bool.and_eq_true, decide_eq_true_eq, List.cons_append] at h ⊢
    refine ⟨h.1, ih (fun e he => ha e (by simp [he])) ?_ h.2⟩
    intro j hj
    cases hj
    exact ha (k, v) (by simp)

/-- A run of consecutive addresses without its zeros is in canonical form. -/
theorem run_wfFrom (l : List Byte) : ∀ (n : Nat) {lo : Option Nat}, (∀ j, lo = some j → j < n) →
    mapWfFrom (fun _ => (0 : Byte)) lo ((l.mapIdx (fun i x => (n + i, x))).filter (fun e => e.2 != 0)) = true := by
  induction l with
  | nil => intro _ lo _; rfl
  | cons b t ih =>
    intro n lo hlo
    have shift : t.mapIdx (fun i x => (n + (i + 1), x)) = t.mapIdx (fun i x => (n + 1 + i, x)) := by
      congr 1; funext i x; congr 1; omega
    rw [List.mapIdx_cons, List.filter_cons]
    simp only [shift, Nat.add_zero]
    split
    · rename_i hb
      simp only [mapWfFrom, Bool.and_eq_true, decide_eq_true_eq]
      refine ⟨⟨?_, by simpa using hb⟩, ih (n + 1) (by intro j hj; cases hj; omega)⟩
      cases lo with
      | none => rfl
      | some j => simpa using hlo j rfl
    · exact ih (n + 1) (fun j hj => Nat.lt_succ_of_lt (hlo j hj))

/-! ### Bytes -/

theorem unlisted_cut_other {lo n a : Nat} (h : a < lo ∨ lo + n ≤ a) (l : List Undef) :
    unlisted (cutUndef lo n l) a = unlisted l a := by
  induction l with
  | nil => rfl
  | cons r t ih =>
    by_cases h1 : r.lo < lo <;> by_cases h2 : max r.lo (lo + n) < r.lo + r.len <;>
      simp only [cutUndef, h1, h2, if_true, if_false, List.nil_append, List.cons_append, unlisted, ih] <;>
      repeat' (first | omega | rfl | split)
    all_goals (congr 1; omega)

theorem unlisted_cut_same {lo n a : Nat} (h : lo ≤ a ∧ a < lo + n) (l : List Undef) : unlisted (cutUndef lo n l) a = 0 := by
  induction l with
  | nil => rfl
  | cons r t ih =>
    by_cases h1 : r.lo < lo <;> by_cases h2 : max r.lo (lo + n) < r.lo + r.len <;>
      simp only [cutUndef, h1, h2, if_true, if_false, List.nil_append, List.cons_append, unlisted, ih] <;>
      repeat' (first | omega | rfl | split)

/-- A read's default may be replaced by one that agrees at the address read. -/
theorem mapGet_congr {α : Type} {d e : Nat → α} {k : Nat} (h : d k = e k) (m : SMap α) : mapGet d m k = mapGet e m k := by
  induction m with
  | nil => exact h
  | cons x t ih =>
    obtain ⟨j, v⟩ := x
    simp [mapGet, ih]

/-- A byte that was set is read back. -/
@[simp] theorem memByte_setByte_same (s : State) (a : Nat) (b : Byte) : memByte (setByte s a b) a = b := by
  have h : unlisted (cutUndef a 1 s.undef) a = 0 := unlisted_cut_same ⟨Nat.le_refl a, Nat.lt_succ_self a⟩ _
  show mapGet (unlisted (cutUndef a 1 s.undef)) (mapSet (fun _ => 0) s.mem a b) a = b
  rw [mapGet_congr (e := fun _ => 0) h]
  exact mapGet_set_same _ _ _ _

/-- A byte set leaves every other byte. -/
theorem memByte_setByte_other (s : State) {a x : Nat} (b : Byte) (h : x ≠ a) : memByte (setByte s a b) x = memByte s x := by
  have e : unlisted (cutUndef a 1 s.undef) x = unlisted s.undef x := unlisted_cut_other (by omega) _
  show mapGet (unlisted (cutUndef a 1 s.undef)) (mapSet (fun _ => 0) s.mem a b) x = mapGet (unlisted s.undef) s.mem x
  rw [mapGet_congr e]
  unfold mapSet
  split
  · exact mapGet_erase_other _ _ h
  · exact mapGet_insert_other _ _ _ h

/-- A string of bytes stored leaves every byte outside it. -/
theorem memByte_setBytes_other {x : Nat} (l : List Byte) : ∀ (s : State) (a : Nat), x < a ∨ a + l.length ≤ x →
    memByte (setBytes s a l) x = memByte s x := by
  induction l with
  | nil => exact fun _ _ _ => rfl
  | cons b t ih =>
    intro s a h
    simp only [List.length_cons] at h
    exact (ih _ _ (by omega)).trans (memByte_setByte_other s b (by omega))

/-- The bytes of a string stored are read back in order. -/
theorem memBytes_setBytes_same (l : List Byte) : ∀ (s : State) (a : Nat), memBytes (setBytes s a l) a l.length = l := by
  induction l with
  | nil => exact fun _ _ => rfl
  | cons b t ih =>
    intro s a
    have h := memByte_setBytes_other (x := a) t (setByte s a b) (a + 1) (by omega)
    simp only [setBytes, List.length_cons, memBytes, h, memByte_setByte_same, ih]

/-! ### Every memory operation keeps the canonical form -/

/-- What an operation that keeps the canonical form of memory does. -/
def KeepsForm (s t : State) : Prop := Memory.wf s.mem = true → Memory.wf t.mem = true

theorem KeepsForm.refl (s : State) : KeepsForm s s := fun h => h
theorem KeepsForm.trans {s t u : State} (h : KeepsForm s t) (g : KeepsForm t u) : KeepsForm s u := fun x => g (h x)
theorem KeepsForm.of_eq {s t : State} (h : t.mem = s.mem) : KeepsForm s t := fun x => by rw [h]; exact x
/-- Updates of other fields before an operation. -/
theorem KeepsForm.before {s t u : State} (g : KeepsForm t u) (h : t.mem = s.mem := by rfl) : KeepsForm s u :=
  (KeepsForm.of_eq h).trans g
/-- Updates of other fields after an operation. -/
theorem KeepsForm.after {s t u : State} (g : KeepsForm s t) (h : u.mem = t.mem := by rfl) : KeepsForm s u :=
  g.trans (KeepsForm.of_eq h)
theorem KeepsForm.ite {s t u : State} {c : Prop} [Decidable c] (h : KeepsForm s t) (g : KeepsForm s u) :
    KeepsForm s (if c then t else u) := by
  split <;> assumption

/-- The memory after reset is in canonical form. -/
theorem reset_form : Memory.wf State.reset.mem = true := rfl

theorem setByte_form (s : State) (a : Nat) (b : Byte) : KeepsForm s (setByte s a b) := fun h => mapSet_wf a b h

theorem setBytes_form (l : List Byte) : ∀ (s : State) (a : Nat), KeepsForm s (setBytes s a l) := by
  induction l with
  | nil => exact fun s _ => KeepsForm.refl s
  | cons b t ih => exact fun s a => (setByte_form s a b).trans (ih _ _)

theorem undefineRange_form (s : State) (lo n : Nat) : KeepsForm s (undefineRange s lo n) := fun h => filter_wf _ h

theorem clearRange_form (s : State) (lo n : Nat) : KeepsForm s (clearRange s lo n) := fun h => filter_wf _ h

theorem putStore_form (s : State) (c off : Nat) (b : List Byte) : KeepsForm s (putStore s c off b) :=
  (setBytes_form _ _ _).trans (setBytes_form _ _ _)

/-- A cluster's whole store replaced keeps the canonical form. -/
theorem putImage_form (s : State) (c : Nat) (b : List Byte) : KeepsForm s (putImage s c b) := by
  intro h
  have hc : Memory.wf (clearRange s (storeBase c) (2 ^ 24)).mem = true := clearRange_form _ _ _ h
  have outside : ∀ e ∈ (clearRange s (storeBase c) (2 ^ 24)).mem, e.1 < storeBase c ∨ storeBase c + 2 ^ 24 ≤ e.1 := by
    intro e he
    simpa using (List.mem_filter.mp he).2
  show mapWf (fun _ => 0) _ = true
  unfold putImage
  dsimp only
  rw [List.append_assoc]
  refine append_wfFrom (n := storeBase c) ?_ ?_ ?_ (by simp) (filter_wf _ hc)
  · intro e he
    simpa using (List.mem_filter.mp he).2
  · intro e he
    rcases List.mem_append.mp he with he | he
    · obtain ⟨i, hi, rfl⟩ := List.mem_mapIdx.mp (List.mem_filter.mp he).1
      exact Nat.le_add_right _ _
    · simpa using (List.mem_filter.mp he).2
  · refine append_wfFrom (n := storeBase c + 2 ^ 24) ?_ ?_ (filter_wf _ hc) (by simp) (run_wfFrom _ _ (by simp))
    · intro e he
      obtain ⟨i, hi, rfl⟩ := List.mem_mapIdx.mp (List.mem_filter.mp he).1
      have : i < 2 ^ 24 := Nat.lt_of_lt_of_le hi (by rw [List.length_take]; exact Nat.min_le_left _ _)
      exact Nat.add_lt_add_left this _
    · intro e he
      have h1 := outside e (List.mem_filter.mp he).1
      have h2 : storeBase c ≤ e.1 := by simpa using (List.mem_filter.mp he).2
      omega

end Sys2Proof.Machine
end

