-- ==== Sys2Proof/Laws/Access.lean ====
section
/-!
SUPPORT. What an access of memory by the module's own engines does: one lemma for each shared operation says that it changes only
what `MemFrame` allows and keeps the memory's canonical form.
-/
namespace Sys2Proof.Machine

/-- What every operation of an engine's access does. -/
structure MemStep (s t : State) : Prop where
  frame : MemFrame s t
  form  : KeepsForm s t

theorem MemStep.refl (s : State) : MemStep s s := ⟨rfl, fun h => h⟩

theorem MemStep.trans {s t u : State} (h : MemStep s t) (g : MemStep t u) : MemStep s u :=
  ⟨h.frame.trans g.frame, h.form.trans g.form⟩

theorem MemStep.ite {s t u : State} {c : Prop} [Decidable c] (h : MemStep s t) (g : MemStep s u) : MemStep s (if c then t else u) := by
  split <;> assumption

/-- An update of what an access may change beside memory. -/
theorem MemStep.of_frame {s t : State} (h : MemFrame s t) (e : t.mem = s.mem) : MemStep s t := ⟨h, KeepsForm.of_eq e⟩

/-- An operation of the event and register logs. -/
theorem LogFrame.access {s t : State} (h : LogFrame s t) : MemStep s t := by
  refine ⟨h.mem, ?_⟩
  unfold LogFrame at h
  rw [← h]
  exact KeepsForm.of_eq rfl

/-- A step repeated for each element of a list. -/
theorem MemStep.foldl {α : Type} {f : State → α → State} (h : ∀ s a, MemStep s (f s a)) (l : List α) :
    ∀ s : State, MemStep s (l.foldl f s) := by
  induction l with
  | nil => exact MemStep.refl
  | cons a t ih => exact fun s => (h s a).trans (ih _)

theorem count_access (s : State) (k : RegKind) (a i n j : Nat) : MemStep s (count s k a i n j) := (count_log _ _ _ _ _ _).access

theorem setFlag_access (s : State) (k : RegKind) (a i b : Nat) : MemStep s (setFlag s k a i b) := (setFlag_log _ _ _ _ _).access

theorem raiseEvent_access (s : State) (src : Nat) : MemStep s (raiseEvent s src) := (raiseEvent_log _ _).access

/-! ### Memory -/

theorem setBytes_access (s : State) (a : Nat) (bytes : List Byte) : MemStep s (setBytes s a bytes) := by
  refine ⟨?_, setBytes_form _ _ _⟩
  induction bytes generalizing s a with
  | nil => exact MemFrame.refl s
  | cons b t ih => exact MemFrame.trans (show MemFrame s (setByte s a b) from rfl) (ih _ _)

theorem setSectorPoison_access (s : State) (sec : Nat) (b : Bool) : MemStep s (setSectorPoison s sec b) := .of_frame rfl rfl

theorem setSectorErrors_access (s : State) (sec n : Nat) : MemStep s (setSectorErrors s sec n) := .of_frame rfl rfl

theorem setCellarLine_access (s : State) (line : Nat) (c : Option CelLine) : MemStep s (setCellarLine s line c) := .of_frame rfl rfl

theorem setDirEntry_access (s : State) (line : Nat) (e : Option DirEntry) : MemStep s (setDirEntry s line e) := .of_frame rfl rfl

theorem setLost_access (s : State) (line d : Nat) : MemStep s (setLost s line d) := .of_frame rfl rfl

theorem dropCopies_access (s : State) (line : Nat) : MemStep s (dropCopies s line) := .of_frame rfl rfl

theorem clearReservations_access (s : State) (line : Nat) (keep : Option Nat) : MemStep s (clearReservations s line keep) :=
  .of_frame rfl rfl

theorem freeBytes_access (s : State) (n : Nat) : MemStep s (freeBytes s n).2 := .of_frame rfl rfl

theorem windowBytes_access (s : State) (a n : Nat) : MemStep s (windowBytes s a n).2 := by
  unfold windowBytes
  dsimp only
  split
  · exact freeBytes_access _ _
  · exact MemStep.refl _

theorem takeFree_access (s : State) : MemStep s (takeFree s).2 := .of_frame rfl rfl

theorem uncorrectable_access (s : State) (sec : Nat) : MemStep s (uncorrectable s sec) := by
  have h := (setSectorErrors_access s sec 0).trans (setSectorPoison_access _ sec true)
  have flag : ∀ (x : State) k l a i b, MemStep x (setFlag (count x k a i) l a 0 b) :=
    fun x k l a i b => (count_access x k a i _ _).trans (setFlag_access _ _ _ _ _)
  unfold uncorrectable
  dsimp only
  refine MemStep.trans ?_ (raiseEvent_access _ _)
  refine MemStep.ite ?_ (MemStep.trans ?_ (setReg_log _ _ _ _ _ _).access) <;>
    exact MemStep.ite (h.trans (flag _ _ _ _ _ _)) (h.trans (flag _ _ _ _ _ _))

theorem correction_access (s : State) (sec : Nat) : MemStep s (correction s sec) := by
  unfold correction
  dsimp only
  refine MemStep.ite (MemStep.trans ?_ (raiseEvent_access _ _)) ?_ <;> exact .of_frame rfl rfl

theorem corrected_access (s : State) (sec : Nat) : MemStep s (corrected s sec) := by
  unfold corrected
  dsimp only
  split <;> exact ((setSectorErrors_access s sec 0).trans (count_access _ _ _ _ _ _)).trans (correction_access _ _)

theorem senseSector_access (s : State) (sec : Nat) : MemStep s (senseSector s sec) := by
  unfold senseSector
  split
  · exact uncorrectable_access _ _
  · split
    · exact MemStep.refl _
    · split
      · exact MemStep.refl _
      · exact corrected_access _ _
      · exact corrected_access _ _
      · exact uncorrectable_access _ _

theorem storeSector_access (s : State) (sec : Nat) (bytes : List Byte) : MemStep s (storeSector s sec bytes) := by
  unfold storeSector
  dsimp only
  split
  · exact raiseEvent_access _ _
  · refine MemStep.trans ?_ (setBytes_access _ _ _)
    refine MemStep.trans ?_ (setSectorErrors_access _ _ _)
    refine MemStep.trans ?_ (setSectorPoison_access _ _ _)
    split
    · exact .of_frame rfl rfl
    · exact MemStep.refl _

theorem storePoisoned_access (s : State) (sec : Nat) : MemStep s (storePoisoned s sec) :=
  MemStep.ite (raiseEvent_access _ _) (setSectorPoison_access _ _ _)

/-! ### The cellar -/

theorem countLine_access (s : State) (u : Nat) : MemStep s (countLine s u) :=
  MemStep.ite (count_access _ _ _ _ _ _) (count_access _ _ _ _ _ _)

theorem writebackSectors_access (line : Nat) (c : CelLine) (n : Nat) : ∀ s : State, MemStep s (writebackSectors s line c n) := by
  induction n with
  | zero => exact MemStep.refl
  | succ n ih => exact fun s => (MemStep.ite (storePoisoned_access _ _) (storeSector_access _ _ _)).trans (ih _)

theorem evictLine_access (s : State) (line : Nat) : MemStep s (evictLine s line) := by
  unfold evictLine
  split
  · exact MemStep.refl _
  · exact MemStep.ite ((((setCellarLine_access s line none).trans (count_access _ _ _ _ _ _)).trans (countLine_access _ _)).trans
      (writebackSectors_access _ _ _ _)) (setCellarLine_access _ _ _)

theorem allocWay_access (s : State) (line ways : Nat) : MemStep s (allocWay s line ways).2 := by
  unfold allocWay
  dsimp only
  split
  · exact MemStep.refl _
  · split
    · exact (takeFree_access s).trans (evictLine_access _ _)
    · exact takeFree_access s

theorem fillLine_access (s : State) (line : Nat) : MemStep s (fillLine s line).2.2 :=
  ((((senseSector_access s _).trans (senseSector_access _ _)).trans (senseSector_access _ _)).trans (senseSector_access _ _)).trans
    (countLine_access _ _)

theorem fetchLine_access (s : State) (line ways : Nat) : MemStep s (fetchLine s line ways) := by
  unfold fetchLine
  dsimp only
  split
  · exact count_access _ _ _ _ _ _
  · exact (((count_access s _ _ _ _ _).trans (allocWay_access _ _ _)).trans (fillLine_access _ _)).trans (setCellarLine_access _ _ _)

theorem poisonLine_access (s : State) (line : Nat) : MemStep s (poisonLine s line) := by
  unfold poisonLine
  split
  · exact MemStep.refl _
  · exact setCellarLine_access _ _ _

theorem noteTimeout_access (s : State) (home agent line : Nat) : MemStep s (noteTimeout s home agent line) :=
  MemStep.ite (MemStep.refl _) (setReg_log _ _ _ _ _ _).access

theorem poisonSeen_access (s : State) (home : Nat) : MemStep s (poisonSeen s home) := setFlag_access _ _ _ _ _

theorem doorbellMisuse_access (s : State) (line : Nat) : MemStep s (doorbellMisuse s line) :=
  MemStep.ite ((setFlag_access _ _ _ _ _).trans (raiseEvent_access _ _)) (MemStep.refl _)

/-! ### The homes' transactions -/

theorem cohReply_access (s : State) (home typ : Nat) (r : CohReq) (p : List Byte) (d : Nat) : MemStep s (cohReply s home typ r p d) :=
  .of_frame rfl rfl

theorem cohSnoops_access (s : State) (home typ : Nat) (r : CohReq) (line : Nat) (l : List Nat) :
    MemStep s (cohSnoops s home typ r line l) :=
  MemStep.foldl (fun x a => .of_frame (t := cohSnoop x home typ r a line) rfl rfl) l s

theorem allocEntry_access (s : State) (line : Nat) : MemStep s (allocEntry s line) := by
  unfold allocEntry
  split
  · exact MemStep.refl _
  · exact .of_frame rfl rfl

theorem tidyEntry_access (s : State) (line : Nat) : MemStep s (tidyEntry s line) := by
  unfold tidyEntry
  split
  · exact MemStep.ite (setDirEntry_access _ _ _) (MemStep.refl _)
  · exact MemStep.refl _

theorem putHolders_access (s : State) (line : Nat) (excl : Bool) (hs : List Nat) : MemStep s (putHolders s line excl hs) :=
  ((allocEntry_access s line).trans (setDirEntry_access _ _ _)).trans (tidyEntry_access _ _)

theorem homeLine_access (s : State) (src line : Nat) : MemStep s (homeLine s src line).2.2 := by
  unfold homeLine
  dsimp only
  split <;> exact fetchLine_access _ _ _

theorem takeData_access (s : State) (ways agent line : Nat) (dirty : Bool) (d : List Byte) :
    MemStep s (takeData s ways agent line dirty d) := by
  have h : MemStep s (fetchLine (if dirty then clearReservations s line (some agent) else s) line ways) :=
    (MemStep.ite (clearReservations_access _ _ _) (MemStep.refl _)).trans (fetchLine_access _ _ _)
  unfold takeData
  dsimp only
  generalize fetchLine _ line ways = x at h ⊢
  split
  · refine h.trans ?_
    split
    · exact (setCellarLine_access x line _).trans (doorbellMisuse_access _ _)
    · exact setCellarLine_access x line _
  · exact h

theorem answerPoison_access (s : State) (home : Nat) (r : CohReq) : MemStep s (answerPoison s home r) :=
  (poisonSeen_access _ _).trans (cohReply_access _ _ _ _ _ _)

theorem maskSector_access (s : State) (home : Nat) (c : CelLine) (p : List Byte) (mask k : Nat) :
    MemStep s (maskSector s home c p mask k).2 := by
  unfold maskSector
  dsimp only
  split
  · exact MemStep.refl _
  · split
    · split
      · exact poisonSeen_access _ _
      · exact ((setFlag_access _ _ _ _ _).trans (poisonSeen_access _ _)).trans (raiseEvent_access _ _)
    · exact MemStep.refl _

theorem maskSectors_access (home : Nat) (p : List Byte) (mask n : Nat) :
    ∀ (s : State) (c : CelLine), MemStep s (maskSectors s home c p mask n).2 := by
  induction n with
  | zero => exact fun s _ => MemStep.refl s
  | succ n ih => exact fun s c => (maskSector_access s home c p mask _).trans (ih _ _)

theorem applyMasked_access (s : State) (home : Nat) (r : CohReq) : MemStep s (applyMasked s home r) := by
  have h := (clearReservations_access s r.line (some r.src)).trans (fetchLine_access _ r.line (requesterWays s r.src))
  unfold applyMasked
  dsimp only
  split
  · exact h.trans (((maskSectors_access _ _ _ _ _ _).trans (setCellarLine_access _ _ _)).trans (doorbellMisuse_access _ _))
  · exact h

theorem pokeLine_access (s : State) (line off : Nat) (b : List Byte) : MemStep s (pokeLine s line off b) := by
  unfold pokeLine
  split
  · exact (setCellarLine_access _ _ _).trans (doorbellMisuse_access _ _)
  · exact MemStep.refl _

theorem applyAtomic_access (s : State) (home : Nat) (r : CohReq) (d : List Byte) : MemStep s (applyAtomic s home r d) := by
  unfold applyAtomic
  dsimp only
  refine MemStep.trans (count_access s .celAtomics home 0 1 0) ?_
  refine MemStep.ite ?_ (((clearReservations_access _ _ _).trans (pokeLine_access _ _ _ _)).trans (cohReply_access _ _ _ _ _ _))
  refine MemStep.trans ?_ (cohReply_access _ _ _ _ _ _)
  refine MemStep.trans ?_ (clearReservations_access _ _ _)
  split
  · exact (pokeLine_access _ r.line r.offset _).trans (.of_frame rfl rfl)
  · exact .of_frame rfl rfl

theorem applyReduce_access (s : State) (home : Nat) (r : CohReq) (d : List Byte) : MemStep s (applyReduce s home r d) :=
  (((count_access s .celAtomics home 0 1 0).trans (clearReservations_access _ _ _)).trans (pokeLine_access _ _ _ _)).trans
    (cohReply_access _ _ _ _ _ _)

theorem setReservation_access (s : State) (home : Nat) (r : CohReq) : MemStep s (setReservation s home r) := by
  unfold setReservation
  split
  · exact .of_frame rfl rfl
  · exact MemStep.refl _

theorem answerShared_access (s : State) (home : Nat) (r : CohReq) : MemStep s (answerShared s home r) :=
  (homeLine_access s r.src r.line).trans
    (MemStep.ite (answerPoison_access _ _ _) ((putHolders_access _ _ _ _).trans (cohReply_access _ _ _ _ _ _)))

theorem carryOut_access (s : State) (home : Nat) (r : CohReq) : MemStep s (carryOut s home r) := by
  have reply : ∀ (x : State) t p d, MemStep x (cohReply x home t r p d) := fun _ _ _ _ => cohReply_access _ _ _ _ _ _
  have line := homeLine_access s r.src r.line
  have grant : ∀ t p d,
      MemStep s (if (homeLine s r.src r.line).2.1 ≠ 0#4 then answerPoison (homeLine s r.src r.line).2.2 home r
        else cohReply (putHolders (homeLine s r.src r.line).2.2 r.line true [r.src]) home t r p d) := fun _ _ _ =>
    line.trans (MemStep.ite (answerPoison_access _ _ _) ((putHolders_access _ _ _ _).trans (reply _ _ _ _)))
  unfold carryOut
  dsimp only
  split
  · exact MemStep.ite (reply _ _ _ _) (MemStep.ite ((putHolders_access _ _ _ _).trans (reply _ _ _ _)) (grant _ _ _))
  · exact MemStep.ite (reply _ _ _ _) (grant _ _ _)
  · exact MemStep.ite (reply _ _ _ _) (MemStep.ite (grant _ _ _) (answerShared_access _ _ _))
  · exact line.trans (MemStep.ite (answerPoison_access _ _ _) ((setReservation_access _ _ _).trans (reply _ _ _ _)))
  · exact ((putHolders_access _ _ _ _).trans (applyMasked_access _ _ _)).trans (reply _ _ _ _)
  · exact line.trans (MemStep.ite (answerPoison_access _ _ _) ((putHolders_access _ _ _ _).trans (applyAtomic_access _ _ _ _)))
  · exact line.trans (MemStep.ite (answerPoison_access _ _ _) ((putHolders_access _ _ _ _).trans (applyReduce_access _ _ _ _)))
  · exact MemStep.refl _
  · exact MemStep.refl _

/-- A request's final action. -/
theorem finishRequest_access (s : State) (home : Nat) (r : CohReq) : MemStep s (finishRequest s home r) :=
  (carryOut_access s home r).trans (tidyEntry_access _ _)

theorem afterSnoop_access (s : State) (typ agent line : Nat) : MemStep s (afterSnoop s typ agent line) := by
  unfold afterSnoop
  split
  · exact MemStep.refl _
  · exact MemStep.ite (putHolders_access _ _ _ _) (putHolders_access _ _ _ _)

theorem takeAnswer_access (s : State) (ways typ agent line : Nat) (ans : Option (Bool × List Byte)) :
    MemStep s (takeAnswer s ways typ agent line ans) := by
  unfold takeAnswer
  split
  · exact MemStep.ite (takeData_access _ _ _ _ _ _) (MemStep.refl _)
  · exact MemStep.ite (putHolders_access _ _ _ _) (MemStep.refl _)

theorem setTxns_access (s : State) (l : List Txn) : MemStep s { s with txns := l } := .of_frame rfl rfl

theorem closeTxn_access (s : State) (t : Txn) (line : Nat) : MemStep s (closeTxn s t line) := by
  refine MemStep.trans (setTxns_access s (s.txns.filter (fun x => x.req.line != t.req.line))) ?_
  unfold closeTxn
  dsimp only
  generalize { s with txns := s.txns.filter (fun x => x.req.line != t.req.line) } = x
  split
  · exact ((tidyEntry_access _ _).trans (allocEntry_access _ _)).trans (finishRequest_access _ _ _)
  · split
    · exact (answerShared_access _ _ _).trans (tidyEntry_access _ _)
    · exact finishRequest_access _ _ _

theorem answered_access (s : State) (t : Txn) (agent line : Nat) : MemStep s (answered s t agent line) := by
  refine MemStep.trans (afterSnoop_access s (snoopType t line) agent line) ?_
  unfold answered
  dsimp only
  split
  · exact closeTxn_access _ _ _
  · exact setTxns_access _ _

theorem loseLine_access (s : State) (ways home agent line : Nat) : MemStep s (loseLine s ways home agent line) := by
  refine MemStep.trans ?_ (raiseEvent_access _ _)
  refine MemStep.trans ?_ (noteTimeout_access _ _ _ _)
  refine MemStep.trans ?_ (count_access _ _ _ _ _ _)
  refine MemStep.trans ?_ (count_access _ _ _ _ _ _)
  exact (((fetchLine_access s line ways).trans (poisonLine_access _ _)).trans (dropCopies_access _ _)).trans
    (setDirEntry_access _ _ _)

theorem failAgent_access (s : State) (home agent : Nat) : MemStep s (failAgent s home agent) :=
  (setFlag_access _ _ _ _ _).trans (setFlag_access _ _ _ _ _)

theorem timeoutTxn_access (s : State) (t : Txn) (line : Nat) : MemStep s (timeoutTxn s t line) := by
  have h : ∀ l, MemStep s { s with txns := l } := fun _ => .of_frame rfl rfl
  have f := MemStep.foldl (fun (x : State) a => failAgent_access x t.home a)
  exact ((((h _).trans (f _ _)).trans (loseLine_access _ _ _ _ _)).trans (tidyEntry_access _ _)).trans (cohReply_access _ _ _ _ _ _)

theorem makeRoom_access (s : State) (ways home line : Nat) : MemStep s (makeRoom s ways home line).2 := by
  unfold makeRoom
  dsimp only
  split
  · exact MemStep.refl _
  · split
    · exact MemStep.refl _
    · split
      · exact (count_access _ _ _ _ _ _).trans (loseLine_access _ _ _ _ _)
      · split
        · exact ((count_access _ _ _ _ _ _).trans (count_access _ _ _ _ _ _)).trans (setDirEntry_access _ _ _)
        · exact (count_access _ _ _ _ _ _).trans (count_access _ _ _ _ _ _)

/-- A request's admission. -/
theorem admitRequest_access (s : State) (home : Nat) (r : CohReq) : MemStep s (admitRequest s home r) := by
  have h : ∀ (x : State) l, MemStep x { x with txns := l } := fun _ _ => .of_frame rfl rfl
  have room := makeRoom_access s (requesterWays s r.src) home r.line
  unfold admitRequest
  refine MemStep.ite ((loseLine_access _ _ _ _ _).trans (cohReply_access _ _ _ _ _ _)) (MemStep.ite (finishRequest_access _ _ _) ?_)
  dsimp only
  split
  · exact (room.trans (cohSnoops_access _ _ _ _ _ _)).trans (h _ _)
  · refine (room.trans (allocEntry_access _ _)).trans (MemStep.ite (finishRequest_access _ _ _) ?_)
    exact (cohSnoops_access _ _ _ _ _ _).trans (h _ _)

theorem admitWaiting_access (s : State) (home : Nat) (r : CohReq) : MemStep s (admitWaiting s home r) :=
  MemStep.ite (cohReply_access _ _ _ _ _ _)
    (MemStep.ite ((raiseEvent_access _ _).trans (cohReply_access _ _ _ _ _ _)) (admitRequest_access _ _ _))

theorem admitNext_access (s : State) (home set : Nat) : MemStep s (admitNext s home set) := by
  have slot : ∀ l, MemStep s (setReserved s home l) := fun _ => .of_frame rfl rfl
  have wait : ∀ l, MemStep s (setHomeQueue s home l) := fun _ => .of_frame rfl rfl
  unfold admitNext
  refine MemStep.ite ?_ (MemStep.refl _)
  split
  · exact ((slot _).trans (count_access _ _ _ _ _ _)).trans (admitWaiting_access _ _ _)
  · split
    · exact (wait _).trans (admitWaiting_access _ _ _)
    · exact MemStep.refl _

/-! ### The home's part in an engine's access -/

theorem freeHeld_access (s : State) (agent line : Nat) : MemStep s (freeHeld s agent line).2 := by
  unfold freeHeld
  split
  · dsimp only
    split
    · exact (takeFree_access s).trans (freeBytes_access _ _)
    · exact takeFree_access s
  · exact MemStep.refl _

theorem agentSnooped_access (s : State) (typ agent line : Nat) (held : AgentLine) :
    MemStep s (agentSnooped s typ agent line held).2 := by
  have put : ∀ d, MemStep s (putCopy s agent line false d) := fun _ => .of_frame rfl rfl
  have drop : MemStep s (dropCopy s agent line) := .of_frame rfl rfl
  have after : ∀ d, MemStep s (if typ = 0x21 then putCopy s agent line false d else dropCopy s agent line) :=
    fun d => MemStep.ite (put d) drop
  unfold agentSnooped
  split
  · exact MemStep.refl _
  · dsimp only
    split
    · exact drop
    · split
      · exact drop
      · exact after _
      · split <;> exact after _

theorem snoopNow_access (s : State) (ways typ line agent : Nat) : MemStep s (snoopNow s ways typ line agent) :=
  (((freeHeld_access s agent line).trans (agentSnooped_access _ _ _ _ _)).trans (takeAnswer_access _ _ _ _ _ _)).trans
    (afterSnoop_access _ _ _ _)

theorem answerNow_access (s : State) (t : Txn) (agent line : Nat) : MemStep s (answerNow s t agent line) := by
  have out : ∀ l, MemStep s { s with cohOut := l } := fun _ => .of_frame rfl rfl
  unfold answerNow
  dsimp only
  split
  · exact ((out _).trans (takeAnswer_access _ _ _ _ _ _)).trans (answered_access _ _ _ _)
  · exact ((((out _).trans (freeHeld_access _ agent line)).trans (agentSnooped_access _ _ _ _ _)).trans
      (takeAnswer_access _ _ _ _ _ _)).trans (answered_access _ _ _ _)

theorem answerAll_access (t : Txn) (l : List (Nat × Nat)) : ∀ s : State, MemStep s (answerAll t l s) := by
  induction l with
  | nil => exact MemStep.refl
  | cons p l ih => exact fun s => (answerNow_access s _ p.1 p.2).trans (ih _)

theorem endTxn_access (s : State) (t : Txn) : MemStep s (endTxn s t) := by
  unfold endTxn
  split
  · exact timeoutTxn_access _ _ _
  · exact answerAll_access _ _ _

theorem settleLine_access (home line n : Nat) : ∀ s : State, MemStep s (settleLine home line n s) := by
  induction n with
  | zero => exact MemStep.refl
  | succ n ih =>
    intro s
    unfold settleLine
    refine MemStep.ite (MemStep.refl _) ?_
    split
    · exact (endTxn_access _ _).trans (ih _)
    · refine MemStep.ite ((admitNext_access _ _ _).trans (ih _)) ?_
      split
      · exact (endTxn_access _ _).trans (ih _)
      · exact MemStep.refl _

theorem roomNow_access (s : State) (ways home line : Nat) : MemStep s (roomNow s ways home line) := by
  have room := makeRoom_access s ways home line
  unfold roomNow
  dsimp only
  split
  · exact room.trans (MemStep.foldl (fun x a => snoopNow_access x ways _ _ a) _ _)
  · exact room

/-- An engine's access reaches its line's home. -/
theorem engineOpen_access (s : State) (ways line : Nat) (inval : Bool) (sector : Option Nat := none) :
    MemStep s (engineOpen s ways line inval sector).2 := by
  have h := fun n => (setLost_access s line 0).trans (settleLine_access (homeOf s (128 * line)) line n _)
  unfold engineOpen
  dsimp only
  split
  · exact (h _).trans ((loseLine_access _ _ _ _ _).trans (setLost_access _ _ _))
  · have r := fun n => (h n).trans (roomNow_access _ ways (homeOf s (128 * line)) line)
    split
    · exact h _
    split
    · exact (r _).trans (snoopNow_access _ _ _ _ _)
    · dsimp only
      split
      · exact ((r _).trans (MemStep.foldl (fun x a => snoopNow_access x ways 0x20 line a) _ _)).trans (putHolders_access _ _ _ _)
      · exact r _

/-! ### Engine accesses -/

theorem readLine_access (s : State) (ways a n : Nat) : MemStep s (readLine s ways a n).2 := by
  have o := engineOpen_access s ways (a / 128) false
  unfold readLine
  dsimp only
  split
  · exact (raiseEvent_access _ _).trans (freeBytes_access _ _)
  · split
    · exact o
    · split
      · exact o.trans (fetchLine_access _ _ _)
      · exact (o.trans (fetchLine_access _ _ _)).trans (MemStep.ite (poisonSeen_access _ _) (MemStep.refl _))

theorem readPieces_access (ways : Nat) (l : List (Nat × Nat)) : ∀ s : State, MemStep s (readPieces s ways l).2 := by
  induction l with
  | nil => exact MemStep.refl
  | cons e t ih =>
    obtain ⟨a, n⟩ := e
    intro s
    unfold readPieces
    dsimp only
    refine MemStep.trans ?_ (ih _)
    split
    · exact windowBytes_access _ _ _
    · exact readLine_access _ _ _ _

/-- An engine's read of a range. -/
theorem readRange_access (s : State) (ways a n : Nat) : MemStep s (readRange s ways a n).2 := readPieces_access _ _ _

theorem fillPieces_access (l : List Piece) : ∀ s : State, MemStep s (fillPieces l s).2 := by
  induction l with
  | nil => exact MemStep.refl
  | cons p t ih =>
    intro s
    unfold fillPieces
    dsimp only
    refine MemStep.trans ?_ (ih _)
    split
    · exact MemStep.refl _
    · exact freeBytes_access _ _

theorem mergeSector_access (s : State) (home : Nat) (c : CelLine) (a : Nat) (b : List Byte) :
    MemStep s (mergeSector s home c a b).2 := by
  have h : MemStep s (if natBit c.poison.toNat (a / 32 % 4) then poisonSeen s home else s) :=
    MemStep.ite (poisonSeen_access _ _) (MemStep.refl _)
  unfold mergeSector
  dsimp only
  split
  · exact (h.trans (setFlag_access _ _ _ _ _)).trans (raiseEvent_access _ _)
  · exact h

theorem mergeSectors_access (home : Nat) (bytes : List Byte) (base : Nat) (l : List (Nat × Nat)) :
    ∀ (s : State) (c : CelLine), MemStep s (mergeSectors s home c bytes base l).2 := by
  induction l with
  | nil => exact fun s _ => MemStep.refl s
  | cons e t ih => exact fun s c => (mergeSector_access s home c e.1 _).trans (ih _ _)

theorem storeLine_access (s : State) (ways a : Nat) (bytes : List Byte) : MemStep s (storeLine s ways a bytes) := by
  have o := engineOpen_access s ways (a / 128) true
  have h := (o.trans (clearReservations_access _ (a / 128) none)).trans (fetchLine_access _ (a / 128) ways)
  unfold storeLine
  dsimp only
  refine MemStep.ite o ?_
  split
  · exact h
  · exact (h.trans (mergeSectors_access _ _ _ _ _ _)).trans (setCellarLine_access _ _ _)

theorem writeLine_access (s : State) (ways a : Nat) (bytes : List Byte) : MemStep s (writeLine s ways a bytes) :=
  MemStep.ite (raiseEvent_access _ _) ((storeLine_access _ _ _ _).trans (doorbellMisuse_access _ _))

theorem writePieces_access (ways : Nat) (l : List (Nat × Nat)) :
    ∀ (s : State) (bytes : List Byte), MemStep s (writePieces s ways bytes l) := by
  induction l with
  | nil => exact fun s _ => MemStep.refl s
  | cons e t ih => exact fun s b => (MemStep.ite (setBytes_access _ _ _) (writeLine_access _ _ _ _)).trans (ih _ _)

/-- An engine's write of a range. -/
theorem writeRange_access (s : State) (ways a : Nat) (bytes : List Byte) : MemStep s (writeRange s ways a bytes) :=
  writePieces_access _ _ _ _

theorem putRange_access (s : State) (ways a : Nat) (bytes : List Byte) : MemStep s (putRange s ways a bytes).2 :=
  writeRange_access _ _ _ _

theorem copyPieces_access (ways src dst : Nat) (l : List Piece) :
    ∀ (e : Option Nat) (s : State), MemStep s (copyPieces ways src dst e l s).2 := by
  induction l with
  | nil => exact fun _ s => MemStep.refl s
  | cons p t ih =>
    intro e s
    unfold copyPieces
    dsimp only
    refine MemStep.trans (MemStep.trans ?_ (putRange_access _ _ _ _)) (ih _ _)
    split
    · exact MemStep.refl _
    · exact freeBytes_access _ _

/-- A write by the module for a partition or for itself. -/
theorem storeFor_access (s : State) (who : Option Nat) (site a : Nat) (bytes : List Byte) :
    MemStep s (storeFor s who site a bytes) := by
  unfold storeFor
  split
  · unfold accessEvent
    split
    · exact raiseEvent_access _ _
    · exact MemStep.refl _
  · exact writeRange_access _ _ _ _

/-- A read on the sector tap. -/
theorem tapRead_access (s : State) (ways sec : Nat) : MemStep s (tapRead s ways sec).2 := by
  have o := (engineOpen_access s ways (32 * sec / 128) false).trans
    (count_access _ .memTapSectors (unitSite (unitOf s (32 * sec))) (unitLocal (unitOf s (32 * sec))) 1 0)
  unfold tapRead
  dsimp only
  split
  · split
    · exact o
    · split
      · split
        · split
          · exact o.trans (poisonSeen_access _ _)
          · exact o
        · exact o.trans (senseSector_access _ _)
      · exact o.trans (senseSector_access _ _)
  · exact readRange_access _ _ _ _

/-- A write on the sector tap. -/
theorem tapWrite_access (s : State) (ways sec : Nat) (bytes : List Byte) : MemStep s (tapWrite s ways sec bytes) := by
  have o := (engineOpen_access s ways (32 * sec / 128) true).trans
    (count_access _ .memTapSectors (unitSite (unitOf s (32 * sec))) (unitLocal (unitOf s (32 * sec))) 1 0)
  have h := ((o.trans (clearReservations_access _ (32 * sec / 128) none)).trans (doorbellMisuse_access _ (32 * sec / 128))).trans
    (storeSector_access _ sec bytes)
  unfold tapWrite
  dsimp only
  refine MemStep.ite (MemStep.ite o ?_) (writeRange_access _ _ _ _)
  split
  · exact h.trans ((MemStep.ite (poisonSeen_access _ _) (MemStep.refl _)).trans (setCellarLine_access _ _ _))
  · exact h

/-- A partition's memory zeroed keeps the canonical form. -/
theorem wipeMemory_form (s : State) (d : PartDesc) : KeepsForm s (wipeMemory s d) := by
  have down : ∀ (l : List Nat) (x : State), KeepsForm x (l.foldl (wipeDown d) x) := by
    intro l
    induction l with
    | nil => exact KeepsForm.refl
    | cons u t ih =>
      intro x
      refine KeepsForm.trans ?_ (ih _)
      unfold wipeDown
      dsimp only
      exact KeepsForm.ite (raiseEvent_access _ _).form (KeepsForm.of_eq rfl)
  have inj : ∀ (l : List Nat) (x : State), KeepsForm x (l.foldl (wipeInjection d) x) := by
    intro l
    induction l with
    | nil => exact KeepsForm.refl
    | cons u t ih =>
      intro x
      refine KeepsForm.trans ?_ (ih _)
      unfold wipeInjection
      dsimp only
      exact KeepsForm.ite (KeepsForm.of_eq rfl) (KeepsForm.of_eq rfl)
  unfold wipeMemory
  dsimp only
  refine KeepsForm.trans ?_ (down _ _)
  refine KeepsForm.trans (t := { s with mem := s.mem.filter (fun e => !wiped s d e.1) }) (fun h => filter_wf _ h) ?_
  exact (inj _ _).before

end Sys2Proof.Machine
end

