-- ==== Sys2Proof/Laws/Command.lean ====
section
/-!
SUPPORT. The life of a command (13_commands.md): what the acceptance of a packet does when its queue is ready, and what a
completion does.
-/
namespace Sys2Proof.Machine

/-! ### Sending -/

theorem putOn_send (s : State) (n : Nat) (p : Packet) : SendFrame s (putOn s n p) := by
  have h : ∀ v, SendFrame s (setPort s n v) := fun _ => rfl
  unfold putOn
  dsimp only
  split
  · exact h _
  · exact (rfl : SendFrame s (sendOn s n p))

theorem emitPacket_send (s : State) (tile : Nat) (p : Packet) : SendFrame s (emitPacket s tile p) := by
  unfold emitPacket
  dsimp only
  split
  · exact (rfl : SendFrame s { s with loopback := s.loopback ++ [p] })
  · split
    · exact (count_log _ _ _ _ _ _).send
    · split
      · exact (count_log _ _ _ _ _ _).send
      · exact putOn_send _ _ _

theorem setOutPath_send (s : State) (k : Nat) (p : OutPath) : SendFrame s (setOutPath s k p) :=
  rfl

theorem sendPacket_send (s : State) (pkg path : Nat) (f : PktFields) (payload : List Byte) (cmd : Option Nat) :
    SendFrame s (sendPacket s pkg path f payload cmd) := by
  unfold sendPacket
  dsimp only
  refine SendFrame.ite (SendFrame.refl _) ?_
  refine SendFrame.ite ((setOutPath_send _ _ _).trans (emitPacket_send _ _ _)) (setOutPath_send _ _ _)

theorem sendChunks_send (pkg path typ msg : Nat) (cmd : Option Nat) (l : List (List Byte)) :
    ∀ (s : State) (addr : Nat), SendFrame s (sendChunks s pkg path typ msg cmd addr l) := by
  induction l with
  | nil => exact fun s _ => SendFrame.refl s
  | cons c t ih =>
    intro s addr
    unfold sendChunks
    exact (sendPacket_send _ _ _ _ _ _).trans (ih _ _)

theorem sendTransfer_send (s : State) (pkg path typ addr msg : Nat) (bytes : List Byte) (cmd : Option Nat) :
    SendFrame s (sendTransfer s pkg path typ addr msg bytes cmd) := sendChunks_send _ _ _ _ _ _ _ _

theorem takeMsg_send (s : State) : SendFrame s (takeMsg s).2 :=
  rfl

theorem putRoce_send (s : State) (m : RoceMsg) : SendFrame s (putRoce s m) := by
  have h : ∀ v, SendFrame s (setPort s (Config.rocePort m.qp % 16) v) := fun _ => rfl
  unfold putRoce
  dsimp only
  refine SendFrame.ite (SendFrame.refl _) (SendFrame.ite (h _) rfl)

theorem sendRoce_send (s : State) (m : RoceMsg) : SendFrame s (sendRoce s m) := by
  have h : ∀ v, SendFrame s (setQpair s m.qp v) := fun _ => rfl
  unfold sendRoce
  dsimp only
  exact SendFrame.ite (h _) ((h _).trans (putRoce_send _ _))

/-! ### Records -/

theorem queue_setQueue_core (s : State) {q : Nat} {v : Queue} (h : v.core = (queue s q).core) (r : Nat) :
    (queue (setQueue s q v) r).core = (queue s r).core := by
  by_cases hr : r = q
  · subst hr; rw [queue_setQueue, h]
  · rw [queue_setQueue_other s v hr]

theorem setQueue_post (s : State) {q : Nat} {v : Queue} (h : v.core = (queue s q).core) : PostFrame s (setQueue s q v) :=
  ⟨rfl, queue_setQueue_core s h⟩

theorem writeRecord_post (s : State) (q : Nat) (r : Record) : PostFrame s (writeRecord s q r) := by
  have h : ∀ n, PostFrame s (setQueue s q { queue s q with posted := n }) := fun n => setQueue_post s rfl
  unfold writeRecord
  dsimp only
  split
  · exact (h _).trans ((storeFor_access _ _ _ _ _).frame).post
  · refine PostFrame.ite (PostFrame.ite ((h _).trans ((storeFor_access _ _ _ _ _).frame).post)
      ((h _).trans (raiseEvent_log _ _).post)) ?_
    exact ((h _).trans (takeMsg_send _).post).trans (sendTransfer_send _ _ _ _ _ _ _ _).post
  · exact (h _).trans (sendRoce_send _ _).post

/-- R406, R407: posting a record changes only what `PostFrame` allows. -/
theorem postRecord_post (s : State) (q : Nat) (r : Record) : PostFrame s (postRecord s q r) := by
  have h : ∀ l, PostFrame s (setQueue s q { queue s q with heldRecords := l }) := fun l => setQueue_post s rfl
  unfold postRecord
  dsimp only
  refine PostFrame.ite (PostFrame.refl _) (PostFrame.ite ?_ (writeRecord_post _ _ _))
  exact (h _).trans (count_log _ _ _ _ _ _).post

/-! ### What a posted record leaves -/

theorem PostFrame.phase {s t : State} (h : PostFrame s t) : t.phase = s.phase := (congrArg State.phase h.1).symm
theorem PostFrame.failedJoin {s t : State} (h : PostFrame s t) : t.failedJoin = s.failedJoin := (congrArg State.failedJoin h.1).symm
theorem PostFrame.cmds {s t : State} (h : PostFrame s t) : t.cmds = s.cmds := (congrArg State.cmds h.1).symm
theorem PostFrame.nextCmd {s t : State} (h : PostFrame s t) : t.nextCmd = s.nextCmd := (congrArg State.nextCmd h.1).symm
theorem PostFrame.results {s t : State} (h : PostFrame s t) : t.results = s.results := (congrArg State.results h.1).symm
theorem PostFrame.parts {s t : State} (h : PostFrame s t) : t.parts = s.parts := (congrArg State.parts h.1).symm
theorem PostFrame.ctxs {s t : State} (h : PostFrame s t) : t.ctxs = s.ctxs := (congrArg State.ctxs h.1).symm
theorem PostFrame.programs {s t : State} (h : PostFrame s t) : t.programs = s.programs := (congrArg State.programs h.1).symm
theorem PostFrame.runs {s t : State} (h : PostFrame s t) : t.runs = s.runs := (congrArg State.runs h.1).symm
theorem PostFrame.beat {s t : State} (h : PostFrame s t) : t.beat = s.beat := (congrArg State.beat h.1).symm

theorem PostFrame.queue {s t : State} (h : PostFrame s t) (q : Nat) : (queue t q).core = (queue s q).core :=
  h.2 q

/-! ### Acceptance -/

theorem admitted_post (s : State) (h : Hdr) (i : Instr) : PostFrame (recordCmd s h i) (admitted s h i) := by
  unfold admitted
  exact PostFrame.ite (postRecord_post _ _ _) (PostFrame.refl _)

@[simp] theorem admitted_cmds (s : State) (h : Hdr) (i : Instr) : (admitted s h i).cmds = s.cmds ++ [newCmd s h i] :=
  (admitted_post s h i).cmds

@[simp] theorem admitted_nextCmd (s : State) (h : Hdr) (i : Instr) : (admitted s h i).nextCmd = s.nextCmd + 1 :=
  (admitted_post s h i).nextCmd

@[simp] theorem admitted_results (s : State) (h : Hdr) (i : Instr) : (admitted s h i).results = s.results :=
  (admitted_post s h i).results

@[simp] theorem admitted_parts (s : State) (h : Hdr) (i : Instr) : (admitted s h i).parts = s.parts :=
  (admitted_post s h i).parts

@[simp] theorem admitted_ctxs (s : State) (h : Hdr) (i : Instr) : (admitted s h i).ctxs = s.ctxs :=
  (admitted_post s h i).ctxs

@[simp] theorem admitted_beat (s : State) (h : Hdr) (i : Instr) : (admitted s h i).beat = s.beat :=
  (admitted_post s h i).beat

theorem admitted_queue (s : State) (h : Hdr) (i : Instr) (q : Nat) :
    (queue (admitted s h i) q).core = (queue s q).core :=
  (admitted_post s h i).queue q

theorem find_last {l : List Cmd} {n : Nat} {c : Cmd} (hl : ∀ d ∈ l, d.id < n) (hc : c.id = n) :
    (l ++ [c]).find? (fun d => d.id == n) = some c := by
  rw [List.find?_append]
  have : l.find? (fun d => d.id == n) = none := by
    rw [List.find?_eq_none]
    intro d hd
    have := hl d hd
    simp
    omega
  simp [this, hc]

/-- The command of a packet that a ready queue takes is in flight once it is accepted. -/
theorem find_admitted {s : State} {h : Hdr} {i : Instr} {sc : Scope} (r : Ready s h i sc) :
    findCmd (admitted s h i) s.nextCmd = some (newCmd s h i) := by
  unfold findCmd
  rw [admitted_cmds]
  exact find_last r.ids rfl

/-- R403: a ready queue accepts the packet. -/
theorem accept_ready {s : State} {h : Hdr} {i : Instr} {sc : Scope} (r : Ready s h i sc) :
    accept s h i sc none = admitted s h i := by
  have h1 : ¬(h.ticket.toNat ≠ 0 ∧ ticketUsed s h.queue.val h.ticket.toNat = true) := by
    rintro ⟨a, b⟩; rw [r.fresh a] at b; cases b
  have h2 : ¬(h.ticket.toNat ≠ 0 ∧ 65536 ≤ s.results.length) := by
    rintro ⟨a, b⟩; have := r.room a; omega
  unfold accept
  dsimp only
  rw [if_neg h1, if_neg (by simp [r.scope]), if_neg h2, r.dest]
  rfl

theorem startable_ready {s : State} {h : Hdr} {i : Instr} {sc : Scope} (r : Ready s h i sc) :
    startable (admitted s h i) (newCmd s h i) = true := by
  have hb : heldBack (admitted s h i) (newCmd s h i) = false := by
    rw [← r.alone]
    have hw : ∀ q, queueWho (admitted s h i) q = queueWho s q := by
      intro q
      have := congrArg Queue.partition (admitted_queue s h i q)
      simp only [Queue.core] at this
      simp [queueWho, this]
    simp only [heldBack, admitted_cmds, hw]
    rfl
  unfold startable
  rw [hb, admitted_cmds, List.filter_append]
  simp only [Bool.not_false, Bool.and_true, List.all_append, Bool.and_eq_true, List.all_eq_true]
  refine ⟨rfl, ?_, ?_⟩
  · intro d hd
    rw [List.mem_filter] at hd
    obtain ⟨hd, hq⟩ := hd
    simp only [Bool.and_eq_true, beq_iff_eq] at hq
    obtain ⟨a, b⟩ := r.order d hd (by simpa [newCmd] using hq.1)
    have b' : ((newCmd s h i).ordered || isFence (newCmd s h i).instr) = false := b
    rw [b']
    simpa using a
  · intro d hd
    rw [List.mem_filter] at hd
    simp only [List.mem_singleton] at hd
    obtain ⟨rfl, hq⟩ := hd
    simp at hq

/-- R404: a packet that a ready queue takes starts at once, in the state its acceptance leaves. -/
theorem command_ready {s : State} {h : Hdr} {i : Instr} {sc : Scope} (r : Ready s h i sc) (start : State → Cmd → State) :
    command s h i sc none start = start (admitted s h i) (newCmd s h i) := by
  unfold command takes startNew startWith
  rw [accept_ready r]
  simp [r.running, r.valid, find_admitted r, startable_ready r, (admitted_post s h i).failedJoin, recordCmd, r.joins]

/-! ### Completion -/

/-- R406, R417: what a completion does to the commands in flight and to the kept results. -/
theorem complete_cmds (s : State) (id : Nat) (d : Done) {c : Cmd} (hc : findCmd s id = some c) :
    (complete s id d).cmds = s.cmds.filter (fun x => x.id != id) := by
  unfold complete
  rw [hc]
  dsimp only
  split
  · rw [(postRecord_post _ _ _).cmds]
    split <;> rfl
  · split <;> rfl

/-- What remains of a posting's frame once its command is no longer in flight and its result is kept. -/
theorem PostFrame.finish {base u : State} {c : Cmd} {n : Nat}
    (h : PostFrame { base with cmds := base.cmds ++ [c], nextCmd := n } u) (rs : List Kept) :
    PostFrame { base with nextCmd := n, results := rs } { u with cmds := base.cmds, results := rs } := by
  have e := congrArg (fun x : State => ({ x with cmds := base.cmds, results := rs } : State)) h.1
  exact ⟨e, h.2⟩

/-- R406, R417: what completes leaves: the command in flight no longer, its result kept when its ticket is not 0 and there is room,
and its record posted. -/
theorem complete_eq {u : State} {id : Nat} (d : Done) {c : Cmd} (hf : findCmd u id = some c) :
    complete u id d =
      (let keep := decide (c.ticket ≠ 0 ∧ u.results.length < 65536)
       let e := d.named c.wait
       let r := doneRecord c.queue c.ticket keep { e with seed := e.seed || defaultSeedOf c.instr c.seed }
       let v : State := { u with
         cmds := u.cmds.filter (fun x => x.id != id)
         results := if keep then u.results ++ [⟨c.queue, c.ticket, r, u.beat.waits⟩] else u.results }
       if c.posts then postRecord v c.queue r else v) := by
  unfold complete
  rw [hf]
  dsimp only
  by_cases hk : c.ticket ≠ 0 ∧ u.results.length < 65536
  · simp only [hk, decide_true, if_true, ne_eq, not_false_eq_true, and_self]
  · simp only [hk, decide_false, Bool.false_eq_true, if_false]

/-- R406, R417: a packet whose command completes out of a state that differs from `base` by its own command in flight and by
what posting may change completes with the effect of `base`. -/
theorem completes_of {s base u : State} {h : Hdr} {i : Instr} {d : Done} {c : Cmd}
    (he : exec i s = .next (complete u s.nextCmd d))
    (hu : PostFrame { base with cmds := base.cmds ++ [c], nextCmd := s.nextCmd + 1 } u)
    (hid : ∀ e ∈ base.cmds, e.id < s.nextCmd) (hroom : h.ticket.toNat ≠ 0 → base.results.length < 65536)
    (hc : c.id = s.nextCmd ∧ c.queue = h.queue.val ∧ c.ticket = h.ticket.toNat)
    (hi : c.instr = i ∧ c.seed = seedFor s i ∧ d.named c.wait = d) : Completes s h i base d := by
  refine ⟨_, he, ?_⟩
  have hcm : u.cmds = base.cmds ++ [c] := hu.cmds
  have hf : findCmd u s.nextCmd = some c := by
    unfold findCmd
    rw [hcm]
    exact find_last hid hc.1
  have hl : u.cmds.filter (fun x => x.id != s.nextCmd) = base.cmds := by
    rw [hcm, List.filter_append]
    have h1 : base.cmds.filter (fun x => x.id != s.nextCmd) = base.cmds := by
      rw [List.filter_eq_self]
      intro e he
      have := hid e he
      simp
      omega
    simp [h1, hc.1]
  have hre : u.results = base.results := hu.results
  have hbe : u.beat = base.beat := hu.beat
  have hk : decide (c.ticket ≠ 0 ∧ u.results.length < 65536) = decide (h.ticket.toNat ≠ 0) := by
    rw [hc.2.2, hre]
    by_cases hz : h.ticket.toNat = 0
    · simp [hz]
    · simp [hz, hroom hz]
  have hr : (if decide (h.ticket.toNat ≠ 0) = true then
      u.results ++ [(⟨c.queue, c.ticket, doneRecord c.queue c.ticket (decide (h.ticket.toNat ≠ 0)) (d.replied s i),
        u.beat.waits⟩ : Kept)]
      else u.results) = resultsAfter base h (d.replied s i) := by
    rw [hre, hbe]
    by_cases hz : h.ticket.toNat = 0
    · simp [resultsAfter, hz]
    · simp [resultsAfter, hz, hc.2.1, hc.2.2]
  rw [complete_eq d hf, hl]
  dsimp only
  have hd : ({ d with seed := d.seed || defaultSeedOf i (seedFor s i) } : Done) = d.replied s i := rfl
  rw [hi.2.2, hi.1, hi.2.1, hd, hk, hr]
  have hx := hu.finish (resultsAfter base h (d.replied s i))
  refine PostFrame.ite (PostFrame.trans ?_ (postRecord_post _ _ _)) ?_
  · exact hx
  · exact hx

end Sys2Proof.Machine
end

