-- ==== Sys2Proof/Laws/Order.lean ====
section
/-!
SUPPORT. The order of the engines' accesses (R184): an access that meets no other without an order leaves memory as it was, and any
access leaves every byte outside its own areas.
-/
namespace Sys2Proof.Machine

@[simp] theorem newUse_mem (s : State) (e : Nat) (l : List Nat) : (newUse s e l).2.mem = s.mem := rfl
@[simp] theorem newUse_undef (s : State) (e : Nat) (l : List Nat) : (newUse s e l).2.undef = s.undef := rfl
@[simp] theorem newUse_clusters (s : State) (e : Nat) (l : List Nat) : (newUse s e l).2.clusters = s.clusters := rfl
@[simp] theorem newUse_touches (s : State) (e : Nat) (l : List Nat) : (newUse s e l).2.order.touches = s.order.touches := rfl
@[simp] theorem learn_mem (s : State) (k : Nat) (l : List Nat) : (learn s k l).mem = s.mem := rfl
@[simp] theorem learn_undef (s : State) (k : Nat) (l : List Nat) : (learn s k l).undef = s.undef := rfl
@[simp] theorem learn_clusters (s : State) (k : Nat) (l : List Nat) : (learn s k l).clusters = s.clusters := rfl
@[simp] theorem learn_touches (s : State) (k : Nat) (l : List Nat) : (learn s k l).order.touches = s.order.touches := rfl

/-- What is learnt is known. -/
theorem knownTo_learn (s : State) (k : Nat) (l : List Nat) : knownTo (learn s k l) k = joinKnown (knownTo s k) l :=
  mapGet_set_same _ _ _ _

/-- What another engine, stream or token knows stays. -/
theorem knownTo_learn_other (s : State) {k j : Nat} (l : List Nat) (h : j ≠ k) : knownTo (learn s k l) j = knownTo s j :=
  mapGet_set_other _ _ _ h

/-- Two sets of accesses together have the members of both. -/
theorem mem_joinKnown (a b : List Nat) (n : Nat) : n ∈ joinKnown a b ↔ n ∈ a ∨ n ∈ b := by
  unfold joinKnown
  rw [List.mem_append, List.mem_filter]
  by_cases h : n ∈ a <;> simp [h]

/-! ### Undefined ranges -/

/-- A range made undefined leaves every byte outside it. -/
theorem memByte_undefineRange_other (s : State) {lo n x : Nat} (h : x < lo ∨ lo + n ≤ x) :
    memByte (undefineRange s lo n) x = memByte s x := by
  have e : unlisted (cutUndef lo n s.undef ++ [⟨lo, n, s.free⟩]) x = unlisted s.undef x := by
    rw [← unlisted_cut_other h s.undef]
    induction cutUndef lo n s.undef with
    | nil => simp only [List.nil_append, unlisted]; rw [if_neg (by omega)]
    | cons r t ih => simp only [List.cons_append, unlisted, ih]
  have m : ∀ l : SMap Byte, mapGet (unlisted s.undef) (outside lo n l) x = mapGet (unlisted s.undef) l x := by
    intro l
    induction l with
    | nil => rfl
    | cons p t ih =>
      obtain ⟨k, v⟩ := p
      by_cases hk : k = x
      · subst hk; simp [outside, h, mapGet]
      · by_cases hp : k < lo ∨ lo + n ≤ k
        · simpa [outside, hp, mapGet, hk] using ih
        · simpa [outside, hp, mapGet, hk] using ih
  exact (mapGet_congr e _).trans (m _)

/-- Ranges made undefined keep the canonical form, and every byte outside them. -/
theorem undefineRanges_spec (l : List (Nat × Nat)) :
    ∀ s : State, KeepsForm s (l.foldl (fun s p => undefineRange s p.1 p.2) s) ∧
      ∀ x, (∀ p ∈ l, x < p.1 ∨ p.1 + p.2 ≤ x) → memByte (l.foldl (fun s p => undefineRange s p.1 p.2) s) x = memByte s x := by
  induction l with
  | nil => exact fun s => ⟨KeepsForm.refl s, fun _ _ => rfl⟩
  | cons p t ih =>
    intro s
    refine ⟨(undefineRange_form s p.1 p.2).trans (ih _).1, fun x h => ?_⟩
    refine ((ih _).2 x (fun q hq => h q (List.mem_cons_of_mem _ hq))).trans ?_
    exact memByte_undefineRange_other s (h p (List.mem_cons_self ..))

/-! ### Accesses -/

/-- A part that an area has in common with another lies in it. -/
theorem clashes_within {s : State} {a : StoreUse} {w : Bool} {area p : Nat × Nat} (h : p ∈ clashes s a w area) :
    area.1 ≤ p.1 ∧ p.1 + p.2 ≤ area.1 + area.2 := by
  unfold clashes at h
  obtain ⟨h1, h2⟩ := List.mem_filter.mp h
  obtain ⟨t, -, rfl⟩ := List.mem_map.mp h1
  simp only [bne_iff_ne, ne_eq, commonPart] at h2
  simp only [commonPart]
  omega

/-- An access keeps the canonical form of memory. -/
theorem touchStore_form (s : State) (a : StoreUse) (w : Bool) (areas : List (Nat × Nat)) :
    KeepsForm s (touchStore s a w areas) := (undefineRanges_spec _ s).1.after

/-- An access leaves every byte outside its areas. -/
theorem memByte_touchStore_other (s : State) (a : StoreUse) (w : Bool) {areas : List (Nat × Nat)} {x : Nat}
    (h : ∀ p ∈ areas, x < p.1 ∨ p.1 + p.2 ≤ x) : memByte (touchStore s a w areas) x = memByte s x := by
  refine (undefineRanges_spec _ s).2 x (fun p hp => ?_)
  obtain ⟨area, ha, hp⟩ := List.mem_flatMap.mp hp
  have := clashes_within hp
  have := h area ha
  omega

/-- R184: an access that shares no area without an order leaves the state as it was, but for the model's own record of it. -/
theorem touchStore_ordered {s : State} {a : StoreUse} {w : Bool} {areas : List (Nat × Nat)}
    (h : areas.flatMap (clashes s a w) = []) :
    touchStore s a w areas = { s with order := (touchStore s a w areas).order } := by
  unfold touchStore
  rw [h]
  rfl

end Sys2Proof.Machine
end

