-- ==== Sys2Proof/Laws/Updates.lean ====
section
/-!
SUPPORT. The named updates of the state: the value each puts in place is read back, others of its kind stay, and no other field
changes.
-/
namespace Sys2Proof.Machine

@[simp] theorem cluster_setCluster (s : State) (n : Nat) (v : Cluster) : cluster (setCluster s n v) n = v := mapGet_set_same _ _ _ _
theorem cluster_setCluster_other (s : State) {n m : Nat} (v : Cluster) (h : m ≠ n) : cluster (setCluster s n v) m = cluster s m :=
  mapGet_set_other _ _ _ h
@[simp] theorem ctxOf_setCtx (s : State) (n : Nat) (v : Context) : ctxOf (setCtx s n v) n = v := mapGet_set_same _ _ _ _
theorem ctxOf_setCtx_other (s : State) {n m : Nat} (v : Context) (h : m ≠ n) : ctxOf (setCtx s n v) m = ctxOf s m :=
  mapGet_set_other _ _ _ h
@[simp] theorem part_setPart (s : State) (n : Nat) (v : Partition) : part (setPart s n v) n = v := mapGet_set_same _ _ _ _
theorem part_setPart_other (s : State) {n m : Nat} (v : Partition) (h : m ≠ n) : part (setPart s n v) m = part s m :=
  mapGet_set_other _ _ _ h
@[simp] theorem partPower_setPartPower (s : State) (n : Nat) (v : PartPower) : partPower (setPartPower s n v) n = v := mapGet_set_same _ _ _ _
theorem partPower_setPartPower_other (s : State) {n m : Nat} (v : PartPower) (h : m ≠ n) : partPower (setPartPower s n v) m = partPower s m :=
  mapGet_set_other _ _ _ h
@[simp] theorem exchEngine_setExch (s : State) (n : Nat) (v : ExchEngine) : exchEngine (setExch s n v) n = v := mapGet_set_same _ _ _ _
theorem exchEngine_setExch_other (s : State) {n m : Nat} (v : ExchEngine) (h : m ≠ n) : exchEngine (setExch s n v) m = exchEngine s m :=
  mapGet_set_other _ _ _ h
@[simp] theorem cellarLine_setCellarLine (s : State) (n : Nat) (v : Option CelLine) : cellarLine (setCellarLine s n v) n = v := mapGet_set_same _ _ _ _
theorem cellarLine_setCellarLine_other (s : State) {n m : Nat} (v : Option CelLine) (h : m ≠ n) : cellarLine (setCellarLine s n v) m = cellarLine s m :=
  mapGet_set_other _ _ _ h
@[simp] theorem dirEntry_setDirEntry (s : State) (n : Nat) (v : Option DirEntry) : dirEntry (setDirEntry s n v) n = v := mapGet_set_same _ _ _ _
theorem dirEntry_setDirEntry_other (s : State) {n m : Nat} (v : Option DirEntry) (h : m ≠ n) : dirEntry (setDirEntry s n v) m = dirEntry s m :=
  mapGet_set_other _ _ _ h
@[simp] theorem millOf_setMill (s : State) (n : Nat) (v : Mill) : millOf (setMill s n v) n = v := mapGet_set_same _ _ _ _
theorem millOf_setMill_other (s : State) {n m : Nat} (v : Mill) (h : m ≠ n) : millOf (setMill s n v) m = millOf s m :=
  mapGet_set_other _ _ _ h
@[simp] theorem findStream_setStreamEntry (s : State) (n : Nat) (v : Option MilStream) : findStream (setStreamEntry s n v) n = v := mapGet_set_same _ _ _ _
theorem findStream_setStreamEntry_other (s : State) {n m : Nat} (v : Option MilStream) (h : m ≠ n) : findStream (setStreamEntry s n v) m = findStream s m :=
  mapGet_set_other _ _ _ h
/-- A register put in place is read back. -/
@[simp] theorem getReg_setReg (s : State) (k : RegKind) (a i : Nat) (w : Word) (j : Nat) : getReg (setReg s k a i w j) k a i j = w := by
  unfold getReg setReg
  rw [mapGet_set_same, BitVec.xor_assoc, BitVec.xor_self, BitVec.xor_zero]

/-- A register put in place leaves those at other places. -/
theorem getReg_setReg_other (s : State) {k l : RegKind} {a i b n : Nat} (w : Word) {j m : Nat}
    (h : regAddr l b n m ≠ regAddr k a i j) : getReg (setReg s k a i w j) l b n m = getReg s l b n m := by
  unfold getReg setReg
  rw [mapGet_set_other _ _ _ h]

@[simp] theorem setReg_pending_eq (s : State) (k : RegKind) (a i : Nat) (w : Word) (j : Nat) : (setReg s k a i w j).pending = s.pending := rfl
@[simp] theorem setReg_free_eq (s : State) (k : RegKind) (a i : Nat) (w : Word) (j : Nat) : (setReg s k a i w j).free = s.free := rfl
@[simp] theorem setReg_phase_eq (s : State) (k : RegKind) (a i : Nat) (w : Word) (j : Nat) : (setReg s k a i w j).phase = s.phase := rfl
@[simp] theorem setReg_mem_eq (s : State) (k : RegKind) (a i : Nat) (w : Word) (j : Nat) : (setReg s k a i w j).mem = s.mem := rfl
@[simp] theorem setReg_undef_eq (s : State) (k : RegKind) (a i : Nat) (w : Word) (j : Nat) : (setReg s k a i w j).undef = s.undef := rfl
@[simp] theorem setReg_poison_eq (s : State) (k : RegKind) (a i : Nat) (w : Word) (j : Nat) : (setReg s k a i w j).poison = s.poison := rfl
@[simp] theorem setReg_cellar_eq (s : State) (k : RegKind) (a i : Nat) (w : Word) (j : Nat) : (setReg s k a i w j).cellar = s.cellar := rfl
@[simp] theorem setReg_dir_eq (s : State) (k : RegKind) (a i : Nat) (w : Word) (j : Nat) : (setReg s k a i w j).dir = s.dir := rfl
@[simp] theorem setReg_queues_eq (s : State) (k : RegKind) (a i : Nat) (w : Word) (j : Nat) : (setReg s k a i w j).queues = s.queues := rfl
@[simp] theorem setReg_cmds_eq (s : State) (k : RegKind) (a i : Nat) (w : Word) (j : Nat) : (setReg s k a i w j).cmds = s.cmds := rfl
@[simp] theorem setReg_nextCmd_eq (s : State) (k : RegKind) (a i : Nat) (w : Word) (j : Nat) : (setReg s k a i w j).nextCmd = s.nextCmd := rfl
@[simp] theorem setReg_results_eq (s : State) (k : RegKind) (a i : Nat) (w : Word) (j : Nat) : (setReg s k a i w j).results = s.results := rfl
@[simp] theorem setReg_parts_eq (s : State) (k : RegKind) (a i : Nat) (w : Word) (j : Nat) : (setReg s k a i w j).parts = s.parts := rfl
@[simp] theorem setReg_ctxs_eq (s : State) (k : RegKind) (a i : Nat) (w : Word) (j : Nat) : (setReg s k a i w j).ctxs = s.ctxs := rfl
@[simp] theorem setReg_programs_eq (s : State) (k : RegKind) (a i : Nat) (w : Word) (j : Nat) : (setReg s k a i w j).programs = s.programs := rfl
@[simp] theorem setReg_runs_eq (s : State) (k : RegKind) (a i : Nat) (w : Word) (j : Nat) : (setReg s k a i w j).runs = s.runs := rfl
@[simp] theorem setReg_clusters_eq (s : State) (k : RegKind) (a i : Nat) (w : Word) (j : Nat) : (setReg s k a i w j).clusters = s.clusters := rfl
@[simp] theorem setReg_exch_eq (s : State) (k : RegKind) (a i : Nat) (w : Word) (j : Nat) : (setReg s k a i w j).exch = s.exch := rfl
@[simp] theorem setReg_streams_eq (s : State) (k : RegKind) (a i : Nat) (w : Word) (j : Nat) : (setReg s k a i w j).streams = s.streams := rfl
@[simp] theorem setReg_power_eq (s : State) (k : RegKind) (a i : Nat) (w : Word) (j : Nat) : (setReg s k a i w j).power = s.power := rfl
@[simp] theorem setReg_beat_eq (s : State) (k : RegKind) (a i : Nat) (w : Word) (j : Nat) : (setReg s k a i w j).beat = s.beat := rfl
@[simp] theorem setReg_sec_eq (s : State) (k : RegKind) (a i : Nat) (w : Word) (j : Nat) : (setReg s k a i w j).sec = s.sec := rfl
@[simp] theorem setReg_mgmt_eq (s : State) (k : RegKind) (a i : Nat) (w : Word) (j : Nat) : (setReg s k a i w j).mgmt = s.mgmt := rfl

@[simp] theorem setFlag_pending_eq (s : State) (k : RegKind) (a i b : Nat) : (setFlag s k a i b).pending = s.pending := rfl
@[simp] theorem setFlag_free_eq (s : State) (k : RegKind) (a i b : Nat) : (setFlag s k a i b).free = s.free := rfl
@[simp] theorem setFlag_phase_eq (s : State) (k : RegKind) (a i b : Nat) : (setFlag s k a i b).phase = s.phase := rfl
@[simp] theorem setFlag_mem_eq (s : State) (k : RegKind) (a i b : Nat) : (setFlag s k a i b).mem = s.mem := rfl
@[simp] theorem setFlag_undef_eq (s : State) (k : RegKind) (a i b : Nat) : (setFlag s k a i b).undef = s.undef := rfl
@[simp] theorem setFlag_poison_eq (s : State) (k : RegKind) (a i b : Nat) : (setFlag s k a i b).poison = s.poison := rfl
@[simp] theorem setFlag_cellar_eq (s : State) (k : RegKind) (a i b : Nat) : (setFlag s k a i b).cellar = s.cellar := rfl
@[simp] theorem setFlag_dir_eq (s : State) (k : RegKind) (a i b : Nat) : (setFlag s k a i b).dir = s.dir := rfl
@[simp] theorem setFlag_queues_eq (s : State) (k : RegKind) (a i b : Nat) : (setFlag s k a i b).queues = s.queues := rfl
@[simp] theorem setFlag_cmds_eq (s : State) (k : RegKind) (a i b : Nat) : (setFlag s k a i b).cmds = s.cmds := rfl
@[simp] theorem setFlag_nextCmd_eq (s : State) (k : RegKind) (a i b : Nat) : (setFlag s k a i b).nextCmd = s.nextCmd := rfl
@[simp] theorem setFlag_results_eq (s : State) (k : RegKind) (a i b : Nat) : (setFlag s k a i b).results = s.results := rfl
@[simp] theorem setFlag_parts_eq (s : State) (k : RegKind) (a i b : Nat) : (setFlag s k a i b).parts = s.parts := rfl
@[simp] theorem setFlag_ctxs_eq (s : State) (k : RegKind) (a i b : Nat) : (setFlag s k a i b).ctxs = s.ctxs := rfl
@[simp] theorem setFlag_programs_eq (s : State) (k : RegKind) (a i b : Nat) : (setFlag s k a i b).programs = s.programs := rfl
@[simp] theorem setFlag_runs_eq (s : State) (k : RegKind) (a i b : Nat) : (setFlag s k a i b).runs = s.runs := rfl
@[simp] theorem setFlag_clusters_eq (s : State) (k : RegKind) (a i b : Nat) : (setFlag s k a i b).clusters = s.clusters := rfl
@[simp] theorem setFlag_exch_eq (s : State) (k : RegKind) (a i b : Nat) : (setFlag s k a i b).exch = s.exch := rfl
@[simp] theorem setFlag_streams_eq (s : State) (k : RegKind) (a i b : Nat) : (setFlag s k a i b).streams = s.streams := rfl
@[simp] theorem setFlag_power_eq (s : State) (k : RegKind) (a i b : Nat) : (setFlag s k a i b).power = s.power := rfl
@[simp] theorem setFlag_beat_eq (s : State) (k : RegKind) (a i b : Nat) : (setFlag s k a i b).beat = s.beat := rfl
@[simp] theorem setFlag_sec_eq (s : State) (k : RegKind) (a i b : Nat) : (setFlag s k a i b).sec = s.sec := rfl
@[simp] theorem setFlag_mgmt_eq (s : State) (k : RegKind) (a i b : Nat) : (setFlag s k a i b).mgmt = s.mgmt := rfl

@[simp] theorem setField_pending_eq (s : State) (k : RegKind) (a i lo n v : Nat) : (setField s k a i lo n v).pending = s.pending := rfl
@[simp] theorem setField_free_eq (s : State) (k : RegKind) (a i lo n v : Nat) : (setField s k a i lo n v).free = s.free := rfl
@[simp] theorem setField_phase_eq (s : State) (k : RegKind) (a i lo n v : Nat) : (setField s k a i lo n v).phase = s.phase := rfl
@[simp] theorem setField_mem_eq (s : State) (k : RegKind) (a i lo n v : Nat) : (setField s k a i lo n v).mem = s.mem := rfl
@[simp] theorem setField_undef_eq (s : State) (k : RegKind) (a i lo n v : Nat) : (setField s k a i lo n v).undef = s.undef := rfl
@[simp] theorem setField_poison_eq (s : State) (k : RegKind) (a i lo n v : Nat) : (setField s k a i lo n v).poison = s.poison := rfl
@[simp] theorem setField_cellar_eq (s : State) (k : RegKind) (a i lo n v : Nat) : (setField s k a i lo n v).cellar = s.cellar := rfl
@[simp] theorem setField_dir_eq (s : State) (k : RegKind) (a i lo n v : Nat) : (setField s k a i lo n v).dir = s.dir := rfl
@[simp] theorem setField_queues_eq (s : State) (k : RegKind) (a i lo n v : Nat) : (setField s k a i lo n v).queues = s.queues := rfl
@[simp] theorem setField_cmds_eq (s : State) (k : RegKind) (a i lo n v : Nat) : (setField s k a i lo n v).cmds = s.cmds := rfl
@[simp] theorem setField_nextCmd_eq (s : State) (k : RegKind) (a i lo n v : Nat) : (setField s k a i lo n v).nextCmd = s.nextCmd := rfl
@[simp] theorem setField_results_eq (s : State) (k : RegKind) (a i lo n v : Nat) : (setField s k a i lo n v).results = s.results := rfl
@[simp] theorem setField_parts_eq (s : State) (k : RegKind) (a i lo n v : Nat) : (setField s k a i lo n v).parts = s.parts := rfl
@[simp] theorem setField_ctxs_eq (s : State) (k : RegKind) (a i lo n v : Nat) : (setField s k a i lo n v).ctxs = s.ctxs := rfl
@[simp] theorem setField_programs_eq (s : State) (k : RegKind) (a i lo n v : Nat) : (setField s k a i lo n v).programs = s.programs := rfl
@[simp] theorem setField_runs_eq (s : State) (k : RegKind) (a i lo n v : Nat) : (setField s k a i lo n v).runs = s.runs := rfl
@[simp] theorem setField_clusters_eq (s : State) (k : RegKind) (a i lo n v : Nat) : (setField s k a i lo n v).clusters = s.clusters := rfl
@[simp] theorem setField_exch_eq (s : State) (k : RegKind) (a i lo n v : Nat) : (setField s k a i lo n v).exch = s.exch := rfl
@[simp] theorem setField_streams_eq (s : State) (k : RegKind) (a i lo n v : Nat) : (setField s k a i lo n v).streams = s.streams := rfl
@[simp] theorem setField_power_eq (s : State) (k : RegKind) (a i lo n v : Nat) : (setField s k a i lo n v).power = s.power := rfl
@[simp] theorem setField_beat_eq (s : State) (k : RegKind) (a i lo n v : Nat) : (setField s k a i lo n v).beat = s.beat := rfl
@[simp] theorem setField_sec_eq (s : State) (k : RegKind) (a i lo n v : Nat) : (setField s k a i lo n v).sec = s.sec := rfl
@[simp] theorem setField_mgmt_eq (s : State) (k : RegKind) (a i lo n v : Nat) : (setField s k a i lo n v).mgmt = s.mgmt := rfl

@[simp] theorem count_pending_eq (s : State) (k : RegKind) (a i n j : Nat) : (count s k a i n j).pending = s.pending := rfl
@[simp] theorem count_free_eq (s : State) (k : RegKind) (a i n j : Nat) : (count s k a i n j).free = s.free := rfl
@[simp] theorem count_phase_eq (s : State) (k : RegKind) (a i n j : Nat) : (count s k a i n j).phase = s.phase := rfl
@[simp] theorem count_mem_eq (s : State) (k : RegKind) (a i n j : Nat) : (count s k a i n j).mem = s.mem := rfl
@[simp] theorem count_undef_eq (s : State) (k : RegKind) (a i n j : Nat) : (count s k a i n j).undef = s.undef := rfl
@[simp] theorem count_poison_eq (s : State) (k : RegKind) (a i n j : Nat) : (count s k a i n j).poison = s.poison := rfl
@[simp] theorem count_cellar_eq (s : State) (k : RegKind) (a i n j : Nat) : (count s k a i n j).cellar = s.cellar := rfl
@[simp] theorem count_dir_eq (s : State) (k : RegKind) (a i n j : Nat) : (count s k a i n j).dir = s.dir := rfl
@[simp] theorem count_queues_eq (s : State) (k : RegKind) (a i n j : Nat) : (count s k a i n j).queues = s.queues := rfl
@[simp] theorem count_cmds_eq (s : State) (k : RegKind) (a i n j : Nat) : (count s k a i n j).cmds = s.cmds := rfl
@[simp] theorem count_nextCmd_eq (s : State) (k : RegKind) (a i n j : Nat) : (count s k a i n j).nextCmd = s.nextCmd := rfl
@[simp] theorem count_results_eq (s : State) (k : RegKind) (a i n j : Nat) : (count s k a i n j).results = s.results := rfl
@[simp] theorem count_parts_eq (s : State) (k : RegKind) (a i n j : Nat) : (count s k a i n j).parts = s.parts := rfl
@[simp] theorem count_ctxs_eq (s : State) (k : RegKind) (a i n j : Nat) : (count s k a i n j).ctxs = s.ctxs := rfl
@[simp] theorem count_programs_eq (s : State) (k : RegKind) (a i n j : Nat) : (count s k a i n j).programs = s.programs := rfl
@[simp] theorem count_runs_eq (s : State) (k : RegKind) (a i n j : Nat) : (count s k a i n j).runs = s.runs := rfl
@[simp] theorem count_clusters_eq (s : State) (k : RegKind) (a i n j : Nat) : (count s k a i n j).clusters = s.clusters := rfl
@[simp] theorem count_exch_eq (s : State) (k : RegKind) (a i n j : Nat) : (count s k a i n j).exch = s.exch := rfl
@[simp] theorem count_streams_eq (s : State) (k : RegKind) (a i n j : Nat) : (count s k a i n j).streams = s.streams := rfl
@[simp] theorem count_power_eq (s : State) (k : RegKind) (a i n j : Nat) : (count s k a i n j).power = s.power := rfl
@[simp] theorem count_beat_eq (s : State) (k : RegKind) (a i n j : Nat) : (count s k a i n j).beat = s.beat := rfl
@[simp] theorem count_sec_eq (s : State) (k : RegKind) (a i n j : Nat) : (count s k a i n j).sec = s.sec := rfl
@[simp] theorem count_mgmt_eq (s : State) (k : RegKind) (a i n j : Nat) : (count s k a i n j).mgmt = s.mgmt := rfl

@[simp] theorem setCluster_pending_eq (s : State) (c : Nat) (v : Cluster) : (setCluster s c v).pending = s.pending := rfl
@[simp] theorem setCluster_free_eq (s : State) (c : Nat) (v : Cluster) : (setCluster s c v).free = s.free := rfl
@[simp] theorem setCluster_phase_eq (s : State) (c : Nat) (v : Cluster) : (setCluster s c v).phase = s.phase := rfl
@[simp] theorem setCluster_regs_eq (s : State) (c : Nat) (v : Cluster) : (setCluster s c v).regs = s.regs := rfl
@[simp] theorem setCluster_mem_eq (s : State) (c : Nat) (v : Cluster) : (setCluster s c v).mem = s.mem := rfl
@[simp] theorem setCluster_undef_eq (s : State) (c : Nat) (v : Cluster) : (setCluster s c v).undef = s.undef := rfl
@[simp] theorem setCluster_poison_eq (s : State) (c : Nat) (v : Cluster) : (setCluster s c v).poison = s.poison := rfl
@[simp] theorem setCluster_cellar_eq (s : State) (c : Nat) (v : Cluster) : (setCluster s c v).cellar = s.cellar := rfl
@[simp] theorem setCluster_dir_eq (s : State) (c : Nat) (v : Cluster) : (setCluster s c v).dir = s.dir := rfl
@[simp] theorem setCluster_queues_eq (s : State) (c : Nat) (v : Cluster) : (setCluster s c v).queues = s.queues := rfl
@[simp] theorem setCluster_cmds_eq (s : State) (c : Nat) (v : Cluster) : (setCluster s c v).cmds = s.cmds := rfl
@[simp] theorem setCluster_nextCmd_eq (s : State) (c : Nat) (v : Cluster) : (setCluster s c v).nextCmd = s.nextCmd := rfl
@[simp] theorem setCluster_results_eq (s : State) (c : Nat) (v : Cluster) : (setCluster s c v).results = s.results := rfl
@[simp] theorem setCluster_parts_eq (s : State) (c : Nat) (v : Cluster) : (setCluster s c v).parts = s.parts := rfl
@[simp] theorem setCluster_ctxs_eq (s : State) (c : Nat) (v : Cluster) : (setCluster s c v).ctxs = s.ctxs := rfl
@[simp] theorem setCluster_programs_eq (s : State) (c : Nat) (v : Cluster) : (setCluster s c v).programs = s.programs := rfl
@[simp] theorem setCluster_runs_eq (s : State) (c : Nat) (v : Cluster) : (setCluster s c v).runs = s.runs := rfl
@[simp] theorem setCluster_exch_eq (s : State) (c : Nat) (v : Cluster) : (setCluster s c v).exch = s.exch := rfl
@[simp] theorem setCluster_streams_eq (s : State) (c : Nat) (v : Cluster) : (setCluster s c v).streams = s.streams := rfl
@[simp] theorem setCluster_power_eq (s : State) (c : Nat) (v : Cluster) : (setCluster s c v).power = s.power := rfl
@[simp] theorem setCluster_beat_eq (s : State) (c : Nat) (v : Cluster) : (setCluster s c v).beat = s.beat := rfl
@[simp] theorem setCluster_sec_eq (s : State) (c : Nat) (v : Cluster) : (setCluster s c v).sec = s.sec := rfl
@[simp] theorem setCluster_mgmt_eq (s : State) (c : Nat) (v : Cluster) : (setCluster s c v).mgmt = s.mgmt := rfl

@[simp] theorem setQueue_pending_eq (s : State) (q : Nat) (v : Queue) : (setQueue s q v).pending = s.pending := rfl
@[simp] theorem setQueue_free_eq (s : State) (q : Nat) (v : Queue) : (setQueue s q v).free = s.free := rfl
@[simp] theorem setQueue_phase_eq (s : State) (q : Nat) (v : Queue) : (setQueue s q v).phase = s.phase := rfl
@[simp] theorem setQueue_regs_eq (s : State) (q : Nat) (v : Queue) : (setQueue s q v).regs = s.regs := rfl
@[simp] theorem setQueue_mem_eq (s : State) (q : Nat) (v : Queue) : (setQueue s q v).mem = s.mem := rfl
@[simp] theorem setQueue_undef_eq (s : State) (q : Nat) (v : Queue) : (setQueue s q v).undef = s.undef := rfl
@[simp] theorem setQueue_poison_eq (s : State) (q : Nat) (v : Queue) : (setQueue s q v).poison = s.poison := rfl
@[simp] theorem setQueue_cellar_eq (s : State) (q : Nat) (v : Queue) : (setQueue s q v).cellar = s.cellar := rfl
@[simp] theorem setQueue_dir_eq (s : State) (q : Nat) (v : Queue) : (setQueue s q v).dir = s.dir := rfl
@[simp] theorem setQueue_cmds_eq (s : State) (q : Nat) (v : Queue) : (setQueue s q v).cmds = s.cmds := rfl
@[simp] theorem setQueue_nextCmd_eq (s : State) (q : Nat) (v : Queue) : (setQueue s q v).nextCmd = s.nextCmd := rfl
@[simp] theorem setQueue_results_eq (s : State) (q : Nat) (v : Queue) : (setQueue s q v).results = s.results := rfl
@[simp] theorem setQueue_parts_eq (s : State) (q : Nat) (v : Queue) : (setQueue s q v).parts = s.parts := rfl
@[simp] theorem setQueue_ctxs_eq (s : State) (q : Nat) (v : Queue) : (setQueue s q v).ctxs = s.ctxs := rfl
@[simp] theorem setQueue_programs_eq (s : State) (q : Nat) (v : Queue) : (setQueue s q v).programs = s.programs := rfl
@[simp] theorem setQueue_runs_eq (s : State) (q : Nat) (v : Queue) : (setQueue s q v).runs = s.runs := rfl
@[simp] theorem setQueue_clusters_eq (s : State) (q : Nat) (v : Queue) : (setQueue s q v).clusters = s.clusters := rfl
@[simp] theorem setQueue_exch_eq (s : State) (q : Nat) (v : Queue) : (setQueue s q v).exch = s.exch := rfl
@[simp] theorem setQueue_streams_eq (s : State) (q : Nat) (v : Queue) : (setQueue s q v).streams = s.streams := rfl
@[simp] theorem setQueue_power_eq (s : State) (q : Nat) (v : Queue) : (setQueue s q v).power = s.power := rfl
@[simp] theorem setQueue_beat_eq (s : State) (q : Nat) (v : Queue) : (setQueue s q v).beat = s.beat := rfl
@[simp] theorem setQueue_sec_eq (s : State) (q : Nat) (v : Queue) : (setQueue s q v).sec = s.sec := rfl
@[simp] theorem setQueue_mgmt_eq (s : State) (q : Nat) (v : Queue) : (setQueue s q v).mgmt = s.mgmt := rfl

@[simp] theorem setCmd_pending_eq (s : State) (id : Nat) (f : Cmd → Cmd) : (setCmd s id f).pending = s.pending := rfl
@[simp] theorem setCmd_free_eq (s : State) (id : Nat) (f : Cmd → Cmd) : (setCmd s id f).free = s.free := rfl
@[simp] theorem setCmd_phase_eq (s : State) (id : Nat) (f : Cmd → Cmd) : (setCmd s id f).phase = s.phase := rfl
@[simp] theorem setCmd_regs_eq (s : State) (id : Nat) (f : Cmd → Cmd) : (setCmd s id f).regs = s.regs := rfl
@[simp] theorem setCmd_mem_eq (s : State) (id : Nat) (f : Cmd → Cmd) : (setCmd s id f).mem = s.mem := rfl
@[simp] theorem setCmd_undef_eq (s : State) (id : Nat) (f : Cmd → Cmd) : (setCmd s id f).undef = s.undef := rfl
@[simp] theorem setCmd_poison_eq (s : State) (id : Nat) (f : Cmd → Cmd) : (setCmd s id f).poison = s.poison := rfl
@[simp] theorem setCmd_cellar_eq (s : State) (id : Nat) (f : Cmd → Cmd) : (setCmd s id f).cellar = s.cellar := rfl
@[simp] theorem setCmd_dir_eq (s : State) (id : Nat) (f : Cmd → Cmd) : (setCmd s id f).dir = s.dir := rfl
@[simp] theorem setCmd_queues_eq (s : State) (id : Nat) (f : Cmd → Cmd) : (setCmd s id f).queues = s.queues := rfl
@[simp] theorem setCmd_nextCmd_eq (s : State) (id : Nat) (f : Cmd → Cmd) : (setCmd s id f).nextCmd = s.nextCmd := rfl
@[simp] theorem setCmd_results_eq (s : State) (id : Nat) (f : Cmd → Cmd) : (setCmd s id f).results = s.results := rfl
@[simp] theorem setCmd_parts_eq (s : State) (id : Nat) (f : Cmd → Cmd) : (setCmd s id f).parts = s.parts := rfl
@[simp] theorem setCmd_ctxs_eq (s : State) (id : Nat) (f : Cmd → Cmd) : (setCmd s id f).ctxs = s.ctxs := rfl
@[simp] theorem setCmd_programs_eq (s : State) (id : Nat) (f : Cmd → Cmd) : (setCmd s id f).programs = s.programs := rfl
@[simp] theorem setCmd_runs_eq (s : State) (id : Nat) (f : Cmd → Cmd) : (setCmd s id f).runs = s.runs := rfl
@[simp] theorem setCmd_clusters_eq (s : State) (id : Nat) (f : Cmd → Cmd) : (setCmd s id f).clusters = s.clusters := rfl
@[simp] theorem setCmd_exch_eq (s : State) (id : Nat) (f : Cmd → Cmd) : (setCmd s id f).exch = s.exch := rfl
@[simp] theorem setCmd_streams_eq (s : State) (id : Nat) (f : Cmd → Cmd) : (setCmd s id f).streams = s.streams := rfl
@[simp] theorem setCmd_power_eq (s : State) (id : Nat) (f : Cmd → Cmd) : (setCmd s id f).power = s.power := rfl
@[simp] theorem setCmd_beat_eq (s : State) (id : Nat) (f : Cmd → Cmd) : (setCmd s id f).beat = s.beat := rfl
@[simp] theorem setCmd_sec_eq (s : State) (id : Nat) (f : Cmd → Cmd) : (setCmd s id f).sec = s.sec := rfl
@[simp] theorem setCmd_mgmt_eq (s : State) (id : Nat) (f : Cmd → Cmd) : (setCmd s id f).mgmt = s.mgmt := rfl

@[simp] theorem setCtx_pending_eq (s : State) (n : Nat) (v : Context) : (setCtx s n v).pending = s.pending := rfl
@[simp] theorem setCtx_free_eq (s : State) (n : Nat) (v : Context) : (setCtx s n v).free = s.free := rfl
@[simp] theorem setCtx_phase_eq (s : State) (n : Nat) (v : Context) : (setCtx s n v).phase = s.phase := rfl
@[simp] theorem setCtx_regs_eq (s : State) (n : Nat) (v : Context) : (setCtx s n v).regs = s.regs := rfl
@[simp] theorem setCtx_mem_eq (s : State) (n : Nat) (v : Context) : (setCtx s n v).mem = s.mem := rfl
@[simp] theorem setCtx_undef_eq (s : State) (n : Nat) (v : Context) : (setCtx s n v).undef = s.undef := rfl
@[simp] theorem setCtx_poison_eq (s : State) (n : Nat) (v : Context) : (setCtx s n v).poison = s.poison := rfl
@[simp] theorem setCtx_cellar_eq (s : State) (n : Nat) (v : Context) : (setCtx s n v).cellar = s.cellar := rfl
@[simp] theorem setCtx_dir_eq (s : State) (n : Nat) (v : Context) : (setCtx s n v).dir = s.dir := rfl
@[simp] theorem setCtx_queues_eq (s : State) (n : Nat) (v : Context) : (setCtx s n v).queues = s.queues := rfl
@[simp] theorem setCtx_cmds_eq (s : State) (n : Nat) (v : Context) : (setCtx s n v).cmds = s.cmds := rfl
@[simp] theorem setCtx_nextCmd_eq (s : State) (n : Nat) (v : Context) : (setCtx s n v).nextCmd = s.nextCmd := rfl
@[simp] theorem setCtx_results_eq (s : State) (n : Nat) (v : Context) : (setCtx s n v).results = s.results := rfl
@[simp] theorem setCtx_parts_eq (s : State) (n : Nat) (v : Context) : (setCtx s n v).parts = s.parts := rfl
@[simp] theorem setCtx_programs_eq (s : State) (n : Nat) (v : Context) : (setCtx s n v).programs = s.programs := rfl
@[simp] theorem setCtx_runs_eq (s : State) (n : Nat) (v : Context) : (setCtx s n v).runs = s.runs := rfl
@[simp] theorem setCtx_clusters_eq (s : State) (n : Nat) (v : Context) : (setCtx s n v).clusters = s.clusters := rfl
@[simp] theorem setCtx_exch_eq (s : State) (n : Nat) (v : Context) : (setCtx s n v).exch = s.exch := rfl
@[simp] theorem setCtx_streams_eq (s : State) (n : Nat) (v : Context) : (setCtx s n v).streams = s.streams := rfl
@[simp] theorem setCtx_power_eq (s : State) (n : Nat) (v : Context) : (setCtx s n v).power = s.power := rfl
@[simp] theorem setCtx_beat_eq (s : State) (n : Nat) (v : Context) : (setCtx s n v).beat = s.beat := rfl
@[simp] theorem setCtx_sec_eq (s : State) (n : Nat) (v : Context) : (setCtx s n v).sec = s.sec := rfl
@[simp] theorem setCtx_mgmt_eq (s : State) (n : Nat) (v : Context) : (setCtx s n v).mgmt = s.mgmt := rfl

@[simp] theorem setPart_pending_eq (s : State) (p : Nat) (v : Partition) : (setPart s p v).pending = s.pending := rfl
@[simp] theorem setPart_free_eq (s : State) (p : Nat) (v : Partition) : (setPart s p v).free = s.free := rfl
@[simp] theorem setPart_phase_eq (s : State) (p : Nat) (v : Partition) : (setPart s p v).phase = s.phase := rfl
@[simp] theorem setPart_regs_eq (s : State) (p : Nat) (v : Partition) : (setPart s p v).regs = s.regs := rfl
@[simp] theorem setPart_mem_eq (s : State) (p : Nat) (v : Partition) : (setPart s p v).mem = s.mem := rfl
@[simp] theorem setPart_undef_eq (s : State) (p : Nat) (v : Partition) : (setPart s p v).undef = s.undef := rfl
@[simp] theorem setPart_poison_eq (s : State) (p : Nat) (v : Partition) : (setPart s p v).poison = s.poison := rfl
@[simp] theorem setPart_cellar_eq (s : State) (p : Nat) (v : Partition) : (setPart s p v).cellar = s.cellar := rfl
@[simp] theorem setPart_dir_eq (s : State) (p : Nat) (v : Partition) : (setPart s p v).dir = s.dir := rfl
@[simp] theorem setPart_queues_eq (s : State) (p : Nat) (v : Partition) : (setPart s p v).queues = s.queues := rfl
@[simp] theorem setPart_cmds_eq (s : State) (p : Nat) (v : Partition) : (setPart s p v).cmds = s.cmds := rfl
@[simp] theorem setPart_nextCmd_eq (s : State) (p : Nat) (v : Partition) : (setPart s p v).nextCmd = s.nextCmd := rfl
@[simp] theorem setPart_results_eq (s : State) (p : Nat) (v : Partition) : (setPart s p v).results = s.results := rfl
@[simp] theorem setPart_ctxs_eq (s : State) (p : Nat) (v : Partition) : (setPart s p v).ctxs = s.ctxs := rfl
@[simp] theorem setPart_programs_eq (s : State) (p : Nat) (v : Partition) : (setPart s p v).programs = s.programs := rfl
@[simp] theorem setPart_runs_eq (s : State) (p : Nat) (v : Partition) : (setPart s p v).runs = s.runs := rfl
@[simp] theorem setPart_clusters_eq (s : State) (p : Nat) (v : Partition) : (setPart s p v).clusters = s.clusters := rfl
@[simp] theorem setPart_exch_eq (s : State) (p : Nat) (v : Partition) : (setPart s p v).exch = s.exch := rfl
@[simp] theorem setPart_streams_eq (s : State) (p : Nat) (v : Partition) : (setPart s p v).streams = s.streams := rfl
@[simp] theorem setPart_power_eq (s : State) (p : Nat) (v : Partition) : (setPart s p v).power = s.power := rfl
@[simp] theorem setPart_beat_eq (s : State) (p : Nat) (v : Partition) : (setPart s p v).beat = s.beat := rfl
@[simp] theorem setPart_sec_eq (s : State) (p : Nat) (v : Partition) : (setPart s p v).sec = s.sec := rfl
@[simp] theorem setPart_mgmt_eq (s : State) (p : Nat) (v : Partition) : (setPart s p v).mgmt = s.mgmt := rfl

@[simp] theorem setPartPower_pending_eq (s : State) (p : Nat) (v : PartPower) : (setPartPower s p v).pending = s.pending := rfl
@[simp] theorem setPartPower_free_eq (s : State) (p : Nat) (v : PartPower) : (setPartPower s p v).free = s.free := rfl
@[simp] theorem setPartPower_phase_eq (s : State) (p : Nat) (v : PartPower) : (setPartPower s p v).phase = s.phase := rfl
@[simp] theorem setPartPower_regs_eq (s : State) (p : Nat) (v : PartPower) : (setPartPower s p v).regs = s.regs := rfl
@[simp] theorem setPartPower_mem_eq (s : State) (p : Nat) (v : PartPower) : (setPartPower s p v).mem = s.mem := rfl
@[simp] theorem setPartPower_undef_eq (s : State) (p : Nat) (v : PartPower) : (setPartPower s p v).undef = s.undef := rfl
@[simp] theorem setPartPower_poison_eq (s : State) (p : Nat) (v : PartPower) : (setPartPower s p v).poison = s.poison := rfl
@[simp] theorem setPartPower_cellar_eq (s : State) (p : Nat) (v : PartPower) : (setPartPower s p v).cellar = s.cellar := rfl
@[simp] theorem setPartPower_dir_eq (s : State) (p : Nat) (v : PartPower) : (setPartPower s p v).dir = s.dir := rfl
@[simp] theorem setPartPower_queues_eq (s : State) (p : Nat) (v : PartPower) : (setPartPower s p v).queues = s.queues := rfl
@[simp] theorem setPartPower_cmds_eq (s : State) (p : Nat) (v : PartPower) : (setPartPower s p v).cmds = s.cmds := rfl
@[simp] theorem setPartPower_nextCmd_eq (s : State) (p : Nat) (v : PartPower) : (setPartPower s p v).nextCmd = s.nextCmd := rfl
@[simp] theorem setPartPower_results_eq (s : State) (p : Nat) (v : PartPower) : (setPartPower s p v).results = s.results := rfl
@[simp] theorem setPartPower_parts_eq (s : State) (p : Nat) (v : PartPower) : (setPartPower s p v).parts = s.parts := rfl
@[simp] theorem setPartPower_ctxs_eq (s : State) (p : Nat) (v : PartPower) : (setPartPower s p v).ctxs = s.ctxs := rfl
@[simp] theorem setPartPower_programs_eq (s : State) (p : Nat) (v : PartPower) : (setPartPower s p v).programs = s.programs := rfl
@[simp] theorem setPartPower_runs_eq (s : State) (p : Nat) (v : PartPower) : (setPartPower s p v).runs = s.runs := rfl
@[simp] theorem setPartPower_clusters_eq (s : State) (p : Nat) (v : PartPower) : (setPartPower s p v).clusters = s.clusters := rfl
@[simp] theorem setPartPower_exch_eq (s : State) (p : Nat) (v : PartPower) : (setPartPower s p v).exch = s.exch := rfl
@[simp] theorem setPartPower_streams_eq (s : State) (p : Nat) (v : PartPower) : (setPartPower s p v).streams = s.streams := rfl
@[simp] theorem setPartPower_beat_eq (s : State) (p : Nat) (v : PartPower) : (setPartPower s p v).beat = s.beat := rfl
@[simp] theorem setPartPower_sec_eq (s : State) (p : Nat) (v : PartPower) : (setPartPower s p v).sec = s.sec := rfl
@[simp] theorem setPartPower_mgmt_eq (s : State) (p : Nat) (v : PartPower) : (setPartPower s p v).mgmt = s.mgmt := rfl

@[simp] theorem setExch_pending_eq (s : State) (t : Nat) (v : ExchEngine) : (setExch s t v).pending = s.pending := rfl
@[simp] theorem setExch_free_eq (s : State) (t : Nat) (v : ExchEngine) : (setExch s t v).free = s.free := rfl
@[simp] theorem setExch_phase_eq (s : State) (t : Nat) (v : ExchEngine) : (setExch s t v).phase = s.phase := rfl
@[simp] theorem setExch_regs_eq (s : State) (t : Nat) (v : ExchEngine) : (setExch s t v).regs = s.regs := rfl
@[simp] theorem setExch_mem_eq (s : State) (t : Nat) (v : ExchEngine) : (setExch s t v).mem = s.mem := rfl
@[simp] theorem setExch_undef_eq (s : State) (t : Nat) (v : ExchEngine) : (setExch s t v).undef = s.undef := rfl
@[simp] theorem setExch_poison_eq (s : State) (t : Nat) (v : ExchEngine) : (setExch s t v).poison = s.poison := rfl
@[simp] theorem setExch_cellar_eq (s : State) (t : Nat) (v : ExchEngine) : (setExch s t v).cellar = s.cellar := rfl
@[simp] theorem setExch_dir_eq (s : State) (t : Nat) (v : ExchEngine) : (setExch s t v).dir = s.dir := rfl
@[simp] theorem setExch_queues_eq (s : State) (t : Nat) (v : ExchEngine) : (setExch s t v).queues = s.queues := rfl
@[simp] theorem setExch_cmds_eq (s : State) (t : Nat) (v : ExchEngine) : (setExch s t v).cmds = s.cmds := rfl
@[simp] theorem setExch_nextCmd_eq (s : State) (t : Nat) (v : ExchEngine) : (setExch s t v).nextCmd = s.nextCmd := rfl
@[simp] theorem setExch_results_eq (s : State) (t : Nat) (v : ExchEngine) : (setExch s t v).results = s.results := rfl
@[simp] theorem setExch_parts_eq (s : State) (t : Nat) (v : ExchEngine) : (setExch s t v).parts = s.parts := rfl
@[simp] theorem setExch_ctxs_eq (s : State) (t : Nat) (v : ExchEngine) : (setExch s t v).ctxs = s.ctxs := rfl
@[simp] theorem setExch_programs_eq (s : State) (t : Nat) (v : ExchEngine) : (setExch s t v).programs = s.programs := rfl
@[simp] theorem setExch_runs_eq (s : State) (t : Nat) (v : ExchEngine) : (setExch s t v).runs = s.runs := rfl
@[simp] theorem setExch_clusters_eq (s : State) (t : Nat) (v : ExchEngine) : (setExch s t v).clusters = s.clusters := rfl
@[simp] theorem setExch_streams_eq (s : State) (t : Nat) (v : ExchEngine) : (setExch s t v).streams = s.streams := rfl
@[simp] theorem setExch_power_eq (s : State) (t : Nat) (v : ExchEngine) : (setExch s t v).power = s.power := rfl
@[simp] theorem setExch_beat_eq (s : State) (t : Nat) (v : ExchEngine) : (setExch s t v).beat = s.beat := rfl
@[simp] theorem setExch_sec_eq (s : State) (t : Nat) (v : ExchEngine) : (setExch s t v).sec = s.sec := rfl
@[simp] theorem setExch_mgmt_eq (s : State) (t : Nat) (v : ExchEngine) : (setExch s t v).mgmt = s.mgmt := rfl

@[simp] theorem setCellarLine_pending_eq (s : State) (l : Nat) (v : Option CelLine) : (setCellarLine s l v).pending = s.pending := rfl
@[simp] theorem setCellarLine_free_eq (s : State) (l : Nat) (v : Option CelLine) : (setCellarLine s l v).free = s.free := rfl
@[simp] theorem setCellarLine_phase_eq (s : State) (l : Nat) (v : Option CelLine) : (setCellarLine s l v).phase = s.phase := rfl
@[simp] theorem setCellarLine_regs_eq (s : State) (l : Nat) (v : Option CelLine) : (setCellarLine s l v).regs = s.regs := rfl
@[simp] theorem setCellarLine_mem_eq (s : State) (l : Nat) (v : Option CelLine) : (setCellarLine s l v).mem = s.mem := rfl
@[simp] theorem setCellarLine_undef_eq (s : State) (l : Nat) (v : Option CelLine) : (setCellarLine s l v).undef = s.undef := rfl
@[simp] theorem setCellarLine_poison_eq (s : State) (l : Nat) (v : Option CelLine) : (setCellarLine s l v).poison = s.poison := rfl
@[simp] theorem setCellarLine_dir_eq (s : State) (l : Nat) (v : Option CelLine) : (setCellarLine s l v).dir = s.dir := rfl
@[simp] theorem setCellarLine_queues_eq (s : State) (l : Nat) (v : Option CelLine) : (setCellarLine s l v).queues = s.queues := rfl
@[simp] theorem setCellarLine_cmds_eq (s : State) (l : Nat) (v : Option CelLine) : (setCellarLine s l v).cmds = s.cmds := rfl
@[simp] theorem setCellarLine_nextCmd_eq (s : State) (l : Nat) (v : Option CelLine) : (setCellarLine s l v).nextCmd = s.nextCmd := rfl
@[simp] theorem setCellarLine_results_eq (s : State) (l : Nat) (v : Option CelLine) : (setCellarLine s l v).results = s.results := rfl
@[simp] theorem setCellarLine_parts_eq (s : State) (l : Nat) (v : Option CelLine) : (setCellarLine s l v).parts = s.parts := rfl
@[simp] theorem setCellarLine_ctxs_eq (s : State) (l : Nat) (v : Option CelLine) : (setCellarLine s l v).ctxs = s.ctxs := rfl
@[simp] theorem setCellarLine_programs_eq (s : State) (l : Nat) (v : Option CelLine) : (setCellarLine s l v).programs = s.programs := rfl
@[simp] theorem setCellarLine_runs_eq (s : State) (l : Nat) (v : Option CelLine) : (setCellarLine s l v).runs = s.runs := rfl
@[simp] theorem setCellarLine_clusters_eq (s : State) (l : Nat) (v : Option CelLine) : (setCellarLine s l v).clusters = s.clusters := rfl
@[simp] theorem setCellarLine_exch_eq (s : State) (l : Nat) (v : Option CelLine) : (setCellarLine s l v).exch = s.exch := rfl
@[simp] theorem setCellarLine_streams_eq (s : State) (l : Nat) (v : Option CelLine) : (setCellarLine s l v).streams = s.streams := rfl
@[simp] theorem setCellarLine_power_eq (s : State) (l : Nat) (v : Option CelLine) : (setCellarLine s l v).power = s.power := rfl
@[simp] theorem setCellarLine_beat_eq (s : State) (l : Nat) (v : Option CelLine) : (setCellarLine s l v).beat = s.beat := rfl
@[simp] theorem setCellarLine_sec_eq (s : State) (l : Nat) (v : Option CelLine) : (setCellarLine s l v).sec = s.sec := rfl
@[simp] theorem setCellarLine_mgmt_eq (s : State) (l : Nat) (v : Option CelLine) : (setCellarLine s l v).mgmt = s.mgmt := rfl

@[simp] theorem setDirEntry_pending_eq (s : State) (l : Nat) (v : Option DirEntry) : (setDirEntry s l v).pending = s.pending := rfl
@[simp] theorem setDirEntry_free_eq (s : State) (l : Nat) (v : Option DirEntry) : (setDirEntry s l v).free = s.free := rfl
@[simp] theorem setDirEntry_phase_eq (s : State) (l : Nat) (v : Option DirEntry) : (setDirEntry s l v).phase = s.phase := rfl
@[simp] theorem setDirEntry_regs_eq (s : State) (l : Nat) (v : Option DirEntry) : (setDirEntry s l v).regs = s.regs := rfl
@[simp] theorem setDirEntry_mem_eq (s : State) (l : Nat) (v : Option DirEntry) : (setDirEntry s l v).mem = s.mem := rfl
@[simp] theorem setDirEntry_undef_eq (s : State) (l : Nat) (v : Option DirEntry) : (setDirEntry s l v).undef = s.undef := rfl
@[simp] theorem setDirEntry_poison_eq (s : State) (l : Nat) (v : Option DirEntry) : (setDirEntry s l v).poison = s.poison := rfl
@[simp] theorem setDirEntry_cellar_eq (s : State) (l : Nat) (v : Option DirEntry) : (setDirEntry s l v).cellar = s.cellar := rfl
@[simp] theorem setDirEntry_queues_eq (s : State) (l : Nat) (v : Option DirEntry) : (setDirEntry s l v).queues = s.queues := rfl
@[simp] theorem setDirEntry_cmds_eq (s : State) (l : Nat) (v : Option DirEntry) : (setDirEntry s l v).cmds = s.cmds := rfl
@[simp] theorem setDirEntry_nextCmd_eq (s : State) (l : Nat) (v : Option DirEntry) : (setDirEntry s l v).nextCmd = s.nextCmd := rfl
@[simp] theorem setDirEntry_results_eq (s : State) (l : Nat) (v : Option DirEntry) : (setDirEntry s l v).results = s.results := rfl
@[simp] theorem setDirEntry_parts_eq (s : State) (l : Nat) (v : Option DirEntry) : (setDirEntry s l v).parts = s.parts := rfl
@[simp] theorem setDirEntry_ctxs_eq (s : State) (l : Nat) (v : Option DirEntry) : (setDirEntry s l v).ctxs = s.ctxs := rfl
@[simp] theorem setDirEntry_programs_eq (s : State) (l : Nat) (v : Option DirEntry) : (setDirEntry s l v).programs = s.programs := rfl
@[simp] theorem setDirEntry_runs_eq (s : State) (l : Nat) (v : Option DirEntry) : (setDirEntry s l v).runs = s.runs := rfl
@[simp] theorem setDirEntry_clusters_eq (s : State) (l : Nat) (v : Option DirEntry) : (setDirEntry s l v).clusters = s.clusters := rfl
@[simp] theorem setDirEntry_exch_eq (s : State) (l : Nat) (v : Option DirEntry) : (setDirEntry s l v).exch = s.exch := rfl
@[simp] theorem setDirEntry_streams_eq (s : State) (l : Nat) (v : Option DirEntry) : (setDirEntry s l v).streams = s.streams := rfl
@[simp] theorem setDirEntry_power_eq (s : State) (l : Nat) (v : Option DirEntry) : (setDirEntry s l v).power = s.power := rfl
@[simp] theorem setDirEntry_beat_eq (s : State) (l : Nat) (v : Option DirEntry) : (setDirEntry s l v).beat = s.beat := rfl
@[simp] theorem setDirEntry_sec_eq (s : State) (l : Nat) (v : Option DirEntry) : (setDirEntry s l v).sec = s.sec := rfl
@[simp] theorem setDirEntry_mgmt_eq (s : State) (l : Nat) (v : Option DirEntry) : (setDirEntry s l v).mgmt = s.mgmt := rfl

@[simp] theorem modRun_pending_eq (s : State) (id : Nat) (f : Run → Run) : (modRun s id f).pending = s.pending := rfl
@[simp] theorem modRun_free_eq (s : State) (id : Nat) (f : Run → Run) : (modRun s id f).free = s.free := rfl
@[simp] theorem modRun_phase_eq (s : State) (id : Nat) (f : Run → Run) : (modRun s id f).phase = s.phase := rfl
@[simp] theorem modRun_regs_eq (s : State) (id : Nat) (f : Run → Run) : (modRun s id f).regs = s.regs := rfl
@[simp] theorem modRun_mem_eq (s : State) (id : Nat) (f : Run → Run) : (modRun s id f).mem = s.mem := rfl
@[simp] theorem modRun_undef_eq (s : State) (id : Nat) (f : Run → Run) : (modRun s id f).undef = s.undef := rfl
@[simp] theorem modRun_poison_eq (s : State) (id : Nat) (f : Run → Run) : (modRun s id f).poison = s.poison := rfl
@[simp] theorem modRun_cellar_eq (s : State) (id : Nat) (f : Run → Run) : (modRun s id f).cellar = s.cellar := rfl
@[simp] theorem modRun_dir_eq (s : State) (id : Nat) (f : Run → Run) : (modRun s id f).dir = s.dir := rfl
@[simp] theorem modRun_queues_eq (s : State) (id : Nat) (f : Run → Run) : (modRun s id f).queues = s.queues := rfl
@[simp] theorem modRun_cmds_eq (s : State) (id : Nat) (f : Run → Run) : (modRun s id f).cmds = s.cmds := rfl
@[simp] theorem modRun_nextCmd_eq (s : State) (id : Nat) (f : Run → Run) : (modRun s id f).nextCmd = s.nextCmd := rfl
@[simp] theorem modRun_results_eq (s : State) (id : Nat) (f : Run → Run) : (modRun s id f).results = s.results := rfl
@[simp] theorem modRun_parts_eq (s : State) (id : Nat) (f : Run → Run) : (modRun s id f).parts = s.parts := rfl
@[simp] theorem modRun_ctxs_eq (s : State) (id : Nat) (f : Run → Run) : (modRun s id f).ctxs = s.ctxs := rfl
@[simp] theorem modRun_programs_eq (s : State) (id : Nat) (f : Run → Run) : (modRun s id f).programs = s.programs := rfl
@[simp] theorem modRun_clusters_eq (s : State) (id : Nat) (f : Run → Run) : (modRun s id f).clusters = s.clusters := rfl
@[simp] theorem modRun_exch_eq (s : State) (id : Nat) (f : Run → Run) : (modRun s id f).exch = s.exch := rfl
@[simp] theorem modRun_streams_eq (s : State) (id : Nat) (f : Run → Run) : (modRun s id f).streams = s.streams := rfl
@[simp] theorem modRun_power_eq (s : State) (id : Nat) (f : Run → Run) : (modRun s id f).power = s.power := rfl
@[simp] theorem modRun_beat_eq (s : State) (id : Nat) (f : Run → Run) : (modRun s id f).beat = s.beat := rfl
@[simp] theorem modRun_sec_eq (s : State) (id : Nat) (f : Run → Run) : (modRun s id f).sec = s.sec := rfl
@[simp] theorem modRun_mgmt_eq (s : State) (id : Nat) (f : Run → Run) : (modRun s id f).mgmt = s.mgmt := rfl

@[simp] theorem setStreamEntry_pending_eq (s : State) (n : Nat) (v : Option MilStream) : (setStreamEntry s n v).pending = s.pending := rfl
@[simp] theorem setStreamEntry_free_eq (s : State) (n : Nat) (v : Option MilStream) : (setStreamEntry s n v).free = s.free := rfl
@[simp] theorem setStreamEntry_phase_eq (s : State) (n : Nat) (v : Option MilStream) : (setStreamEntry s n v).phase = s.phase := rfl
@[simp] theorem setStreamEntry_regs_eq (s : State) (n : Nat) (v : Option MilStream) : (setStreamEntry s n v).regs = s.regs := rfl
@[simp] theorem setStreamEntry_mem_eq (s : State) (n : Nat) (v : Option MilStream) : (setStreamEntry s n v).mem = s.mem := rfl
@[simp] theorem setStreamEntry_undef_eq (s : State) (n : Nat) (v : Option MilStream) : (setStreamEntry s n v).undef = s.undef := rfl
@[simp] theorem setStreamEntry_poison_eq (s : State) (n : Nat) (v : Option MilStream) : (setStreamEntry s n v).poison = s.poison := rfl
@[simp] theorem setStreamEntry_cellar_eq (s : State) (n : Nat) (v : Option MilStream) : (setStreamEntry s n v).cellar = s.cellar := rfl
@[simp] theorem setStreamEntry_dir_eq (s : State) (n : Nat) (v : Option MilStream) : (setStreamEntry s n v).dir = s.dir := rfl
@[simp] theorem setStreamEntry_queues_eq (s : State) (n : Nat) (v : Option MilStream) : (setStreamEntry s n v).queues = s.queues := rfl
@[simp] theorem setStreamEntry_cmds_eq (s : State) (n : Nat) (v : Option MilStream) : (setStreamEntry s n v).cmds = s.cmds := rfl
@[simp] theorem setStreamEntry_nextCmd_eq (s : State) (n : Nat) (v : Option MilStream) : (setStreamEntry s n v).nextCmd = s.nextCmd := rfl
@[simp] theorem setStreamEntry_results_eq (s : State) (n : Nat) (v : Option MilStream) : (setStreamEntry s n v).results = s.results := rfl
@[simp] theorem setStreamEntry_parts_eq (s : State) (n : Nat) (v : Option MilStream) : (setStreamEntry s n v).parts = s.parts := rfl
@[simp] theorem setStreamEntry_ctxs_eq (s : State) (n : Nat) (v : Option MilStream) : (setStreamEntry s n v).ctxs = s.ctxs := rfl
@[simp] theorem setStreamEntry_programs_eq (s : State) (n : Nat) (v : Option MilStream) : (setStreamEntry s n v).programs = s.programs := rfl
@[simp] theorem setStreamEntry_runs_eq (s : State) (n : Nat) (v : Option MilStream) : (setStreamEntry s n v).runs = s.runs := rfl
@[simp] theorem setStreamEntry_clusters_eq (s : State) (n : Nat) (v : Option MilStream) : (setStreamEntry s n v).clusters = s.clusters := rfl
@[simp] theorem setStreamEntry_exch_eq (s : State) (n : Nat) (v : Option MilStream) : (setStreamEntry s n v).exch = s.exch := rfl
@[simp] theorem setStreamEntry_power_eq (s : State) (n : Nat) (v : Option MilStream) : (setStreamEntry s n v).power = s.power := rfl
@[simp] theorem setStreamEntry_beat_eq (s : State) (n : Nat) (v : Option MilStream) : (setStreamEntry s n v).beat = s.beat := rfl
@[simp] theorem setStreamEntry_sec_eq (s : State) (n : Nat) (v : Option MilStream) : (setStreamEntry s n v).sec = s.sec := rfl
@[simp] theorem setStreamEntry_mgmt_eq (s : State) (n : Nat) (v : Option MilStream) : (setStreamEntry s n v).mgmt = s.mgmt := rfl

@[simp] theorem setReg_ga_eq (s : State) (k : RegKind) (a i : Nat) (w : Word) (j : Nat) : (setReg s k a i w j).ga = s.ga := rfl
@[simp] theorem setReg_smbusDest_eq (s : State) (k : RegKind) (a i : Nat) (w : Word) (j : Nat) : (setReg s k a i w j).smbusDest = s.smbusDest := rfl
@[simp] theorem setReg_dirOrder_eq (s : State) (k : RegKind) (a i : Nat) (w : Word) (j : Nat) : (setReg s k a i w j).dirOrder = s.dirOrder := rfl
@[simp] theorem setReg_txns_eq (s : State) (k : RegKind) (a i : Nat) (w : Word) (j : Nat) : (setReg s k a i w j).txns = s.txns := rfl
@[simp] theorem setReg_homeQueue_eq (s : State) (k : RegKind) (a i : Nat) (w : Word) (j : Nat) : (setReg s k a i w j).homeQueue = s.homeQueue := rfl
@[simp] theorem setReg_reserved_eq (s : State) (k : RegKind) (a i : Nat) (w : Word) (j : Nat) : (setReg s k a i w j).reserved = s.reserved := rfl
@[simp] theorem setReg_reservations_eq (s : State) (k : RegKind) (a i : Nat) (w : Word) (j : Nat) : (setReg s k a i w j).reservations = s.reservations := rfl
@[simp] theorem setReg_copies_eq (s : State) (k : RegKind) (a i : Nat) (w : Word) (j : Nat) : (setReg s k a i w j).copies = s.copies := rfl
@[simp] theorem setReg_outstanding_eq (s : State) (k : RegKind) (a i : Nat) (w : Word) (j : Nat) : (setReg s k a i w j).outstanding = s.outstanding := rfl
@[simp] theorem setReg_cohOut_eq (s : State) (k : RegKind) (a i : Nat) (w : Word) (j : Nat) : (setReg s k a i w j).cohOut = s.cohOut := rfl
@[simp] theorem setReg_lost_eq (s : State) (k : RegKind) (a i : Nat) (w : Word) (j : Nat) : (setReg s k a i w j).lost = s.lost := rfl
@[simp] theorem setReg_exchOut_eq (s : State) (k : RegKind) (a i : Nat) (w : Word) (j : Nat) : (setReg s k a i w j).exchOut = s.exchOut := rfl
@[simp] theorem setReg_exchWait_eq (s : State) (k : RegKind) (a i : Nat) (w : Word) (j : Nat) : (setReg s k a i w j).exchWait = s.exchWait := rfl
@[simp] theorem setReg_mills_eq (s : State) (k : RegKind) (a i : Nat) (w : Word) (j : Nat) : (setReg s k a i w j).mills = s.mills := rfl
@[simp] theorem setReg_ports_eq (s : State) (k : RegKind) (a i : Nat) (w : Word) (j : Nat) : (setReg s k a i w j).ports = s.ports := rfl
@[simp] theorem setReg_outPaths_eq (s : State) (k : RegKind) (a i : Nat) (w : Word) (j : Nat) : (setReg s k a i w j).outPaths = s.outPaths := rfl
@[simp] theorem setReg_inPaths_eq (s : State) (k : RegKind) (a i : Nat) (w : Word) (j : Nat) : (setReg s k a i w j).inPaths = s.inPaths := rfl
@[simp] theorem setReg_reads_eq (s : State) (k : RegKind) (a i : Nat) (w : Word) (j : Nat) : (setReg s k a i w j).reads = s.reads := rfl
@[simp] theorem setReg_netOut_eq (s : State) (k : RegKind) (a i : Nat) (w : Word) (j : Nat) : (setReg s k a i w j).netOut = s.netOut := rfl
@[simp] theorem setReg_loopback_eq (s : State) (k : RegKind) (a i : Nat) (w : Word) (j : Nat) : (setReg s k a i w j).loopback = s.loopback := rfl

@[simp] theorem setFlag_ga_eq (s : State) (k : RegKind) (a i b : Nat) : (setFlag s k a i b).ga = s.ga := rfl
@[simp] theorem setFlag_smbusDest_eq (s : State) (k : RegKind) (a i b : Nat) : (setFlag s k a i b).smbusDest = s.smbusDest := rfl
@[simp] theorem setFlag_dirOrder_eq (s : State) (k : RegKind) (a i b : Nat) : (setFlag s k a i b).dirOrder = s.dirOrder := rfl
@[simp] theorem setFlag_txns_eq (s : State) (k : RegKind) (a i b : Nat) : (setFlag s k a i b).txns = s.txns := rfl
@[simp] theorem setFlag_homeQueue_eq (s : State) (k : RegKind) (a i b : Nat) : (setFlag s k a i b).homeQueue = s.homeQueue := rfl
@[simp] theorem setFlag_reserved_eq (s : State) (k : RegKind) (a i b : Nat) : (setFlag s k a i b).reserved = s.reserved := rfl
@[simp] theorem setFlag_reservations_eq (s : State) (k : RegKind) (a i b : Nat) : (setFlag s k a i b).reservations = s.reservations := rfl
@[simp] theorem setFlag_copies_eq (s : State) (k : RegKind) (a i b : Nat) : (setFlag s k a i b).copies = s.copies := rfl
@[simp] theorem setFlag_outstanding_eq (s : State) (k : RegKind) (a i b : Nat) : (setFlag s k a i b).outstanding = s.outstanding := rfl
@[simp] theorem setFlag_cohOut_eq (s : State) (k : RegKind) (a i b : Nat) : (setFlag s k a i b).cohOut = s.cohOut := rfl
@[simp] theorem setFlag_lost_eq (s : State) (k : RegKind) (a i b : Nat) : (setFlag s k a i b).lost = s.lost := rfl
@[simp] theorem setFlag_exchOut_eq (s : State) (k : RegKind) (a i b : Nat) : (setFlag s k a i b).exchOut = s.exchOut := rfl
@[simp] theorem setFlag_exchWait_eq (s : State) (k : RegKind) (a i b : Nat) : (setFlag s k a i b).exchWait = s.exchWait := rfl
@[simp] theorem setFlag_mills_eq (s : State) (k : RegKind) (a i b : Nat) : (setFlag s k a i b).mills = s.mills := rfl
@[simp] theorem setFlag_ports_eq (s : State) (k : RegKind) (a i b : Nat) : (setFlag s k a i b).ports = s.ports := rfl
@[simp] theorem setFlag_outPaths_eq (s : State) (k : RegKind) (a i b : Nat) : (setFlag s k a i b).outPaths = s.outPaths := rfl
@[simp] theorem setFlag_inPaths_eq (s : State) (k : RegKind) (a i b : Nat) : (setFlag s k a i b).inPaths = s.inPaths := rfl
@[simp] theorem setFlag_reads_eq (s : State) (k : RegKind) (a i b : Nat) : (setFlag s k a i b).reads = s.reads := rfl
@[simp] theorem setFlag_netOut_eq (s : State) (k : RegKind) (a i b : Nat) : (setFlag s k a i b).netOut = s.netOut := rfl
@[simp] theorem setFlag_loopback_eq (s : State) (k : RegKind) (a i b : Nat) : (setFlag s k a i b).loopback = s.loopback := rfl

@[simp] theorem setField_ga_eq (s : State) (k : RegKind) (a i lo n v : Nat) : (setField s k a i lo n v).ga = s.ga := rfl
@[simp] theorem setField_smbusDest_eq (s : State) (k : RegKind) (a i lo n v : Nat) : (setField s k a i lo n v).smbusDest = s.smbusDest := rfl
@[simp] theorem setField_dirOrder_eq (s : State) (k : RegKind) (a i lo n v : Nat) : (setField s k a i lo n v).dirOrder = s.dirOrder := rfl
@[simp] theorem setField_txns_eq (s : State) (k : RegKind) (a i lo n v : Nat) : (setField s k a i lo n v).txns = s.txns := rfl
@[simp] theorem setField_homeQueue_eq (s : State) (k : RegKind) (a i lo n v : Nat) : (setField s k a i lo n v).homeQueue = s.homeQueue := rfl
@[simp] theorem setField_reserved_eq (s : State) (k : RegKind) (a i lo n v : Nat) : (setField s k a i lo n v).reserved = s.reserved := rfl
@[simp] theorem setField_reservations_eq (s : State) (k : RegKind) (a i lo n v : Nat) : (setField s k a i lo n v).reservations = s.reservations := rfl
@[simp] theorem setField_copies_eq (s : State) (k : RegKind) (a i lo n v : Nat) : (setField s k a i lo n v).copies = s.copies := rfl
@[simp] theorem setField_outstanding_eq (s : State) (k : RegKind) (a i lo n v : Nat) : (setField s k a i lo n v).outstanding = s.outstanding := rfl
@[simp] theorem setField_cohOut_eq (s : State) (k : RegKind) (a i lo n v : Nat) : (setField s k a i lo n v).cohOut = s.cohOut := rfl
@[simp] theorem setField_lost_eq (s : State) (k : RegKind) (a i lo n v : Nat) : (setField s k a i lo n v).lost = s.lost := rfl
@[simp] theorem setField_exchOut_eq (s : State) (k : RegKind) (a i lo n v : Nat) : (setField s k a i lo n v).exchOut = s.exchOut := rfl
@[simp] theorem setField_exchWait_eq (s : State) (k : RegKind) (a i lo n v : Nat) : (setField s k a i lo n v).exchWait = s.exchWait := rfl
@[simp] theorem setField_mills_eq (s : State) (k : RegKind) (a i lo n v : Nat) : (setField s k a i lo n v).mills = s.mills := rfl
@[simp] theorem setField_ports_eq (s : State) (k : RegKind) (a i lo n v : Nat) : (setField s k a i lo n v).ports = s.ports := rfl
@[simp] theorem setField_outPaths_eq (s : State) (k : RegKind) (a i lo n v : Nat) : (setField s k a i lo n v).outPaths = s.outPaths := rfl
@[simp] theorem setField_inPaths_eq (s : State) (k : RegKind) (a i lo n v : Nat) : (setField s k a i lo n v).inPaths = s.inPaths := rfl
@[simp] theorem setField_reads_eq (s : State) (k : RegKind) (a i lo n v : Nat) : (setField s k a i lo n v).reads = s.reads := rfl
@[simp] theorem setField_netOut_eq (s : State) (k : RegKind) (a i lo n v : Nat) : (setField s k a i lo n v).netOut = s.netOut := rfl
@[simp] theorem setField_loopback_eq (s : State) (k : RegKind) (a i lo n v : Nat) : (setField s k a i lo n v).loopback = s.loopback := rfl

@[simp] theorem count_ga_eq (s : State) (k : RegKind) (a i n j : Nat) : (count s k a i n j).ga = s.ga := rfl
@[simp] theorem count_smbusDest_eq (s : State) (k : RegKind) (a i n j : Nat) : (count s k a i n j).smbusDest = s.smbusDest := rfl
@[simp] theorem count_dirOrder_eq (s : State) (k : RegKind) (a i n j : Nat) : (count s k a i n j).dirOrder = s.dirOrder := rfl
@[simp] theorem count_txns_eq (s : State) (k : RegKind) (a i n j : Nat) : (count s k a i n j).txns = s.txns := rfl
@[simp] theorem count_homeQueue_eq (s : State) (k : RegKind) (a i n j : Nat) : (count s k a i n j).homeQueue = s.homeQueue := rfl
@[simp] theorem count_reserved_eq (s : State) (k : RegKind) (a i n j : Nat) : (count s k a i n j).reserved = s.reserved := rfl
@[simp] theorem count_reservations_eq (s : State) (k : RegKind) (a i n j : Nat) : (count s k a i n j).reservations = s.reservations := rfl
@[simp] theorem count_copies_eq (s : State) (k : RegKind) (a i n j : Nat) : (count s k a i n j).copies = s.copies := rfl
@[simp] theorem count_outstanding_eq (s : State) (k : RegKind) (a i n j : Nat) : (count s k a i n j).outstanding = s.outstanding := rfl
@[simp] theorem count_cohOut_eq (s : State) (k : RegKind) (a i n j : Nat) : (count s k a i n j).cohOut = s.cohOut := rfl
@[simp] theorem count_lost_eq (s : State) (k : RegKind) (a i n j : Nat) : (count s k a i n j).lost = s.lost := rfl
@[simp] theorem count_exchOut_eq (s : State) (k : RegKind) (a i n j : Nat) : (count s k a i n j).exchOut = s.exchOut := rfl
@[simp] theorem count_exchWait_eq (s : State) (k : RegKind) (a i n j : Nat) : (count s k a i n j).exchWait = s.exchWait := rfl
@[simp] theorem count_mills_eq (s : State) (k : RegKind) (a i n j : Nat) : (count s k a i n j).mills = s.mills := rfl
@[simp] theorem count_ports_eq (s : State) (k : RegKind) (a i n j : Nat) : (count s k a i n j).ports = s.ports := rfl
@[simp] theorem count_outPaths_eq (s : State) (k : RegKind) (a i n j : Nat) : (count s k a i n j).outPaths = s.outPaths := rfl
@[simp] theorem count_inPaths_eq (s : State) (k : RegKind) (a i n j : Nat) : (count s k a i n j).inPaths = s.inPaths := rfl
@[simp] theorem count_reads_eq (s : State) (k : RegKind) (a i n j : Nat) : (count s k a i n j).reads = s.reads := rfl
@[simp] theorem count_netOut_eq (s : State) (k : RegKind) (a i n j : Nat) : (count s k a i n j).netOut = s.netOut := rfl
@[simp] theorem count_loopback_eq (s : State) (k : RegKind) (a i n j : Nat) : (count s k a i n j).loopback = s.loopback := rfl

@[simp] theorem setCluster_ga_eq (s : State) (c : Nat) (v : Cluster) : (setCluster s c v).ga = s.ga := rfl
@[simp] theorem setCluster_smbusDest_eq (s : State) (c : Nat) (v : Cluster) : (setCluster s c v).smbusDest = s.smbusDest := rfl
@[simp] theorem setCluster_dirOrder_eq (s : State) (c : Nat) (v : Cluster) : (setCluster s c v).dirOrder = s.dirOrder := rfl
@[simp] theorem setCluster_txns_eq (s : State) (c : Nat) (v : Cluster) : (setCluster s c v).txns = s.txns := rfl
@[simp] theorem setCluster_homeQueue_eq (s : State) (c : Nat) (v : Cluster) : (setCluster s c v).homeQueue = s.homeQueue := rfl
@[simp] theorem setCluster_reserved_eq (s : State) (c : Nat) (v : Cluster) : (setCluster s c v).reserved = s.reserved := rfl
@[simp] theorem setCluster_reservations_eq (s : State) (c : Nat) (v : Cluster) : (setCluster s c v).reservations = s.reservations := rfl
@[simp] theorem setCluster_copies_eq (s : State) (c : Nat) (v : Cluster) : (setCluster s c v).copies = s.copies := rfl
@[simp] theorem setCluster_outstanding_eq (s : State) (c : Nat) (v : Cluster) : (setCluster s c v).outstanding = s.outstanding := rfl
@[simp] theorem setCluster_cohOut_eq (s : State) (c : Nat) (v : Cluster) : (setCluster s c v).cohOut = s.cohOut := rfl
@[simp] theorem setCluster_lost_eq (s : State) (c : Nat) (v : Cluster) : (setCluster s c v).lost = s.lost := rfl
@[simp] theorem setCluster_exchOut_eq (s : State) (c : Nat) (v : Cluster) : (setCluster s c v).exchOut = s.exchOut := rfl
@[simp] theorem setCluster_exchWait_eq (s : State) (c : Nat) (v : Cluster) : (setCluster s c v).exchWait = s.exchWait := rfl
@[simp] theorem setCluster_mills_eq (s : State) (c : Nat) (v : Cluster) : (setCluster s c v).mills = s.mills := rfl
@[simp] theorem setCluster_ports_eq (s : State) (c : Nat) (v : Cluster) : (setCluster s c v).ports = s.ports := rfl
@[simp] theorem setCluster_outPaths_eq (s : State) (c : Nat) (v : Cluster) : (setCluster s c v).outPaths = s.outPaths := rfl
@[simp] theorem setCluster_inPaths_eq (s : State) (c : Nat) (v : Cluster) : (setCluster s c v).inPaths = s.inPaths := rfl
@[simp] theorem setCluster_reads_eq (s : State) (c : Nat) (v : Cluster) : (setCluster s c v).reads = s.reads := rfl
@[simp] theorem setCluster_netOut_eq (s : State) (c : Nat) (v : Cluster) : (setCluster s c v).netOut = s.netOut := rfl
@[simp] theorem setCluster_loopback_eq (s : State) (c : Nat) (v : Cluster) : (setCluster s c v).loopback = s.loopback := rfl

@[simp] theorem setQueue_ga_eq (s : State) (q : Nat) (v : Queue) : (setQueue s q v).ga = s.ga := rfl
@[simp] theorem setQueue_smbusDest_eq (s : State) (q : Nat) (v : Queue) : (setQueue s q v).smbusDest = s.smbusDest := rfl
@[simp] theorem setQueue_dirOrder_eq (s : State) (q : Nat) (v : Queue) : (setQueue s q v).dirOrder = s.dirOrder := rfl
@[simp] theorem setQueue_txns_eq (s : State) (q : Nat) (v : Queue) : (setQueue s q v).txns = s.txns := rfl
@[simp] theorem setQueue_homeQueue_eq (s : State) (q : Nat) (v : Queue) : (setQueue s q v).homeQueue = s.homeQueue := rfl
@[simp] theorem setQueue_reserved_eq (s : State) (q : Nat) (v : Queue) : (setQueue s q v).reserved = s.reserved := rfl
@[simp] theorem setQueue_reservations_eq (s : State) (q : Nat) (v : Queue) : (setQueue s q v).reservations = s.reservations := rfl
@[simp] theorem setQueue_copies_eq (s : State) (q : Nat) (v : Queue) : (setQueue s q v).copies = s.copies := rfl
@[simp] theorem setQueue_outstanding_eq (s : State) (q : Nat) (v : Queue) : (setQueue s q v).outstanding = s.outstanding := rfl
@[simp] theorem setQueue_cohOut_eq (s : State) (q : Nat) (v : Queue) : (setQueue s q v).cohOut = s.cohOut := rfl
@[simp] theorem setQueue_lost_eq (s : State) (q : Nat) (v : Queue) : (setQueue s q v).lost = s.lost := rfl
@[simp] theorem setQueue_exchOut_eq (s : State) (q : Nat) (v : Queue) : (setQueue s q v).exchOut = s.exchOut := rfl
@[simp] theorem setQueue_exchWait_eq (s : State) (q : Nat) (v : Queue) : (setQueue s q v).exchWait = s.exchWait := rfl
@[simp] theorem setQueue_mills_eq (s : State) (q : Nat) (v : Queue) : (setQueue s q v).mills = s.mills := rfl
@[simp] theorem setQueue_ports_eq (s : State) (q : Nat) (v : Queue) : (setQueue s q v).ports = s.ports := rfl
@[simp] theorem setQueue_outPaths_eq (s : State) (q : Nat) (v : Queue) : (setQueue s q v).outPaths = s.outPaths := rfl
@[simp] theorem setQueue_inPaths_eq (s : State) (q : Nat) (v : Queue) : (setQueue s q v).inPaths = s.inPaths := rfl
@[simp] theorem setQueue_reads_eq (s : State) (q : Nat) (v : Queue) : (setQueue s q v).reads = s.reads := rfl
@[simp] theorem setQueue_netOut_eq (s : State) (q : Nat) (v : Queue) : (setQueue s q v).netOut = s.netOut := rfl
@[simp] theorem setQueue_loopback_eq (s : State) (q : Nat) (v : Queue) : (setQueue s q v).loopback = s.loopback := rfl

@[simp] theorem setCmd_ga_eq (s : State) (id : Nat) (f : Cmd → Cmd) : (setCmd s id f).ga = s.ga := rfl
@[simp] theorem setCmd_smbusDest_eq (s : State) (id : Nat) (f : Cmd → Cmd) : (setCmd s id f).smbusDest = s.smbusDest := rfl
@[simp] theorem setCmd_dirOrder_eq (s : State) (id : Nat) (f : Cmd → Cmd) : (setCmd s id f).dirOrder = s.dirOrder := rfl
@[simp] theorem setCmd_txns_eq (s : State) (id : Nat) (f : Cmd → Cmd) : (setCmd s id f).txns = s.txns := rfl
@[simp] theorem setCmd_homeQueue_eq (s : State) (id : Nat) (f : Cmd → Cmd) : (setCmd s id f).homeQueue = s.homeQueue := rfl
@[simp] theorem setCmd_reserved_eq (s : State) (id : Nat) (f : Cmd → Cmd) : (setCmd s id f).reserved = s.reserved := rfl
@[simp] theorem setCmd_reservations_eq (s : State) (id : Nat) (f : Cmd → Cmd) : (setCmd s id f).reservations = s.reservations := rfl
@[simp] theorem setCmd_copies_eq (s : State) (id : Nat) (f : Cmd → Cmd) : (setCmd s id f).copies = s.copies := rfl
@[simp] theorem setCmd_outstanding_eq (s : State) (id : Nat) (f : Cmd → Cmd) : (setCmd s id f).outstanding = s.outstanding := rfl
@[simp] theorem setCmd_cohOut_eq (s : State) (id : Nat) (f : Cmd → Cmd) : (setCmd s id f).cohOut = s.cohOut := rfl
@[simp] theorem setCmd_lost_eq (s : State) (id : Nat) (f : Cmd → Cmd) : (setCmd s id f).lost = s.lost := rfl
@[simp] theorem setCmd_exchOut_eq (s : State) (id : Nat) (f : Cmd → Cmd) : (setCmd s id f).exchOut = s.exchOut := rfl
@[simp] theorem setCmd_exchWait_eq (s : State) (id : Nat) (f : Cmd → Cmd) : (setCmd s id f).exchWait = s.exchWait := rfl
@[simp] theorem setCmd_mills_eq (s : State) (id : Nat) (f : Cmd → Cmd) : (setCmd s id f).mills = s.mills := rfl
@[simp] theorem setCmd_ports_eq (s : State) (id : Nat) (f : Cmd → Cmd) : (setCmd s id f).ports = s.ports := rfl
@[simp] theorem setCmd_outPaths_eq (s : State) (id : Nat) (f : Cmd → Cmd) : (setCmd s id f).outPaths = s.outPaths := rfl
@[simp] theorem setCmd_inPaths_eq (s : State) (id : Nat) (f : Cmd → Cmd) : (setCmd s id f).inPaths = s.inPaths := rfl
@[simp] theorem setCmd_reads_eq (s : State) (id : Nat) (f : Cmd → Cmd) : (setCmd s id f).reads = s.reads := rfl
@[simp] theorem setCmd_netOut_eq (s : State) (id : Nat) (f : Cmd → Cmd) : (setCmd s id f).netOut = s.netOut := rfl
@[simp] theorem setCmd_loopback_eq (s : State) (id : Nat) (f : Cmd → Cmd) : (setCmd s id f).loopback = s.loopback := rfl

@[simp] theorem setCtx_ga_eq (s : State) (n : Nat) (v : Context) : (setCtx s n v).ga = s.ga := rfl
@[simp] theorem setCtx_smbusDest_eq (s : State) (n : Nat) (v : Context) : (setCtx s n v).smbusDest = s.smbusDest := rfl
@[simp] theorem setCtx_dirOrder_eq (s : State) (n : Nat) (v : Context) : (setCtx s n v).dirOrder = s.dirOrder := rfl
@[simp] theorem setCtx_txns_eq (s : State) (n : Nat) (v : Context) : (setCtx s n v).txns = s.txns := rfl
@[simp] theorem setCtx_homeQueue_eq (s : State) (n : Nat) (v : Context) : (setCtx s n v).homeQueue = s.homeQueue := rfl
@[simp] theorem setCtx_reserved_eq (s : State) (n : Nat) (v : Context) : (setCtx s n v).reserved = s.reserved := rfl
@[simp] theorem setCtx_reservations_eq (s : State) (n : Nat) (v : Context) : (setCtx s n v).reservations = s.reservations := rfl
@[simp] theorem setCtx_copies_eq (s : State) (n : Nat) (v : Context) : (setCtx s n v).copies = s.copies := rfl
@[simp] theorem setCtx_outstanding_eq (s : State) (n : Nat) (v : Context) : (setCtx s n v).outstanding = s.outstanding := rfl
@[simp] theorem setCtx_cohOut_eq (s : State) (n : Nat) (v : Context) : (setCtx s n v).cohOut = s.cohOut := rfl
@[simp] theorem setCtx_lost_eq (s : State) (n : Nat) (v : Context) : (setCtx s n v).lost = s.lost := rfl
@[simp] theorem setCtx_exchOut_eq (s : State) (n : Nat) (v : Context) : (setCtx s n v).exchOut = s.exchOut := rfl
@[simp] theorem setCtx_exchWait_eq (s : State) (n : Nat) (v : Context) : (setCtx s n v).exchWait = s.exchWait := rfl
@[simp] theorem setCtx_mills_eq (s : State) (n : Nat) (v : Context) : (setCtx s n v).mills = s.mills := rfl
@[simp] theorem setCtx_ports_eq (s : State) (n : Nat) (v : Context) : (setCtx s n v).ports = s.ports := rfl
@[simp] theorem setCtx_outPaths_eq (s : State) (n : Nat) (v : Context) : (setCtx s n v).outPaths = s.outPaths := rfl
@[simp] theorem setCtx_inPaths_eq (s : State) (n : Nat) (v : Context) : (setCtx s n v).inPaths = s.inPaths := rfl
@[simp] theorem setCtx_reads_eq (s : State) (n : Nat) (v : Context) : (setCtx s n v).reads = s.reads := rfl
@[simp] theorem setCtx_netOut_eq (s : State) (n : Nat) (v : Context) : (setCtx s n v).netOut = s.netOut := rfl
@[simp] theorem setCtx_loopback_eq (s : State) (n : Nat) (v : Context) : (setCtx s n v).loopback = s.loopback := rfl

@[simp] theorem setPart_ga_eq (s : State) (p : Nat) (v : Partition) : (setPart s p v).ga = s.ga := rfl
@[simp] theorem setPart_smbusDest_eq (s : State) (p : Nat) (v : Partition) : (setPart s p v).smbusDest = s.smbusDest := rfl
@[simp] theorem setPart_dirOrder_eq (s : State) (p : Nat) (v : Partition) : (setPart s p v).dirOrder = s.dirOrder := rfl
@[simp] theorem setPart_txns_eq (s : State) (p : Nat) (v : Partition) : (setPart s p v).txns = s.txns := rfl
@[simp] theorem setPart_homeQueue_eq (s : State) (p : Nat) (v : Partition) : (setPart s p v).homeQueue = s.homeQueue := rfl
@[simp] theorem setPart_reserved_eq (s : State) (p : Nat) (v : Partition) : (setPart s p v).reserved = s.reserved := rfl
@[simp] theorem setPart_reservations_eq (s : State) (p : Nat) (v : Partition) : (setPart s p v).reservations = s.reservations := rfl
@[simp] theorem setPart_copies_eq (s : State) (p : Nat) (v : Partition) : (setPart s p v).copies = s.copies := rfl
@[simp] theorem setPart_outstanding_eq (s : State) (p : Nat) (v : Partition) : (setPart s p v).outstanding = s.outstanding := rfl
@[simp] theorem setPart_cohOut_eq (s : State) (p : Nat) (v : Partition) : (setPart s p v).cohOut = s.cohOut := rfl
@[simp] theorem setPart_lost_eq (s : State) (p : Nat) (v : Partition) : (setPart s p v).lost = s.lost := rfl
@[simp] theorem setPart_exchOut_eq (s : State) (p : Nat) (v : Partition) : (setPart s p v).exchOut = s.exchOut := rfl
@[simp] theorem setPart_exchWait_eq (s : State) (p : Nat) (v : Partition) : (setPart s p v).exchWait = s.exchWait := rfl
@[simp] theorem setPart_mills_eq (s : State) (p : Nat) (v : Partition) : (setPart s p v).mills = s.mills := rfl
@[simp] theorem setPart_ports_eq (s : State) (p : Nat) (v : Partition) : (setPart s p v).ports = s.ports := rfl
@[simp] theorem setPart_outPaths_eq (s : State) (p : Nat) (v : Partition) : (setPart s p v).outPaths = s.outPaths := rfl
@[simp] theorem setPart_inPaths_eq (s : State) (p : Nat) (v : Partition) : (setPart s p v).inPaths = s.inPaths := rfl
@[simp] theorem setPart_reads_eq (s : State) (p : Nat) (v : Partition) : (setPart s p v).reads = s.reads := rfl
@[simp] theorem setPart_netOut_eq (s : State) (p : Nat) (v : Partition) : (setPart s p v).netOut = s.netOut := rfl
@[simp] theorem setPart_loopback_eq (s : State) (p : Nat) (v : Partition) : (setPart s p v).loopback = s.loopback := rfl

@[simp] theorem setPartPower_ga_eq (s : State) (p : Nat) (v : PartPower) : (setPartPower s p v).ga = s.ga := rfl
@[simp] theorem setPartPower_smbusDest_eq (s : State) (p : Nat) (v : PartPower) : (setPartPower s p v).smbusDest = s.smbusDest := rfl
@[simp] theorem setPartPower_dirOrder_eq (s : State) (p : Nat) (v : PartPower) : (setPartPower s p v).dirOrder = s.dirOrder := rfl
@[simp] theorem setPartPower_txns_eq (s : State) (p : Nat) (v : PartPower) : (setPartPower s p v).txns = s.txns := rfl
@[simp] theorem setPartPower_homeQueue_eq (s : State) (p : Nat) (v : PartPower) : (setPartPower s p v).homeQueue = s.homeQueue := rfl
@[simp] theorem setPartPower_reserved_eq (s : State) (p : Nat) (v : PartPower) : (setPartPower s p v).reserved = s.reserved := rfl
@[simp] theorem setPartPower_reservations_eq (s : State) (p : Nat) (v : PartPower) : (setPartPower s p v).reservations = s.reservations := rfl
@[simp] theorem setPartPower_copies_eq (s : State) (p : Nat) (v : PartPower) : (setPartPower s p v).copies = s.copies := rfl
@[simp] theorem setPartPower_outstanding_eq (s : State) (p : Nat) (v : PartPower) : (setPartPower s p v).outstanding = s.outstanding := rfl
@[simp] theorem setPartPower_cohOut_eq (s : State) (p : Nat) (v : PartPower) : (setPartPower s p v).cohOut = s.cohOut := rfl
@[simp] theorem setPartPower_lost_eq (s : State) (p : Nat) (v : PartPower) : (setPartPower s p v).lost = s.lost := rfl
@[simp] theorem setPartPower_exchOut_eq (s : State) (p : Nat) (v : PartPower) : (setPartPower s p v).exchOut = s.exchOut := rfl
@[simp] theorem setPartPower_exchWait_eq (s : State) (p : Nat) (v : PartPower) : (setPartPower s p v).exchWait = s.exchWait := rfl
@[simp] theorem setPartPower_mills_eq (s : State) (p : Nat) (v : PartPower) : (setPartPower s p v).mills = s.mills := rfl
@[simp] theorem setPartPower_ports_eq (s : State) (p : Nat) (v : PartPower) : (setPartPower s p v).ports = s.ports := rfl
@[simp] theorem setPartPower_outPaths_eq (s : State) (p : Nat) (v : PartPower) : (setPartPower s p v).outPaths = s.outPaths := rfl
@[simp] theorem setPartPower_inPaths_eq (s : State) (p : Nat) (v : PartPower) : (setPartPower s p v).inPaths = s.inPaths := rfl
@[simp] theorem setPartPower_reads_eq (s : State) (p : Nat) (v : PartPower) : (setPartPower s p v).reads = s.reads := rfl
@[simp] theorem setPartPower_netOut_eq (s : State) (p : Nat) (v : PartPower) : (setPartPower s p v).netOut = s.netOut := rfl
@[simp] theorem setPartPower_loopback_eq (s : State) (p : Nat) (v : PartPower) : (setPartPower s p v).loopback = s.loopback := rfl

@[simp] theorem setExch_ga_eq (s : State) (t : Nat) (v : ExchEngine) : (setExch s t v).ga = s.ga := rfl
@[simp] theorem setExch_smbusDest_eq (s : State) (t : Nat) (v : ExchEngine) : (setExch s t v).smbusDest = s.smbusDest := rfl
@[simp] theorem setExch_dirOrder_eq (s : State) (t : Nat) (v : ExchEngine) : (setExch s t v).dirOrder = s.dirOrder := rfl
@[simp] theorem setExch_txns_eq (s : State) (t : Nat) (v : ExchEngine) : (setExch s t v).txns = s.txns := rfl
@[simp] theorem setExch_homeQueue_eq (s : State) (t : Nat) (v : ExchEngine) : (setExch s t v).homeQueue = s.homeQueue := rfl
@[simp] theorem setExch_reserved_eq (s : State) (t : Nat) (v : ExchEngine) : (setExch s t v).reserved = s.reserved := rfl
@[simp] theorem setExch_reservations_eq (s : State) (t : Nat) (v : ExchEngine) : (setExch s t v).reservations = s.reservations := rfl
@[simp] theorem setExch_copies_eq (s : State) (t : Nat) (v : ExchEngine) : (setExch s t v).copies = s.copies := rfl
@[simp] theorem setExch_outstanding_eq (s : State) (t : Nat) (v : ExchEngine) : (setExch s t v).outstanding = s.outstanding := rfl
@[simp] theorem setExch_cohOut_eq (s : State) (t : Nat) (v : ExchEngine) : (setExch s t v).cohOut = s.cohOut := rfl
@[simp] theorem setExch_lost_eq (s : State) (t : Nat) (v : ExchEngine) : (setExch s t v).lost = s.lost := rfl
@[simp] theorem setExch_exchOut_eq (s : State) (t : Nat) (v : ExchEngine) : (setExch s t v).exchOut = s.exchOut := rfl
@[simp] theorem setExch_exchWait_eq (s : State) (t : Nat) (v : ExchEngine) : (setExch s t v).exchWait = s.exchWait := rfl
@[simp] theorem setExch_mills_eq (s : State) (t : Nat) (v : ExchEngine) : (setExch s t v).mills = s.mills := rfl
@[simp] theorem setExch_ports_eq (s : State) (t : Nat) (v : ExchEngine) : (setExch s t v).ports = s.ports := rfl
@[simp] theorem setExch_outPaths_eq (s : State) (t : Nat) (v : ExchEngine) : (setExch s t v).outPaths = s.outPaths := rfl
@[simp] theorem setExch_inPaths_eq (s : State) (t : Nat) (v : ExchEngine) : (setExch s t v).inPaths = s.inPaths := rfl
@[simp] theorem setExch_reads_eq (s : State) (t : Nat) (v : ExchEngine) : (setExch s t v).reads = s.reads := rfl
@[simp] theorem setExch_netOut_eq (s : State) (t : Nat) (v : ExchEngine) : (setExch s t v).netOut = s.netOut := rfl
@[simp] theorem setExch_loopback_eq (s : State) (t : Nat) (v : ExchEngine) : (setExch s t v).loopback = s.loopback := rfl

@[simp] theorem setCellarLine_ga_eq (s : State) (l : Nat) (v : Option CelLine) : (setCellarLine s l v).ga = s.ga := rfl
@[simp] theorem setCellarLine_smbusDest_eq (s : State) (l : Nat) (v : Option CelLine) : (setCellarLine s l v).smbusDest = s.smbusDest := rfl
@[simp] theorem setCellarLine_dirOrder_eq (s : State) (l : Nat) (v : Option CelLine) : (setCellarLine s l v).dirOrder = s.dirOrder := rfl
@[simp] theorem setCellarLine_txns_eq (s : State) (l : Nat) (v : Option CelLine) : (setCellarLine s l v).txns = s.txns := rfl
@[simp] theorem setCellarLine_homeQueue_eq (s : State) (l : Nat) (v : Option CelLine) : (setCellarLine s l v).homeQueue = s.homeQueue := rfl
@[simp] theorem setCellarLine_reserved_eq (s : State) (l : Nat) (v : Option CelLine) : (setCellarLine s l v).reserved = s.reserved := rfl
@[simp] theorem setCellarLine_reservations_eq (s : State) (l : Nat) (v : Option CelLine) : (setCellarLine s l v).reservations = s.reservations := rfl
@[simp] theorem setCellarLine_copies_eq (s : State) (l : Nat) (v : Option CelLine) : (setCellarLine s l v).copies = s.copies := rfl
@[simp] theorem setCellarLine_outstanding_eq (s : State) (l : Nat) (v : Option CelLine) : (setCellarLine s l v).outstanding = s.outstanding := rfl
@[simp] theorem setCellarLine_cohOut_eq (s : State) (l : Nat) (v : Option CelLine) : (setCellarLine s l v).cohOut = s.cohOut := rfl
@[simp] theorem setCellarLine_lost_eq (s : State) (l : Nat) (v : Option CelLine) : (setCellarLine s l v).lost = s.lost := rfl
@[simp] theorem setCellarLine_exchOut_eq (s : State) (l : Nat) (v : Option CelLine) : (setCellarLine s l v).exchOut = s.exchOut := rfl
@[simp] theorem setCellarLine_exchWait_eq (s : State) (l : Nat) (v : Option CelLine) : (setCellarLine s l v).exchWait = s.exchWait := rfl
@[simp] theorem setCellarLine_mills_eq (s : State) (l : Nat) (v : Option CelLine) : (setCellarLine s l v).mills = s.mills := rfl
@[simp] theorem setCellarLine_ports_eq (s : State) (l : Nat) (v : Option CelLine) : (setCellarLine s l v).ports = s.ports := rfl
@[simp] theorem setCellarLine_outPaths_eq (s : State) (l : Nat) (v : Option CelLine) : (setCellarLine s l v).outPaths = s.outPaths := rfl
@[simp] theorem setCellarLine_inPaths_eq (s : State) (l : Nat) (v : Option CelLine) : (setCellarLine s l v).inPaths = s.inPaths := rfl
@[simp] theorem setCellarLine_reads_eq (s : State) (l : Nat) (v : Option CelLine) : (setCellarLine s l v).reads = s.reads := rfl
@[simp] theorem setCellarLine_netOut_eq (s : State) (l : Nat) (v : Option CelLine) : (setCellarLine s l v).netOut = s.netOut := rfl
@[simp] theorem setCellarLine_loopback_eq (s : State) (l : Nat) (v : Option CelLine) : (setCellarLine s l v).loopback = s.loopback := rfl

@[simp] theorem setDirEntry_ga_eq (s : State) (l : Nat) (v : Option DirEntry) : (setDirEntry s l v).ga = s.ga := rfl
@[simp] theorem setDirEntry_smbusDest_eq (s : State) (l : Nat) (v : Option DirEntry) : (setDirEntry s l v).smbusDest = s.smbusDest := rfl
@[simp] theorem setDirEntry_dirOrder_eq (s : State) (l : Nat) (v : Option DirEntry) : (setDirEntry s l v).dirOrder = s.dirOrder := rfl
@[simp] theorem setDirEntry_txns_eq (s : State) (l : Nat) (v : Option DirEntry) : (setDirEntry s l v).txns = s.txns := rfl
@[simp] theorem setDirEntry_homeQueue_eq (s : State) (l : Nat) (v : Option DirEntry) : (setDirEntry s l v).homeQueue = s.homeQueue := rfl
@[simp] theorem setDirEntry_reserved_eq (s : State) (l : Nat) (v : Option DirEntry) : (setDirEntry s l v).reserved = s.reserved := rfl
@[simp] theorem setDirEntry_reservations_eq (s : State) (l : Nat) (v : Option DirEntry) : (setDirEntry s l v).reservations = s.reservations := rfl
@[simp] theorem setDirEntry_copies_eq (s : State) (l : Nat) (v : Option DirEntry) : (setDirEntry s l v).copies = s.copies := rfl
@[simp] theorem setDirEntry_outstanding_eq (s : State) (l : Nat) (v : Option DirEntry) : (setDirEntry s l v).outstanding = s.outstanding := rfl
@[simp] theorem setDirEntry_cohOut_eq (s : State) (l : Nat) (v : Option DirEntry) : (setDirEntry s l v).cohOut = s.cohOut := rfl
@[simp] theorem setDirEntry_lost_eq (s : State) (l : Nat) (v : Option DirEntry) : (setDirEntry s l v).lost = s.lost := rfl
@[simp] theorem setDirEntry_exchOut_eq (s : State) (l : Nat) (v : Option DirEntry) : (setDirEntry s l v).exchOut = s.exchOut := rfl
@[simp] theorem setDirEntry_exchWait_eq (s : State) (l : Nat) (v : Option DirEntry) : (setDirEntry s l v).exchWait = s.exchWait := rfl
@[simp] theorem setDirEntry_mills_eq (s : State) (l : Nat) (v : Option DirEntry) : (setDirEntry s l v).mills = s.mills := rfl
@[simp] theorem setDirEntry_ports_eq (s : State) (l : Nat) (v : Option DirEntry) : (setDirEntry s l v).ports = s.ports := rfl
@[simp] theorem setDirEntry_outPaths_eq (s : State) (l : Nat) (v : Option DirEntry) : (setDirEntry s l v).outPaths = s.outPaths := rfl
@[simp] theorem setDirEntry_inPaths_eq (s : State) (l : Nat) (v : Option DirEntry) : (setDirEntry s l v).inPaths = s.inPaths := rfl
@[simp] theorem setDirEntry_reads_eq (s : State) (l : Nat) (v : Option DirEntry) : (setDirEntry s l v).reads = s.reads := rfl
@[simp] theorem setDirEntry_netOut_eq (s : State) (l : Nat) (v : Option DirEntry) : (setDirEntry s l v).netOut = s.netOut := rfl
@[simp] theorem setDirEntry_loopback_eq (s : State) (l : Nat) (v : Option DirEntry) : (setDirEntry s l v).loopback = s.loopback := rfl

@[simp] theorem modRun_ga_eq (s : State) (id : Nat) (f : Run → Run) : (modRun s id f).ga = s.ga := rfl
@[simp] theorem modRun_smbusDest_eq (s : State) (id : Nat) (f : Run → Run) : (modRun s id f).smbusDest = s.smbusDest := rfl
@[simp] theorem modRun_dirOrder_eq (s : State) (id : Nat) (f : Run → Run) : (modRun s id f).dirOrder = s.dirOrder := rfl
@[simp] theorem modRun_txns_eq (s : State) (id : Nat) (f : Run → Run) : (modRun s id f).txns = s.txns := rfl
@[simp] theorem modRun_homeQueue_eq (s : State) (id : Nat) (f : Run → Run) : (modRun s id f).homeQueue = s.homeQueue := rfl
@[simp] theorem modRun_reserved_eq (s : State) (id : Nat) (f : Run → Run) : (modRun s id f).reserved = s.reserved := rfl
@[simp] theorem modRun_reservations_eq (s : State) (id : Nat) (f : Run → Run) : (modRun s id f).reservations = s.reservations := rfl
@[simp] theorem modRun_copies_eq (s : State) (id : Nat) (f : Run → Run) : (modRun s id f).copies = s.copies := rfl
@[simp] theorem modRun_outstanding_eq (s : State) (id : Nat) (f : Run → Run) : (modRun s id f).outstanding = s.outstanding := rfl
@[simp] theorem modRun_cohOut_eq (s : State) (id : Nat) (f : Run → Run) : (modRun s id f).cohOut = s.cohOut := rfl
@[simp] theorem modRun_lost_eq (s : State) (id : Nat) (f : Run → Run) : (modRun s id f).lost = s.lost := rfl
@[simp] theorem modRun_exchOut_eq (s : State) (id : Nat) (f : Run → Run) : (modRun s id f).exchOut = s.exchOut := rfl
@[simp] theorem modRun_exchWait_eq (s : State) (id : Nat) (f : Run → Run) : (modRun s id f).exchWait = s.exchWait := rfl
@[simp] theorem modRun_mills_eq (s : State) (id : Nat) (f : Run → Run) : (modRun s id f).mills = s.mills := rfl
@[simp] theorem modRun_ports_eq (s : State) (id : Nat) (f : Run → Run) : (modRun s id f).ports = s.ports := rfl
@[simp] theorem modRun_outPaths_eq (s : State) (id : Nat) (f : Run → Run) : (modRun s id f).outPaths = s.outPaths := rfl
@[simp] theorem modRun_inPaths_eq (s : State) (id : Nat) (f : Run → Run) : (modRun s id f).inPaths = s.inPaths := rfl
@[simp] theorem modRun_reads_eq (s : State) (id : Nat) (f : Run → Run) : (modRun s id f).reads = s.reads := rfl
@[simp] theorem modRun_netOut_eq (s : State) (id : Nat) (f : Run → Run) : (modRun s id f).netOut = s.netOut := rfl
@[simp] theorem modRun_loopback_eq (s : State) (id : Nat) (f : Run → Run) : (modRun s id f).loopback = s.loopback := rfl

@[simp] theorem setStreamEntry_ga_eq (s : State) (n : Nat) (v : Option MilStream) : (setStreamEntry s n v).ga = s.ga := rfl
@[simp] theorem setStreamEntry_smbusDest_eq (s : State) (n : Nat) (v : Option MilStream) : (setStreamEntry s n v).smbusDest = s.smbusDest := rfl
@[simp] theorem setStreamEntry_dirOrder_eq (s : State) (n : Nat) (v : Option MilStream) : (setStreamEntry s n v).dirOrder = s.dirOrder := rfl
@[simp] theorem setStreamEntry_txns_eq (s : State) (n : Nat) (v : Option MilStream) : (setStreamEntry s n v).txns = s.txns := rfl
@[simp] theorem setStreamEntry_homeQueue_eq (s : State) (n : Nat) (v : Option MilStream) : (setStreamEntry s n v).homeQueue = s.homeQueue := rfl
@[simp] theorem setStreamEntry_reserved_eq (s : State) (n : Nat) (v : Option MilStream) : (setStreamEntry s n v).reserved = s.reserved := rfl
@[simp] theorem setStreamEntry_reservations_eq (s : State) (n : Nat) (v : Option MilStream) : (setStreamEntry s n v).reservations = s.reservations := rfl
@[simp] theorem setStreamEntry_copies_eq (s : State) (n : Nat) (v : Option MilStream) : (setStreamEntry s n v).copies = s.copies := rfl
@[simp] theorem setStreamEntry_outstanding_eq (s : State) (n : Nat) (v : Option MilStream) : (setStreamEntry s n v).outstanding = s.outstanding := rfl
@[simp] theorem setStreamEntry_cohOut_eq (s : State) (n : Nat) (v : Option MilStream) : (setStreamEntry s n v).cohOut = s.cohOut := rfl
@[simp] theorem setStreamEntry_lost_eq (s : State) (n : Nat) (v : Option MilStream) : (setStreamEntry s n v).lost = s.lost := rfl
@[simp] theorem setStreamEntry_exchOut_eq (s : State) (n : Nat) (v : Option MilStream) : (setStreamEntry s n v).exchOut = s.exchOut := rfl
@[simp] theorem setStreamEntry_exchWait_eq (s : State) (n : Nat) (v : Option MilStream) : (setStreamEntry s n v).exchWait = s.exchWait := rfl
@[simp] theorem setStreamEntry_mills_eq (s : State) (n : Nat) (v : Option MilStream) : (setStreamEntry s n v).mills = s.mills := rfl
@[simp] theorem setStreamEntry_ports_eq (s : State) (n : Nat) (v : Option MilStream) : (setStreamEntry s n v).ports = s.ports := rfl
@[simp] theorem setStreamEntry_outPaths_eq (s : State) (n : Nat) (v : Option MilStream) : (setStreamEntry s n v).outPaths = s.outPaths := rfl
@[simp] theorem setStreamEntry_inPaths_eq (s : State) (n : Nat) (v : Option MilStream) : (setStreamEntry s n v).inPaths = s.inPaths := rfl
@[simp] theorem setStreamEntry_reads_eq (s : State) (n : Nat) (v : Option MilStream) : (setStreamEntry s n v).reads = s.reads := rfl
@[simp] theorem setStreamEntry_netOut_eq (s : State) (n : Nat) (v : Option MilStream) : (setStreamEntry s n v).netOut = s.netOut := rfl
@[simp] theorem setStreamEntry_loopback_eq (s : State) (n : Nat) (v : Option MilStream) : (setStreamEntry s n v).loopback = s.loopback := rfl

@[simp] theorem setLost_pending_eq (s : State) (l d : Nat) : (setLost s l d).pending = s.pending := rfl
@[simp] theorem setLost_free_eq (s : State) (l d : Nat) : (setLost s l d).free = s.free := rfl
@[simp] theorem setLost_phase_eq (s : State) (l d : Nat) : (setLost s l d).phase = s.phase := rfl
@[simp] theorem setLost_ga_eq (s : State) (l d : Nat) : (setLost s l d).ga = s.ga := rfl
@[simp] theorem setLost_smbusDest_eq (s : State) (l d : Nat) : (setLost s l d).smbusDest = s.smbusDest := rfl
@[simp] theorem setLost_mem_eq (s : State) (l d : Nat) : (setLost s l d).mem = s.mem := rfl
@[simp] theorem setLost_undef_eq (s : State) (l d : Nat) : (setLost s l d).undef = s.undef := rfl
@[simp] theorem setLost_poison_eq (s : State) (l d : Nat) : (setLost s l d).poison = s.poison := rfl
@[simp] theorem setLost_cellar_eq (s : State) (l d : Nat) : (setLost s l d).cellar = s.cellar := rfl
@[simp] theorem setLost_dir_eq (s : State) (l d : Nat) : (setLost s l d).dir = s.dir := rfl
@[simp] theorem setLost_dirOrder_eq (s : State) (l d : Nat) : (setLost s l d).dirOrder = s.dirOrder := rfl
@[simp] theorem setLost_txns_eq (s : State) (l d : Nat) : (setLost s l d).txns = s.txns := rfl
@[simp] theorem setLost_homeQueue_eq (s : State) (l d : Nat) : (setLost s l d).homeQueue = s.homeQueue := rfl
@[simp] theorem setLost_reserved_eq (s : State) (l d : Nat) : (setLost s l d).reserved = s.reserved := rfl
@[simp] theorem setLost_reservations_eq (s : State) (l d : Nat) : (setLost s l d).reservations = s.reservations := rfl
@[simp] theorem setLost_copies_eq (s : State) (l d : Nat) : (setLost s l d).copies = s.copies := rfl
@[simp] theorem setLost_outstanding_eq (s : State) (l d : Nat) : (setLost s l d).outstanding = s.outstanding := rfl
@[simp] theorem setLost_cohOut_eq (s : State) (l d : Nat) : (setLost s l d).cohOut = s.cohOut := rfl
@[simp] theorem setLost_queues_eq (s : State) (l d : Nat) : (setLost s l d).queues = s.queues := rfl
@[simp] theorem setLost_cmds_eq (s : State) (l d : Nat) : (setLost s l d).cmds = s.cmds := rfl
@[simp] theorem setLost_nextCmd_eq (s : State) (l d : Nat) : (setLost s l d).nextCmd = s.nextCmd := rfl
@[simp] theorem setLost_results_eq (s : State) (l d : Nat) : (setLost s l d).results = s.results := rfl
@[simp] theorem setLost_parts_eq (s : State) (l d : Nat) : (setLost s l d).parts = s.parts := rfl
@[simp] theorem setLost_ctxs_eq (s : State) (l d : Nat) : (setLost s l d).ctxs = s.ctxs := rfl
@[simp] theorem setLost_programs_eq (s : State) (l d : Nat) : (setLost s l d).programs = s.programs := rfl
@[simp] theorem setLost_runs_eq (s : State) (l d : Nat) : (setLost s l d).runs = s.runs := rfl
@[simp] theorem setLost_clusters_eq (s : State) (l d : Nat) : (setLost s l d).clusters = s.clusters := rfl
@[simp] theorem setLost_exch_eq (s : State) (l d : Nat) : (setLost s l d).exch = s.exch := rfl
@[simp] theorem setLost_exchOut_eq (s : State) (l d : Nat) : (setLost s l d).exchOut = s.exchOut := rfl
@[simp] theorem setLost_exchWait_eq (s : State) (l d : Nat) : (setLost s l d).exchWait = s.exchWait := rfl
@[simp] theorem setLost_streams_eq (s : State) (l d : Nat) : (setLost s l d).streams = s.streams := rfl
@[simp] theorem setLost_mills_eq (s : State) (l d : Nat) : (setLost s l d).mills = s.mills := rfl
@[simp] theorem setLost_ports_eq (s : State) (l d : Nat) : (setLost s l d).ports = s.ports := rfl
@[simp] theorem setLost_outPaths_eq (s : State) (l d : Nat) : (setLost s l d).outPaths = s.outPaths := rfl
@[simp] theorem setLost_inPaths_eq (s : State) (l d : Nat) : (setLost s l d).inPaths = s.inPaths := rfl
@[simp] theorem setLost_reads_eq (s : State) (l d : Nat) : (setLost s l d).reads = s.reads := rfl
@[simp] theorem setLost_netOut_eq (s : State) (l d : Nat) : (setLost s l d).netOut = s.netOut := rfl
@[simp] theorem setLost_loopback_eq (s : State) (l d : Nat) : (setLost s l d).loopback = s.loopback := rfl
@[simp] theorem setLost_power_eq (s : State) (l d : Nat) : (setLost s l d).power = s.power := rfl
@[simp] theorem setLost_beat_eq (s : State) (l d : Nat) : (setLost s l d).beat = s.beat := rfl
@[simp] theorem setLost_sec_eq (s : State) (l d : Nat) : (setLost s l d).sec = s.sec := rfl
@[simp] theorem setLost_mgmt_eq (s : State) (l d : Nat) : (setLost s l d).mgmt = s.mgmt := rfl

@[simp] theorem setReserved_pending_eq (s : State) (h : Nat) (l : List CohReq) : (setReserved s h l).pending = s.pending := rfl
@[simp] theorem setReserved_free_eq (s : State) (h : Nat) (l : List CohReq) : (setReserved s h l).free = s.free := rfl
@[simp] theorem setReserved_phase_eq (s : State) (h : Nat) (l : List CohReq) : (setReserved s h l).phase = s.phase := rfl
@[simp] theorem setReserved_ga_eq (s : State) (h : Nat) (l : List CohReq) : (setReserved s h l).ga = s.ga := rfl
@[simp] theorem setReserved_smbusDest_eq (s : State) (h : Nat) (l : List CohReq) : (setReserved s h l).smbusDest = s.smbusDest := rfl
@[simp] theorem setReserved_mem_eq (s : State) (h : Nat) (l : List CohReq) : (setReserved s h l).mem = s.mem := rfl
@[simp] theorem setReserved_undef_eq (s : State) (h : Nat) (l : List CohReq) : (setReserved s h l).undef = s.undef := rfl
@[simp] theorem setReserved_poison_eq (s : State) (h : Nat) (l : List CohReq) : (setReserved s h l).poison = s.poison := rfl
@[simp] theorem setReserved_cellar_eq (s : State) (h : Nat) (l : List CohReq) : (setReserved s h l).cellar = s.cellar := rfl
@[simp] theorem setReserved_dir_eq (s : State) (h : Nat) (l : List CohReq) : (setReserved s h l).dir = s.dir := rfl
@[simp] theorem setReserved_dirOrder_eq (s : State) (h : Nat) (l : List CohReq) : (setReserved s h l).dirOrder = s.dirOrder := rfl
@[simp] theorem setReserved_txns_eq (s : State) (h : Nat) (l : List CohReq) : (setReserved s h l).txns = s.txns := rfl
@[simp] theorem setReserved_homeQueue_eq (s : State) (h : Nat) (l : List CohReq) : (setReserved s h l).homeQueue = s.homeQueue := rfl
@[simp] theorem setReserved_reservations_eq (s : State) (h : Nat) (l : List CohReq) : (setReserved s h l).reservations = s.reservations := rfl
@[simp] theorem setReserved_copies_eq (s : State) (h : Nat) (l : List CohReq) : (setReserved s h l).copies = s.copies := rfl
@[simp] theorem setReserved_outstanding_eq (s : State) (h : Nat) (l : List CohReq) : (setReserved s h l).outstanding = s.outstanding := rfl
@[simp] theorem setReserved_cohOut_eq (s : State) (h : Nat) (l : List CohReq) : (setReserved s h l).cohOut = s.cohOut := rfl
@[simp] theorem setReserved_lost_eq (s : State) (h : Nat) (l : List CohReq) : (setReserved s h l).lost = s.lost := rfl
@[simp] theorem setReserved_queues_eq (s : State) (h : Nat) (l : List CohReq) : (setReserved s h l).queues = s.queues := rfl
@[simp] theorem setReserved_cmds_eq (s : State) (h : Nat) (l : List CohReq) : (setReserved s h l).cmds = s.cmds := rfl
@[simp] theorem setReserved_nextCmd_eq (s : State) (h : Nat) (l : List CohReq) : (setReserved s h l).nextCmd = s.nextCmd := rfl
@[simp] theorem setReserved_results_eq (s : State) (h : Nat) (l : List CohReq) : (setReserved s h l).results = s.results := rfl
@[simp] theorem setReserved_parts_eq (s : State) (h : Nat) (l : List CohReq) : (setReserved s h l).parts = s.parts := rfl
@[simp] theorem setReserved_ctxs_eq (s : State) (h : Nat) (l : List CohReq) : (setReserved s h l).ctxs = s.ctxs := rfl
@[simp] theorem setReserved_programs_eq (s : State) (h : Nat) (l : List CohReq) : (setReserved s h l).programs = s.programs := rfl
@[simp] theorem setReserved_runs_eq (s : State) (h : Nat) (l : List CohReq) : (setReserved s h l).runs = s.runs := rfl
@[simp] theorem setReserved_clusters_eq (s : State) (h : Nat) (l : List CohReq) : (setReserved s h l).clusters = s.clusters := rfl
@[simp] theorem setReserved_exch_eq (s : State) (h : Nat) (l : List CohReq) : (setReserved s h l).exch = s.exch := rfl
@[simp] theorem setReserved_exchOut_eq (s : State) (h : Nat) (l : List CohReq) : (setReserved s h l).exchOut = s.exchOut := rfl
@[simp] theorem setReserved_exchWait_eq (s : State) (h : Nat) (l : List CohReq) : (setReserved s h l).exchWait = s.exchWait := rfl
@[simp] theorem setReserved_streams_eq (s : State) (h : Nat) (l : List CohReq) : (setReserved s h l).streams = s.streams := rfl
@[simp] theorem setReserved_mills_eq (s : State) (h : Nat) (l : List CohReq) : (setReserved s h l).mills = s.mills := rfl
@[simp] theorem setReserved_ports_eq (s : State) (h : Nat) (l : List CohReq) : (setReserved s h l).ports = s.ports := rfl
@[simp] theorem setReserved_outPaths_eq (s : State) (h : Nat) (l : List CohReq) : (setReserved s h l).outPaths = s.outPaths := rfl
@[simp] theorem setReserved_inPaths_eq (s : State) (h : Nat) (l : List CohReq) : (setReserved s h l).inPaths = s.inPaths := rfl
@[simp] theorem setReserved_reads_eq (s : State) (h : Nat) (l : List CohReq) : (setReserved s h l).reads = s.reads := rfl
@[simp] theorem setReserved_netOut_eq (s : State) (h : Nat) (l : List CohReq) : (setReserved s h l).netOut = s.netOut := rfl
@[simp] theorem setReserved_loopback_eq (s : State) (h : Nat) (l : List CohReq) : (setReserved s h l).loopback = s.loopback := rfl
@[simp] theorem setReserved_power_eq (s : State) (h : Nat) (l : List CohReq) : (setReserved s h l).power = s.power := rfl
@[simp] theorem setReserved_beat_eq (s : State) (h : Nat) (l : List CohReq) : (setReserved s h l).beat = s.beat := rfl
@[simp] theorem setReserved_sec_eq (s : State) (h : Nat) (l : List CohReq) : (setReserved s h l).sec = s.sec := rfl
@[simp] theorem setReserved_mgmt_eq (s : State) (h : Nat) (l : List CohReq) : (setReserved s h l).mgmt = s.mgmt := rfl

@[simp] theorem setHomeQueue_pending_eq (s : State) (h : Nat) (l : List CohReq) : (setHomeQueue s h l).pending = s.pending := rfl
@[simp] theorem setHomeQueue_free_eq (s : State) (h : Nat) (l : List CohReq) : (setHomeQueue s h l).free = s.free := rfl
@[simp] theorem setHomeQueue_phase_eq (s : State) (h : Nat) (l : List CohReq) : (setHomeQueue s h l).phase = s.phase := rfl
@[simp] theorem setHomeQueue_ga_eq (s : State) (h : Nat) (l : List CohReq) : (setHomeQueue s h l).ga = s.ga := rfl
@[simp] theorem setHomeQueue_smbusDest_eq (s : State) (h : Nat) (l : List CohReq) : (setHomeQueue s h l).smbusDest = s.smbusDest := rfl
@[simp] theorem setHomeQueue_mem_eq (s : State) (h : Nat) (l : List CohReq) : (setHomeQueue s h l).mem = s.mem := rfl
@[simp] theorem setHomeQueue_undef_eq (s : State) (h : Nat) (l : List CohReq) : (setHomeQueue s h l).undef = s.undef := rfl
@[simp] theorem setHomeQueue_poison_eq (s : State) (h : Nat) (l : List CohReq) : (setHomeQueue s h l).poison = s.poison := rfl
@[simp] theorem setHomeQueue_cellar_eq (s : State) (h : Nat) (l : List CohReq) : (setHomeQueue s h l).cellar = s.cellar := rfl
@[simp] theorem setHomeQueue_dir_eq (s : State) (h : Nat) (l : List CohReq) : (setHomeQueue s h l).dir = s.dir := rfl
@[simp] theorem setHomeQueue_dirOrder_eq (s : State) (h : Nat) (l : List CohReq) : (setHomeQueue s h l).dirOrder = s.dirOrder := rfl
@[simp] theorem setHomeQueue_txns_eq (s : State) (h : Nat) (l : List CohReq) : (setHomeQueue s h l).txns = s.txns := rfl
@[simp] theorem setHomeQueue_reserved_eq (s : State) (h : Nat) (l : List CohReq) : (setHomeQueue s h l).reserved = s.reserved := rfl
@[simp] theorem setHomeQueue_reservations_eq (s : State) (h : Nat) (l : List CohReq) : (setHomeQueue s h l).reservations = s.reservations := rfl
@[simp] theorem setHomeQueue_copies_eq (s : State) (h : Nat) (l : List CohReq) : (setHomeQueue s h l).copies = s.copies := rfl
@[simp] theorem setHomeQueue_outstanding_eq (s : State) (h : Nat) (l : List CohReq) : (setHomeQueue s h l).outstanding = s.outstanding := rfl
@[simp] theorem setHomeQueue_cohOut_eq (s : State) (h : Nat) (l : List CohReq) : (setHomeQueue s h l).cohOut = s.cohOut := rfl
@[simp] theorem setHomeQueue_lost_eq (s : State) (h : Nat) (l : List CohReq) : (setHomeQueue s h l).lost = s.lost := rfl
@[simp] theorem setHomeQueue_queues_eq (s : State) (h : Nat) (l : List CohReq) : (setHomeQueue s h l).queues = s.queues := rfl
@[simp] theorem setHomeQueue_cmds_eq (s : State) (h : Nat) (l : List CohReq) : (setHomeQueue s h l).cmds = s.cmds := rfl
@[simp] theorem setHomeQueue_nextCmd_eq (s : State) (h : Nat) (l : List CohReq) : (setHomeQueue s h l).nextCmd = s.nextCmd := rfl
@[simp] theorem setHomeQueue_results_eq (s : State) (h : Nat) (l : List CohReq) : (setHomeQueue s h l).results = s.results := rfl
@[simp] theorem setHomeQueue_parts_eq (s : State) (h : Nat) (l : List CohReq) : (setHomeQueue s h l).parts = s.parts := rfl
@[simp] theorem setHomeQueue_ctxs_eq (s : State) (h : Nat) (l : List CohReq) : (setHomeQueue s h l).ctxs = s.ctxs := rfl
@[simp] theorem setHomeQueue_programs_eq (s : State) (h : Nat) (l : List CohReq) : (setHomeQueue s h l).programs = s.programs := rfl
@[simp] theorem setHomeQueue_runs_eq (s : State) (h : Nat) (l : List CohReq) : (setHomeQueue s h l).runs = s.runs := rfl
@[simp] theorem setHomeQueue_clusters_eq (s : State) (h : Nat) (l : List CohReq) : (setHomeQueue s h l).clusters = s.clusters := rfl
@[simp] theorem setHomeQueue_exch_eq (s : State) (h : Nat) (l : List CohReq) : (setHomeQueue s h l).exch = s.exch := rfl
@[simp] theorem setHomeQueue_exchOut_eq (s : State) (h : Nat) (l : List CohReq) : (setHomeQueue s h l).exchOut = s.exchOut := rfl
@[simp] theorem setHomeQueue_exchWait_eq (s : State) (h : Nat) (l : List CohReq) : (setHomeQueue s h l).exchWait = s.exchWait := rfl
@[simp] theorem setHomeQueue_streams_eq (s : State) (h : Nat) (l : List CohReq) : (setHomeQueue s h l).streams = s.streams := rfl
@[simp] theorem setHomeQueue_mills_eq (s : State) (h : Nat) (l : List CohReq) : (setHomeQueue s h l).mills = s.mills := rfl
@[simp] theorem setHomeQueue_ports_eq (s : State) (h : Nat) (l : List CohReq) : (setHomeQueue s h l).ports = s.ports := rfl
@[simp] theorem setHomeQueue_outPaths_eq (s : State) (h : Nat) (l : List CohReq) : (setHomeQueue s h l).outPaths = s.outPaths := rfl
@[simp] theorem setHomeQueue_inPaths_eq (s : State) (h : Nat) (l : List CohReq) : (setHomeQueue s h l).inPaths = s.inPaths := rfl
@[simp] theorem setHomeQueue_reads_eq (s : State) (h : Nat) (l : List CohReq) : (setHomeQueue s h l).reads = s.reads := rfl
@[simp] theorem setHomeQueue_netOut_eq (s : State) (h : Nat) (l : List CohReq) : (setHomeQueue s h l).netOut = s.netOut := rfl
@[simp] theorem setHomeQueue_loopback_eq (s : State) (h : Nat) (l : List CohReq) : (setHomeQueue s h l).loopback = s.loopback := rfl
@[simp] theorem setHomeQueue_power_eq (s : State) (h : Nat) (l : List CohReq) : (setHomeQueue s h l).power = s.power := rfl
@[simp] theorem setHomeQueue_beat_eq (s : State) (h : Nat) (l : List CohReq) : (setHomeQueue s h l).beat = s.beat := rfl
@[simp] theorem setHomeQueue_sec_eq (s : State) (h : Nat) (l : List CohReq) : (setHomeQueue s h l).sec = s.sec := rfl
@[simp] theorem setHomeQueue_mgmt_eq (s : State) (h : Nat) (l : List CohReq) : (setHomeQueue s h l).mgmt = s.mgmt := rfl

@[simp] theorem setMill_pending_eq (s : State) (t : Nat) (v : Mill) : (setMill s t v).pending = s.pending := rfl
@[simp] theorem setMill_free_eq (s : State) (t : Nat) (v : Mill) : (setMill s t v).free = s.free := rfl
@[simp] theorem setMill_phase_eq (s : State) (t : Nat) (v : Mill) : (setMill s t v).phase = s.phase := rfl
@[simp] theorem setMill_ga_eq (s : State) (t : Nat) (v : Mill) : (setMill s t v).ga = s.ga := rfl
@[simp] theorem setMill_smbusDest_eq (s : State) (t : Nat) (v : Mill) : (setMill s t v).smbusDest = s.smbusDest := rfl
@[simp] theorem setMill_mem_eq (s : State) (t : Nat) (v : Mill) : (setMill s t v).mem = s.mem := rfl
@[simp] theorem setMill_undef_eq (s : State) (t : Nat) (v : Mill) : (setMill s t v).undef = s.undef := rfl
@[simp] theorem setMill_poison_eq (s : State) (t : Nat) (v : Mill) : (setMill s t v).poison = s.poison := rfl
@[simp] theorem setMill_cellar_eq (s : State) (t : Nat) (v : Mill) : (setMill s t v).cellar = s.cellar := rfl
@[simp] theorem setMill_dir_eq (s : State) (t : Nat) (v : Mill) : (setMill s t v).dir = s.dir := rfl
@[simp] theorem setMill_dirOrder_eq (s : State) (t : Nat) (v : Mill) : (setMill s t v).dirOrder = s.dirOrder := rfl
@[simp] theorem setMill_txns_eq (s : State) (t : Nat) (v : Mill) : (setMill s t v).txns = s.txns := rfl
@[simp] theorem setMill_homeQueue_eq (s : State) (t : Nat) (v : Mill) : (setMill s t v).homeQueue = s.homeQueue := rfl
@[simp] theorem setMill_reserved_eq (s : State) (t : Nat) (v : Mill) : (setMill s t v).reserved = s.reserved := rfl
@[simp] theorem setMill_reservations_eq (s : State) (t : Nat) (v : Mill) : (setMill s t v).reservations = s.reservations := rfl
@[simp] theorem setMill_copies_eq (s : State) (t : Nat) (v : Mill) : (setMill s t v).copies = s.copies := rfl
@[simp] theorem setMill_outstanding_eq (s : State) (t : Nat) (v : Mill) : (setMill s t v).outstanding = s.outstanding := rfl
@[simp] theorem setMill_cohOut_eq (s : State) (t : Nat) (v : Mill) : (setMill s t v).cohOut = s.cohOut := rfl
@[simp] theorem setMill_lost_eq (s : State) (t : Nat) (v : Mill) : (setMill s t v).lost = s.lost := rfl
@[simp] theorem setMill_queues_eq (s : State) (t : Nat) (v : Mill) : (setMill s t v).queues = s.queues := rfl
@[simp] theorem setMill_cmds_eq (s : State) (t : Nat) (v : Mill) : (setMill s t v).cmds = s.cmds := rfl
@[simp] theorem setMill_nextCmd_eq (s : State) (t : Nat) (v : Mill) : (setMill s t v).nextCmd = s.nextCmd := rfl
@[simp] theorem setMill_results_eq (s : State) (t : Nat) (v : Mill) : (setMill s t v).results = s.results := rfl
@[simp] theorem setMill_parts_eq (s : State) (t : Nat) (v : Mill) : (setMill s t v).parts = s.parts := rfl
@[simp] theorem setMill_ctxs_eq (s : State) (t : Nat) (v : Mill) : (setMill s t v).ctxs = s.ctxs := rfl
@[simp] theorem setMill_programs_eq (s : State) (t : Nat) (v : Mill) : (setMill s t v).programs = s.programs := rfl
@[simp] theorem setMill_runs_eq (s : State) (t : Nat) (v : Mill) : (setMill s t v).runs = s.runs := rfl
@[simp] theorem setMill_clusters_eq (s : State) (t : Nat) (v : Mill) : (setMill s t v).clusters = s.clusters := rfl
@[simp] theorem setMill_exch_eq (s : State) (t : Nat) (v : Mill) : (setMill s t v).exch = s.exch := rfl
@[simp] theorem setMill_exchOut_eq (s : State) (t : Nat) (v : Mill) : (setMill s t v).exchOut = s.exchOut := rfl
@[simp] theorem setMill_exchWait_eq (s : State) (t : Nat) (v : Mill) : (setMill s t v).exchWait = s.exchWait := rfl
@[simp] theorem setMill_streams_eq (s : State) (t : Nat) (v : Mill) : (setMill s t v).streams = s.streams := rfl
@[simp] theorem setMill_ports_eq (s : State) (t : Nat) (v : Mill) : (setMill s t v).ports = s.ports := rfl
@[simp] theorem setMill_outPaths_eq (s : State) (t : Nat) (v : Mill) : (setMill s t v).outPaths = s.outPaths := rfl
@[simp] theorem setMill_inPaths_eq (s : State) (t : Nat) (v : Mill) : (setMill s t v).inPaths = s.inPaths := rfl
@[simp] theorem setMill_reads_eq (s : State) (t : Nat) (v : Mill) : (setMill s t v).reads = s.reads := rfl
@[simp] theorem setMill_netOut_eq (s : State) (t : Nat) (v : Mill) : (setMill s t v).netOut = s.netOut := rfl
@[simp] theorem setMill_loopback_eq (s : State) (t : Nat) (v : Mill) : (setMill s t v).loopback = s.loopback := rfl
@[simp] theorem setMill_power_eq (s : State) (t : Nat) (v : Mill) : (setMill s t v).power = s.power := rfl
@[simp] theorem setMill_beat_eq (s : State) (t : Nat) (v : Mill) : (setMill s t v).beat = s.beat := rfl
@[simp] theorem setMill_sec_eq (s : State) (t : Nat) (v : Mill) : (setMill s t v).sec = s.sec := rfl
@[simp] theorem setMill_mgmt_eq (s : State) (t : Nat) (v : Mill) : (setMill s t v).mgmt = s.mgmt := rfl

@[simp] theorem setPort_pending_eq (s : State) (n : Nat) (v : Port) : (setPort s n v).pending = s.pending := rfl
@[simp] theorem setPort_free_eq (s : State) (n : Nat) (v : Port) : (setPort s n v).free = s.free := rfl
@[simp] theorem setPort_phase_eq (s : State) (n : Nat) (v : Port) : (setPort s n v).phase = s.phase := rfl
@[simp] theorem setPort_ga_eq (s : State) (n : Nat) (v : Port) : (setPort s n v).ga = s.ga := rfl
@[simp] theorem setPort_smbusDest_eq (s : State) (n : Nat) (v : Port) : (setPort s n v).smbusDest = s.smbusDest := rfl
@[simp] theorem setPort_mem_eq (s : State) (n : Nat) (v : Port) : (setPort s n v).mem = s.mem := rfl
@[simp] theorem setPort_undef_eq (s : State) (n : Nat) (v : Port) : (setPort s n v).undef = s.undef := rfl
@[simp] theorem setPort_poison_eq (s : State) (n : Nat) (v : Port) : (setPort s n v).poison = s.poison := rfl
@[simp] theorem setPort_cellar_eq (s : State) (n : Nat) (v : Port) : (setPort s n v).cellar = s.cellar := rfl
@[simp] theorem setPort_dir_eq (s : State) (n : Nat) (v : Port) : (setPort s n v).dir = s.dir := rfl
@[simp] theorem setPort_dirOrder_eq (s : State) (n : Nat) (v : Port) : (setPort s n v).dirOrder = s.dirOrder := rfl
@[simp] theorem setPort_txns_eq (s : State) (n : Nat) (v : Port) : (setPort s n v).txns = s.txns := rfl
@[simp] theorem setPort_homeQueue_eq (s : State) (n : Nat) (v : Port) : (setPort s n v).homeQueue = s.homeQueue := rfl
@[simp] theorem setPort_reserved_eq (s : State) (n : Nat) (v : Port) : (setPort s n v).reserved = s.reserved := rfl
@[simp] theorem setPort_reservations_eq (s : State) (n : Nat) (v : Port) : (setPort s n v).reservations = s.reservations := rfl
@[simp] theorem setPort_copies_eq (s : State) (n : Nat) (v : Port) : (setPort s n v).copies = s.copies := rfl
@[simp] theorem setPort_outstanding_eq (s : State) (n : Nat) (v : Port) : (setPort s n v).outstanding = s.outstanding := rfl
@[simp] theorem setPort_cohOut_eq (s : State) (n : Nat) (v : Port) : (setPort s n v).cohOut = s.cohOut := rfl
@[simp] theorem setPort_lost_eq (s : State) (n : Nat) (v : Port) : (setPort s n v).lost = s.lost := rfl
@[simp] theorem setPort_queues_eq (s : State) (n : Nat) (v : Port) : (setPort s n v).queues = s.queues := rfl
@[simp] theorem setPort_cmds_eq (s : State) (n : Nat) (v : Port) : (setPort s n v).cmds = s.cmds := rfl
@[simp] theorem setPort_nextCmd_eq (s : State) (n : Nat) (v : Port) : (setPort s n v).nextCmd = s.nextCmd := rfl
@[simp] theorem setPort_results_eq (s : State) (n : Nat) (v : Port) : (setPort s n v).results = s.results := rfl
@[simp] theorem setPort_parts_eq (s : State) (n : Nat) (v : Port) : (setPort s n v).parts = s.parts := rfl
@[simp] theorem setPort_ctxs_eq (s : State) (n : Nat) (v : Port) : (setPort s n v).ctxs = s.ctxs := rfl
@[simp] theorem setPort_programs_eq (s : State) (n : Nat) (v : Port) : (setPort s n v).programs = s.programs := rfl
@[simp] theorem setPort_runs_eq (s : State) (n : Nat) (v : Port) : (setPort s n v).runs = s.runs := rfl
@[simp] theorem setPort_clusters_eq (s : State) (n : Nat) (v : Port) : (setPort s n v).clusters = s.clusters := rfl
@[simp] theorem setPort_exch_eq (s : State) (n : Nat) (v : Port) : (setPort s n v).exch = s.exch := rfl
@[simp] theorem setPort_exchOut_eq (s : State) (n : Nat) (v : Port) : (setPort s n v).exchOut = s.exchOut := rfl
@[simp] theorem setPort_exchWait_eq (s : State) (n : Nat) (v : Port) : (setPort s n v).exchWait = s.exchWait := rfl
@[simp] theorem setPort_streams_eq (s : State) (n : Nat) (v : Port) : (setPort s n v).streams = s.streams := rfl
@[simp] theorem setPort_mills_eq (s : State) (n : Nat) (v : Port) : (setPort s n v).mills = s.mills := rfl
@[simp] theorem setPort_outPaths_eq (s : State) (n : Nat) (v : Port) : (setPort s n v).outPaths = s.outPaths := rfl
@[simp] theorem setPort_inPaths_eq (s : State) (n : Nat) (v : Port) : (setPort s n v).inPaths = s.inPaths := rfl
@[simp] theorem setPort_reads_eq (s : State) (n : Nat) (v : Port) : (setPort s n v).reads = s.reads := rfl
@[simp] theorem setPort_netOut_eq (s : State) (n : Nat) (v : Port) : (setPort s n v).netOut = s.netOut := rfl
@[simp] theorem setPort_loopback_eq (s : State) (n : Nat) (v : Port) : (setPort s n v).loopback = s.loopback := rfl
@[simp] theorem setPort_power_eq (s : State) (n : Nat) (v : Port) : (setPort s n v).power = s.power := rfl
@[simp] theorem setPort_beat_eq (s : State) (n : Nat) (v : Port) : (setPort s n v).beat = s.beat := rfl
@[simp] theorem setPort_sec_eq (s : State) (n : Nat) (v : Port) : (setPort s n v).sec = s.sec := rfl
@[simp] theorem setPort_mgmt_eq (s : State) (n : Nat) (v : Port) : (setPort s n v).mgmt = s.mgmt := rfl

@[simp] theorem setOutPath_pending_eq (s : State) (k : Nat) (v : OutPath) : (setOutPath s k v).pending = s.pending := rfl
@[simp] theorem setOutPath_free_eq (s : State) (k : Nat) (v : OutPath) : (setOutPath s k v).free = s.free := rfl
@[simp] theorem setOutPath_phase_eq (s : State) (k : Nat) (v : OutPath) : (setOutPath s k v).phase = s.phase := rfl
@[simp] theorem setOutPath_ga_eq (s : State) (k : Nat) (v : OutPath) : (setOutPath s k v).ga = s.ga := rfl
@[simp] theorem setOutPath_smbusDest_eq (s : State) (k : Nat) (v : OutPath) : (setOutPath s k v).smbusDest = s.smbusDest := rfl
@[simp] theorem setOutPath_mem_eq (s : State) (k : Nat) (v : OutPath) : (setOutPath s k v).mem = s.mem := rfl
@[simp] theorem setOutPath_undef_eq (s : State) (k : Nat) (v : OutPath) : (setOutPath s k v).undef = s.undef := rfl
@[simp] theorem setOutPath_poison_eq (s : State) (k : Nat) (v : OutPath) : (setOutPath s k v).poison = s.poison := rfl
@[simp] theorem setOutPath_cellar_eq (s : State) (k : Nat) (v : OutPath) : (setOutPath s k v).cellar = s.cellar := rfl
@[simp] theorem setOutPath_dir_eq (s : State) (k : Nat) (v : OutPath) : (setOutPath s k v).dir = s.dir := rfl
@[simp] theorem setOutPath_dirOrder_eq (s : State) (k : Nat) (v : OutPath) : (setOutPath s k v).dirOrder = s.dirOrder := rfl
@[simp] theorem setOutPath_txns_eq (s : State) (k : Nat) (v : OutPath) : (setOutPath s k v).txns = s.txns := rfl
@[simp] theorem setOutPath_homeQueue_eq (s : State) (k : Nat) (v : OutPath) : (setOutPath s k v).homeQueue = s.homeQueue := rfl
@[simp] theorem setOutPath_reserved_eq (s : State) (k : Nat) (v : OutPath) : (setOutPath s k v).reserved = s.reserved := rfl
@[simp] theorem setOutPath_reservations_eq (s : State) (k : Nat) (v : OutPath) : (setOutPath s k v).reservations = s.reservations := rfl
@[simp] theorem setOutPath_copies_eq (s : State) (k : Nat) (v : OutPath) : (setOutPath s k v).copies = s.copies := rfl
@[simp] theorem setOutPath_outstanding_eq (s : State) (k : Nat) (v : OutPath) : (setOutPath s k v).outstanding = s.outstanding := rfl
@[simp] theorem setOutPath_cohOut_eq (s : State) (k : Nat) (v : OutPath) : (setOutPath s k v).cohOut = s.cohOut := rfl
@[simp] theorem setOutPath_lost_eq (s : State) (k : Nat) (v : OutPath) : (setOutPath s k v).lost = s.lost := rfl
@[simp] theorem setOutPath_queues_eq (s : State) (k : Nat) (v : OutPath) : (setOutPath s k v).queues = s.queues := rfl
@[simp] theorem setOutPath_cmds_eq (s : State) (k : Nat) (v : OutPath) : (setOutPath s k v).cmds = s.cmds := rfl
@[simp] theorem setOutPath_nextCmd_eq (s : State) (k : Nat) (v : OutPath) : (setOutPath s k v).nextCmd = s.nextCmd := rfl
@[simp] theorem setOutPath_results_eq (s : State) (k : Nat) (v : OutPath) : (setOutPath s k v).results = s.results := rfl
@[simp] theorem setOutPath_parts_eq (s : State) (k : Nat) (v : OutPath) : (setOutPath s k v).parts = s.parts := rfl
@[simp] theorem setOutPath_ctxs_eq (s : State) (k : Nat) (v : OutPath) : (setOutPath s k v).ctxs = s.ctxs := rfl
@[simp] theorem setOutPath_programs_eq (s : State) (k : Nat) (v : OutPath) : (setOutPath s k v).programs = s.programs := rfl
@[simp] theorem setOutPath_runs_eq (s : State) (k : Nat) (v : OutPath) : (setOutPath s k v).runs = s.runs := rfl
@[simp] theorem setOutPath_clusters_eq (s : State) (k : Nat) (v : OutPath) : (setOutPath s k v).clusters = s.clusters := rfl
@[simp] theorem setOutPath_exch_eq (s : State) (k : Nat) (v : OutPath) : (setOutPath s k v).exch = s.exch := rfl
@[simp] theorem setOutPath_exchOut_eq (s : State) (k : Nat) (v : OutPath) : (setOutPath s k v).exchOut = s.exchOut := rfl
@[simp] theorem setOutPath_exchWait_eq (s : State) (k : Nat) (v : OutPath) : (setOutPath s k v).exchWait = s.exchWait := rfl
@[simp] theorem setOutPath_streams_eq (s : State) (k : Nat) (v : OutPath) : (setOutPath s k v).streams = s.streams := rfl
@[simp] theorem setOutPath_mills_eq (s : State) (k : Nat) (v : OutPath) : (setOutPath s k v).mills = s.mills := rfl
@[simp] theorem setOutPath_ports_eq (s : State) (k : Nat) (v : OutPath) : (setOutPath s k v).ports = s.ports := rfl
@[simp] theorem setOutPath_inPaths_eq (s : State) (k : Nat) (v : OutPath) : (setOutPath s k v).inPaths = s.inPaths := rfl
@[simp] theorem setOutPath_reads_eq (s : State) (k : Nat) (v : OutPath) : (setOutPath s k v).reads = s.reads := rfl
@[simp] theorem setOutPath_netOut_eq (s : State) (k : Nat) (v : OutPath) : (setOutPath s k v).netOut = s.netOut := rfl
@[simp] theorem setOutPath_loopback_eq (s : State) (k : Nat) (v : OutPath) : (setOutPath s k v).loopback = s.loopback := rfl
@[simp] theorem setOutPath_power_eq (s : State) (k : Nat) (v : OutPath) : (setOutPath s k v).power = s.power := rfl
@[simp] theorem setOutPath_beat_eq (s : State) (k : Nat) (v : OutPath) : (setOutPath s k v).beat = s.beat := rfl
@[simp] theorem setOutPath_sec_eq (s : State) (k : Nat) (v : OutPath) : (setOutPath s k v).sec = s.sec := rfl
@[simp] theorem setOutPath_mgmt_eq (s : State) (k : Nat) (v : OutPath) : (setOutPath s k v).mgmt = s.mgmt := rfl

/-- A home's queue put in place is read back. -/
@[simp] theorem homeQueueOf_setHomeQueue (s : State) (h : Nat) (l : List CohReq) : homeQueueOf (setHomeQueue s h l) h = l :=
  mapGet_set_same _ _ _ _
/-- A home's reserved slots put in place are read back. -/
@[simp] theorem reservedOf_setReserved (s : State) (h : Nat) (l : List CohReq) : reservedOf (setReserved s h l) h = l :=
  mapGet_set_same _ _ _ _
/-- An outbound path put in place is read back. -/
@[simp] theorem outPath_setOutPath (s : State) (k : Nat) (v : OutPath) : outPath (setOutPath s k v) k = v := mapGet_set_same _ _ _ _
/-- A port put in place is read back. -/
@[simp] theorem port_setPort (s : State) (n : Nat) (v : Port) : port (setPort s n v) n = v := mapGet_set_same _ _ _ _

end Sys2Proof.Machine
end

