-- ==== Sys2Proof/Tests/Slice0.lean ====
section
/-!
SUPPORT. Tests: for each statement states and operands that meet the hypotheses of its clauses together, an ill-formed command for each
check of WellFormed, and small tests of commands, their expected values from the spec.
-/
namespace Sys2Proof.Tests
open Sys2Proof.Machine

set_option Elab.async false

/-! ### Small states -/

/-- A partition's descriptor: GiB 1, clusters 0 and 1, tally slot 0, a program area, four contexts. -/
def pd : PartDesc := ⟨[(1, 1)], 3, 1, 2 ^ 30, 65536, 0, 16, 0xFFFF, 3, [], 0⟩

/-- A running module with queue 0, queue 5 of partition 1, and context 7 of it. -/
def base : State := { State.reset with
  phase := .running
  queues := [(0, { Queue.free with valid := true, system := true }),
    (5, { Queue.free with valid := true, partition := 1, ringLog2 := 2, ringBase := 2 ^ 30, retain := 10 })]
  parts := [(1, ⟨.active, pd, 0, []⟩)]
  ctxs := [(7, { Context.closed with valid := true, partition := 1, saveBase := 2 ^ 30, saveRanks := 1 })] }

/-- A packet of queue 0 and one of queue 5, with ticket 9. -/
def h0 : Hdr := ⟨0, 9#32, false, false⟩
/-- A packet of queue 5 with ticket 9. -/
def h5 : Hdr := ⟨5, 9#32, false, false⟩

/-- The conditions of `Ready` as one test. -/
def readyB (s : State) (h : Hdr) (i : Instr) (sc : Scope) : Bool :=
  s.phase == .running && s.failedJoin == none && (queue s h.queue.val).valid && scopeTakes sc h.queue.val &&
  destReserved s h.queue.val i == none &&
  (h.ticket.toNat == 0 || (!ticketUsed s h.queue.val h.ticket.toNat && decide (s.results.length < 65536))) &&
  s.cmds.all (fun d => d.queue != h.queue.val || (d.wait != .notStarted && !(h.ordered || isFence i))) &&
  !heldBack { s with cmds := s.cmds ++ [newCmd s h i], nextCmd := s.nextCmd + 1 } (newCmd s h i) &&
  s.cmds.all (fun d => decide (d.id < s.nextCmd))

theorem ready_of {s : State} {h : Hdr} {i : Instr} {sc : Scope} (e : readyB s h i sc = true) : Ready s h i sc := by
  simp only [readyB, Bool.and_eq_true, beq_iff_eq, Bool.or_eq_true, Bool.not_eq_true', decide_eq_true_eq, List.all_eq_true,
    bne_iff_ne] at e
  obtain ⟨⟨⟨⟨⟨⟨⟨⟨e1, e2⟩, e3⟩, e4⟩, e9⟩, e5⟩, e6⟩, e7⟩, e8⟩ := e
  refine ⟨e1, e2, e3, e4, e9, fun n => (e5.resolve_left n).1, fun n => (e5.resolve_left n).2, ?_, e7, e8⟩
  intro d hd hq
  exact (e6 d hd).resolve_left (fun n => n hq)

/-! ### Steps and commands -/

theorem test_hyp_IdleStep : base.pending = [] ∧ State.reset.phase ≠ .running ∧ base.cmds = [] ∧ base.runs = [] ∧ base.loopback = [] ∧
    ∀ t, t < 4 → (millOf base t).decoding = [] := by decide +kernel

/-- No context of `base` is ending. -/
theorem test_hyp_IdleStep_contexts (x : Nat) : (ctxOf base x).ending = false := by
  by_cases h : 7 = x <;> simp [ctxOf, base, mapGet, h, Context.closed]

/-- A 64-byte packet of zeros. -/
def zeros64 : List Byte := List.replicate 64 0

/-- A NOP packet of queue 5 with sequence number 0. -/
def nopPacket : List Byte :=
  let b : List Byte := [0, 1, 0, 5, 0, 0, 0, 0, 9, 0, 0, 0, 0, 0, 0, 0] ++ List.replicate 48 0
  b.take 12 ++ leBytes 4 (crc32c b) ++ b.drop 16

/-- `base` with ticket 9 of queue 5 in use. -/
def ticketKept : State := { base with results := [⟨5, 9, ⟨9, .ok, 0, 0, 0, 0, false, false, true, 5, 0⟩, 0⟩] }

theorem test_hyp_PacketRefused : zeros64.length = 64 ∧ firstError (headerChecks 5 0 zeros64) = some (.badCrc, 0x2C01) := by
  decide +kernel

theorem test_hyp_PacketRefused_teller : firstError (headerChecks 5 0 nopPacket) = none ∧
    firstError (tellerChecks ticketKept 5 nopPacket) = some (.badParam, 0x2C07) := by decide +kernel

theorem test_hyp_PacketRefused_passes : nopPacket.length = 64 ∧ firstError (headerChecks 5 0 nopPacket) = none ∧
    firstError (tellerChecks base 5 nopPacket) = none := by decide +kernel

theorem test_hyp_PacketRefused_parse : parse h5 (fieldLe nopPacket 0 1) (nopPacket.drop 16) = { instr := .nop h5 } := rfl

/-- A record whose fields are at their greatest. -/
def topRecord : Record := ⟨2 ^ 32 - 1, .ok, 2 ^ 16 - 1, 2 ^ 64 - 1, 2 ^ 12 - 1, 3, true, true, true, 255, 2 ^ 64 - 1⟩

theorem test_hyp_Records : topRecord.ticket < 2 ^ 32 ∧ topRecord.detail < 2 ^ 16 ∧ topRecord.stamp < 2 ^ 64 ∧ topRecord.path < 2 ^ 12 ∧
    topRecord.pathKind < 4 ∧ topRecord.queue < 2 ^ 8 ∧ topRecord.value < 2 ^ 64 := by decide +kernel

/-- `base` with the controller of queue 5 bound, `n` records posted and none read. -/
def bound (n : Nat) : State :=
  setQueue base 5 { queue base 5 with attached := true, posted := n, heldRecords := if n < 4 then [topRecord] else [] }

theorem test_hyp_Records_held : (posting (queue (bound 4) 5) = true ∧ ringFull (queue (bound 4) 5) = true) ∧
    (posting (queue (bound 0) 5) = true ∧ (queue (bound 0) 5).heldRecords ≠ []) := by decide +kernel

/-- A command in flight of queue 5 with ticket 8, waiting as given. -/
def waiting (i : Instr) (w : Wait) : Cmd := ⟨3, i, 5, 8, false, true, w, none⟩

/-- `base` with one command in flight. -/
def busy (i : Instr) (w : Wait) : State := { base with cmds := [waiting i w], nextCmd := 4 }

theorem test_hyp_Records_complete : findCmd (busy (.nop h5) (.queueIdle 0)) 3 = some (waiting (.nop h5) (.queueIdle 0)) := by
  decide +kernel

/-- An ATTACH's parameters: partition 1's queue 5 as it stands, or a new queue. -/
def attachTo (queue : Fin 256) (alloc : Bool) (epoch : BitVec 32) : AttachParams :=
  ⟨queue, alloc, 0, 1, 2, epoch, BitVec.ofNat 44 (2 ^ 30), 0x40000020#64, 0, 0, 0, 0⟩

theorem test_hyp_AttachDetach_new : Ready base h0 (.attach h0 (attachTo 0 true 1)) .any ∧ attachBad (attachTo 0 true 1) = none ∧
    h0.queue.val = 0 ∧ partActive base 1 = true ∧ inPartition base 1 (2 ^ 30) (64 * 2 ^ 2) = true ∧ (queue base 1).valid = false ∧
    ∀ r < 1, (queue base r).valid = true :=
  ⟨ready_of (by decide +kernel), by decide +kernel⟩

theorem test_hyp_AttachDetach_old : Ready base h5 (.attach h5 (attachTo 5 false 0)) .any ∧
    Ready base h5 (.attach h5 (attachTo 5 false 1)) .any ∧ attachBad (attachTo 5 false 0) = none ∧ attachBad (attachTo 5 false 1) = none ∧
    (queue base 5).partition = (queue base h5.queue.val).partition ∧
    (queue base 5).valid = true ∧ (queue base 5).ringBase = (attachTo 5 false 0).ringBase.toNat ∧ (queue base 5).ringLog2 = 2 ∧
    (queue base 5).ctrlKind = 0 ∧ (queue base 5).epoch = (0#32).toNat ∧ (queue base 5).epoch ≠ (1#32).toNat :=
  ⟨ready_of (by decide +kernel), ready_of (by decide +kernel), by decide +kernel⟩

theorem test_hyp_AttachDetach_detach : mayDetach base h0 5 ∧ mayDetach base h5 5 ∧ Ready base h5 (.detach h5 5) .any ∧
    Ready base h5 (.detachFree h5 5) .any ∧ (∀ d ∈ base.cmds, d.queue ≠ 5) ∧
    Ready (busy (.nop h5) (.queueIdle 0)) h5 (.detachFree h5 5) .any ∧ (∃ d ∈ (busy (.nop h5) (.queueIdle 0)).cmds, d.queue = 5) :=
  ⟨by unfold mayDetach; decide +kernel, by unfold mayDetach; decide +kernel, ready_of (by decide +kernel),
    ready_of (by decide +kernel), by decide +kernel, ready_of (by decide +kernel), by decide +kernel⟩

/-- A SETTLE of the path 3 of package 2 with the given STAMP. -/
def settleAt (stamp : BitVec 64) : Instr := .settle h5 1 2 3 stamp 10

theorem test_hyp_SettleCompletes (n : BitVec 64) (hn : n = 0 ∨ n = 1) : Ready base h5 (settleAt n) .any ∧
    settledCmds (admitted base h5 (settleAt n)) = [] ∧
    (n = 0 → n.toNat ≤ settleCount (admitted base h5 (settleAt n)) 1 2 3) ∧
    (n = 1 → settleCount (admitted base h5 (settleAt n)) 1 2 3 < n.toNat) := by
  rcases hn with rfl | rfl <;> exact ⟨ready_of (by decide +kernel), by decide +kernel⟩

theorem test_hyp_SettleCompletes_limit :
    let s := { busy (settleAt 1) (.settle 1 2 3 1 10 0) with beat := { base.beat with waits := 10 } }
    findCmd s 3 = some (waiting (settleAt 1) (.settle 1 2 3 1 10 0)) ∧ 0 + 10 ≤ s.beat.waits := by decide +kernel

/-- `base` with a result of queue 5 kept under ticket 8, `n` beats after it. -/
def kept (n : Nat) : State :=
  { base with results := [⟨5, 8, topRecord, 0⟩], beat := { base.beat with waits := n } }

/-- `base` with the line at GiB 1 owned by core 7, which has failed. -/
def ownerLost : State := setReg { base with dir := [(2 ^ 23, some ⟨true, [7], 0⟩)] } .dirAgentStatus 0 0 0x80#64

theorem test_hyp_ResultCommands_read : Ready base h5 (.readResult h5 0 8 0x40000000) .any ∧ ¬ mayName base h5 0 ∧ mayName base h5 5 ∧
    mayName base h0 0 ∧ Ready base h5 (.readResult h5 5 8 0x40000000) .any ∧
    (∀ c ∈ (admitted base h5 (.readResult h5 5 8 0x40000000)).cmds, ¬(c.queue = 5 ∧ c.ticket = 8)) ∧
    (∀ r ∈ base.results, ¬(r.queue = 5 ∧ r.ticket = 8)) ∧
    Ready (kept 0) h5 (.readResult h5 5 8 0x40000000) .any ∧
    (kept 0).results.find? (fun r => r.queue == 5 && r.ticket == 8) = some ⟨5, 8, topRecord, 0⟩ ∧
    Ready (busy (.nop h5) (.queueIdle 0)) h5 (.readResult h5 5 8 0x40000000) .any ∧
    (∃ c ∈ (admitted (busy (.nop h5) (.queueIdle 0)) h5 (.readResult h5 5 8 0x40000000)).cmds, c.queue = 5 ∧ c.ticket = 8) ∧
    destOf base 5 0x40000000 = .local_ 0x40000000 ∧ accessError base (queueWho base 5) 1 0x40000000 32 = none ∧
    (putRange base 0xFFFF 0x40000000 (List.replicate 32 0)).1 = none ∧
    (putRange ownerLost 0xFFFF 0x40000000 (List.replicate 32 0)).1 = some 0x2820 :=
  ⟨ready_of (by decide +kernel), by unfold mayName; decide +kernel, by unfold mayName; decide +kernel,
    by unfold mayName; decide +kernel, ready_of (by decide +kernel), by decide +kernel, by decide +kernel, ready_of (by decide +kernel),
    by decide +kernel, ready_of (by decide +kernel), by decide +kernel, by decide +kernel, by decide +kernel⟩

theorem test_hyp_ResultCommands_release : Ready base h5 (.releaseResult h5 5 8) .any ∧ Ready (kept 0) h5 (.releaseResult h5 5 8) .any ∧
    (∃ r ∈ (kept 0).results, r.queue = 5 ∧ r.ticket = 8) ∧
    Ready (busy (.nop h5) (.queueIdle 0)) h5 (.releaseResult h5 5 8) .any ∧
    (queue (kept 10) 5).retain ≠ 0 ∧ 0 + (queue (kept 10) 5).retain ≤ (kept 10).beat.waits :=
  ⟨ready_of (by decide +kernel), ready_of (by decide +kernel), by decide +kernel, ready_of (by decide +kernel), by decide +kernel⟩

theorem test_hyp_ResultCommands_released : Ready base h5 (.releaseResult h5 0 8) .any ∧ ¬ mayName base h5 0 ∧
    Ready base h5 (.releaseResult h5 5 0) .any ∧ Ready base h5 (.readResult h5 5 0 0x40000000) .any ∧ mayName base h5 5 :=
  ⟨ready_of (by decide +kernel), by unfold mayName; decide +kernel, ready_of (by decide +kernel), ready_of (by decide +kernel),
    by unfold mayName; decide +kernel⟩

theorem test_hyp_PlainCommands : Ready base h5 (.nop h5) .any ∧ Ready base h5 (.fence h5) .any ∧
    Ready base h5 (.queryCaps h5 0x40000000) .any ∧ Ready base h5 (.setEventRoute h5 1 0 0 1 5 true) .any ∧
    assignedSource 1 = true ∧ (queue base 5).valid = true ∧ sourceOf base (queue base h5.queue.val).partition 1 = true ∧
    Ready base h0 (.setEventRoute h0 49 15 63 0 127 true) .any ∧ assignedSource 49 = true :=
  ⟨ready_of (by decide +kernel), ready_of (by decide +kernel), ready_of (by decide +kernel), ready_of (by decide +kernel),
    by decide +kernel, by decide +kernel, by decide +kernel, ready_of (by decide +kernel), by decide +kernel⟩

theorem test_hyp_DoorbellRows : base.phase = .running ∧ (queue base 5).valid = true ∧
    ((4#17).toNat + 2 ^ 17 - (queue base 5).head) % 2 ^ 17 ≤ 2 ^ (queue base 5).ringLog2 ∧
    2 ^ (queue base 5).ringLog2 < ((5#17).toNat + 2 ^ 17 - (queue base 5).head) % 2 ^ 17 ∧ (queue base 6).valid = false := by
  decide +kernel

/-- `base` with queue pair 1023 bound to queue 5. -/
def paired : State := { base with qps := [(1023, { QueuePair.reset with queue := some 5 })] }

/-- The head of a RoCE packet with the given P_Key and path MTU. -/
def rhead (pkey : BitVec 16) (mtu : Nat) : RoceHead := ⟨true, pkey, true, mtu⟩

theorem test_hyp_DoorbellRows_pair : takesRoce paired (rhead 0xFFFF 4096) = true ∧ takesRoce paired (rhead 0xFFFE 4096) = false ∧
    takesRoce paired (rhead 0xFFFF 512) = false ∧ (qpair paired 1023).queue = some 5 ∧
    ((queue paired 5).tail + 2 ^ 17 - (queue paired 5).head) % 2 ^ 17 + 4 ≤ 2 ^ (queue paired 5).ringLog2 := by decide +kernel


/-! ### Partitions, contexts and the flash -/

/-- A state with bytes placed in memory. -/
def withMem (s : State) (a : Nat) (b : List Byte) : State := setBytes s a b

/-- A read that gives no poison, and bytes and a state that pass a test. -/
def fetchTest (s : State) (ways a n : Nat) (p : List Byte → State → Bool) : Bool :=
  match readBytes s ways a n with
  | (b, none, u) => p b u
  | _ => false

theorem fetch_of {s : State} {ways a n : Nat} {p : List Byte → State → Bool} (h : fetchTest s ways a n p = true) :
    ∃ b u, readBytes s ways a n = (b, none, u) ∧ p b u = true := by
  unfold fetchTest at h
  split at h
  · exact ⟨_, _, by assumption, h⟩
  · cases h

/-- A read for a queue that it may make, and that passes a test. -/
def readTest (s : State) (q a n : Nat) (p : List Byte → State → Bool) : Bool :=
  (accessError s (queueWho s q) (q % 4) a n).isNone && fetchTest s (waysOf s (queueWho s q)) a n p

theorem reads_of {s : State} {q a n : Nat} {p : List Byte → State → Bool} (h : readTest s q a n p = true) :
    ∃ b u, readsAs s q a n b u ∧ p b u = true := by
  simp only [readTest, Bool.and_eq_true, Option.isNone_iff_eq_none] at h
  obtain ⟨b, u, e, f⟩ := fetch_of h.2
  exact ⟨b, u, ⟨h.1, e⟩, f⟩

/-- A partition descriptor: GiB 2, cluster 2, tally slot 1, a program area of 4 KiB there, all ways. -/
def descBytes : List Byte :=
  leBytes 2 2 ++ leBytes 2 1 ++ List.replicate 60 0 ++ leBytes 8 4 ++ leBytes 8 2 ++ leBytes 8 (2 * 2 ^ 30) ++ leBytes 8 4096
    ++ leBytes 4 0 ++ leBytes 4 0 ++ leBytes 2 0xFFFF ++ List.replicate 86 0

/-- `base` whose security block holds a CONFIRM key in slot 0 and one open proposal, a window change refused three times. -/
def keyed : State := { base with sec := { base.sec with
  keyCopies := List.replicate 2 ⟨true, 1, some [1] :: List.replicate 7 none⟩
  proposals := some ⟨1, 2, [5], 3, 0⟩ :: List.replicate 15 none, nextProposal := 2 } }

/-- `keyed` with a partition descriptor at GiB 1. -/
def described : State := withMem keyed (2 ^ 30) descBytes

theorem test_hyp_PartitionCommands_create :
    let i := Instr.partCreate h0 0 true (BitVec.ofNat 44 (2 ^ 30))
    (Ready described h0 i .system ∧ (part described 0).state = .free ∧ (∀ m < 0, (part described m).state ≠ .free)) ∧
    ∃ b u, readsAs (admitted described h0 i) 0 (2 ^ 30) 192 b u ∧
      (descError u b == none && proposalError u 0 (b ++ [BitVec.ofNat 8 0]) == none) = true :=
  ⟨⟨ready_of (by decide +kernel), by decide +kernel⟩, reads_of (by decide +kernel)⟩

theorem test_hyp_PartitionCommands_named :
    Ready described h0 (.partCreate h0 15 false (BitVec.ofNat 44 (2 ^ 30))) .system ∧ (part described 15).state = .free ∧
    Ready described h0 (.partDestroy h0 1) .system ∧ (part described 1).state ≠ .free ∧ (part described 1).state ≠ .destroying ∧
    proposalError (admitted described h0 (.partDestroy h0 1)) 1 [BitVec.ofNat 8 1] = none ∧
    Ready described h0 (.partSlice h0 1 0) .system ∧ partActive described 1 = true :=
  ⟨ready_of (by decide +kernel), by decide +kernel, ready_of (by decide +kernel), by decide +kernel, by decide +kernel,
    by decide +kernel, ready_of (by decide +kernel), by decide +kernel⟩

theorem test_hyp_ContextCommands : Ready base h5 (.contextOpen h5 (BitVec.ofNat 44 (2 ^ 30)) 0 60) .partition ∧
    (ctxOf base 0).valid = false ∧ (∀ y < 0, (ctxOf base y).valid = true) ∧
    (contextsOf base 1).length ≤ (part base 1).desc.maxContexts ∧ inPartition base 1 (2 ^ 30) (60 * 0x1100000) = true ∧
    Ready base h5 (.contextClose h5 7) .partition ∧ mayUse base h5 7 ∧ Ready base h5 (.setSeed h5 7 1) .partition :=
  ⟨ready_of (by decide +kernel), by decide +kernel, by decide +kernel, by decide +kernel, by decide +kernel, ready_of (by decide +kernel),
    by unfold mayUse; decide +kernel, ready_of (by decide +kernel)⟩

theorem test_hyp_ContextCommands_seeds : (ctxOf base 7).seedCmd ≤ base.nextCmd ∧
    let s := setCtx base 7 { ctxOf base 7 with seedCmd := 4 }
    ctxError s (waiting (.setSeed h5 7 1) .notStarted).queue 7 = none ∧ (waiting (.setSeed h5 7 1) .notStarted).id < (ctxOf s 7).seedCmd := by
  decide +kernel

/-- A module whose context 7 is ending, with a CONTEXT_CLOSE that waits for it. -/
def ending : State := setCtx (busy (.contextClose h5 7) (.contextStop 7)) 7 { ctxOf base 7 with ending := true }

theorem test_hyp_ContextCommands_end : (ctxOf ending 7).valid = true ∧ (ctxOf ending 7).ending = true ∧ contextQuiet ending 7 = true ∧
    findCmd ending 3 = some (waiting (.contextClose h5 7) (.contextStop 7)) ∧
    ∀ d ∈ ending.cmds, d.wait = .contextStop 7 → d = waiting (.contextClose h5 7) (.contextStop 7) := by decide +kernel

/-- A window record and a key-slot record that hold no reserved value. -/
def windowRec : List Byte := leBytes 8 3 ++ leBytes 8 0 ++ leBytes 8 32 ++ List.replicate 40 0
/-- A key-slot record that empties slot 7. -/
def slotRec : List Byte := 7 :: List.replicate 2015 0

/-- `keyed` with a change record at GiB 1. -/
def changed (r : List Byte) : State := withMem keyed (2 ^ 30) (r.take 64)

theorem test_hyp_TwoKeyCommands_window :
    let i := Instr.twoKeyPropose h0 1 (BitVec.ofNat 44 (2 ^ 30)) 64
    Ready (changed windowRec) h0 i .system ∧ rangeIsMemory (admitted (changed windowRec) h0 i) (2 ^ 30) 64 = true ∧
    ∃ r u, readsAs (admitted (changed windowRec) h0 i) 0 (2 ^ 30) 64 r u ∧
      (!windowReserved r && proposalError u 2 r == none) = true :=
  ⟨ready_of (by decide +kernel), by decide +kernel, reads_of (by decide +kernel)⟩

theorem test_hyp_TwoKeyCommands_slot :
    let i := Instr.twoKeyPropose h0 2 (BitVec.ofNat 44 (2 ^ 30)) 2016
    Ready (changed slotRec) h0 i .system ∧ rangeIsMemory (admitted (changed slotRec) h0 i) (2 ^ 30) 2016 = true ∧
    ∃ r u, readsAs (admitted (changed slotRec) h0 i) 0 (2 ^ 30) 2016 r u ∧
      (!slotReserved r && proposalError u 3 r == none) = true :=
  ⟨ready_of (by decide +kernel), by decide +kernel, reads_of (by decide +kernel)⟩

theorem test_hyp_TwoKeyCommands_confirm :
    let i := Instr.twoKeyConfirm h0 1 (BitVec.ofNat 44 (2 ^ 30))
    Ready keyed h0 i .system ∧ findProposal (admitted keyed h0 i) 1 = some ⟨1, 2, [5], 3, 0⟩ ∧
    rangeIsMemory (admitted keyed h0 i) (2 ^ 30) 3328 = true ∧
    ∃ r u, readsAs (admitted keyed h0 i) 0 (2 ^ 30) 3328 r u ∧
      (decide (fieldLe r 0 1 < 8) && zeroBytes r 1 15 && zeroBytes r 3325 3 &&
        confirmKey u ⟨1, 2, [5], 3, 0⟩ (fieldLe r 0 1) == some [1] && targetOf 2 [5] != .slot (fieldLe r 0 1)) = true :=
  ⟨ready_of (by decide +kernel), by decide +kernel, by decide +kernel, reads_of (by decide +kernel)⟩

theorem test_hyp_TwoKeyCommands_lapse : findProposal keyed 1 = some ⟨1, 2, [5], 3, 0⟩ ∧
    let s := { keyed with beat := { keyed.beat with waits := 2 ^ 32 } }
    findProposal s 1 = some ⟨1, 2, [5], 3, 0⟩ ∧ 0 + getBits (getReg s .secTwoKeyWindow 4 0) 0 32 ≤ s.beat.waits := by decide +kernel

/-- `keyed` with bank 1 staged. -/
def stagedState : State := { keyed with sec := { keyed.sec with staged := some 1 } }

theorem test_hyp_FirmwareCommands :
    let i := Instr.fwStage h0 (BitVec.ofNat 44 (2 ^ 30)) 64
    let a := admitted keyed h0 i
    Ready keyed h0 i .system ∧ rangeIsMemory a (2 ^ 30) 64 = true ∧ (∀ p ∈ openProposals a, p.kind ≠ 4) ∧
    accessError a none 0 (2 ^ 30) 64 = none ∧ ∃ b u, readBytes a allWays (2 ^ 30) 64 = (b, none, u) ∧ (fun _ _ => true) b u = true :=
  ⟨ready_of (by decide +kernel), by decide +kernel, by decide +kernel, by decide +kernel, fetch_of (by decide +kernel)⟩

theorem test_hyp_FirmwareCommands_commit : Ready stagedState h0 (.fwCommit h0) .system ∧ stagedState.sec.staged = some 1 ∧
    proposalError (admitted stagedState h0 (.fwCommit h0)) 4
      ((fwBank (admitted stagedState h0 (.fwCommit h0)) 1).digest ++
        leBytes 4 (fwBank (admitted stagedState h0 (.fwCommit h0)) 1).version) = none :=
  ⟨ready_of (by decide +kernel), by decide +kernel⟩

theorem test_hyp_FirmwareCommands_attest :
    let i := Instr.attest h5 (BitVec.ofNat 44 (2 ^ 30)) (BitVec.ofNat 64 (2 ^ 30))
    Ready base h5 i .any ∧ attestDestBad (admitted base h5 i) (newCmd base h5 i) (2 ^ 30) = false ∧
    ∃ b u, readsAs (admitted base h5 i) 5 (2 ^ 30) 32 b u ∧ (fun _ _ => true) b u = true :=
  ⟨ready_of (by decide +kernel), by decide +kernel, reads_of (by decide +kernel)⟩

/-! ### Data, programs and audits -/

/-- An address of GiB 1 as an operand. -/
def g1 (o : Nat) : BitVec 44 := BitVec.ofNat 44 (2 ^ 30 + o)

/-- `base` with its first sector of GiB 1 poisoned. -/
def tainted : State := { base with poison := [(2 ^ 30 / 32, true)] }

theorem test_hyp_DataMoves_copy :
    let r := fun (s : State) => readRange (admitted s h5 (.copy h5 (g1 0) (g1 32) 32)) 0xFFFF (2 ^ 30) 32
    Ready base h5 (.copy h5 (g1 0) (g1 32) 32) .any ∧ Ready tainted h5 (.copy h5 (g1 0) (g1 32) 32) .any ∧
    mayAccess (admitted base h5 (.copy h5 (g1 0) (g1 32) 32)) 5 (2 ^ 30) 32 ∧
    mayAccess (admitted base h5 (.copy h5 (g1 0) (g1 32) 32)) 5 (2 ^ 30 + 32) 32 ∧ firstPoison (r base).1 = none ∧
    firstPoison (r tainted).1 = some (2 ^ 30) ∧ Ready base h5 (.fill h5 (g1 0) 32 1) .any :=
  ⟨ready_of (by decide +kernel), ready_of (by decide +kernel), by unfold mayAccess; decide +kernel, by unfold mayAccess; decide +kernel,
    by decide +kernel, by decide +kernel, ready_of (by decide +kernel)⟩

/-- `base` with a list of one sector's address at GiB 1. -/
def listed : State := withMem base (2 ^ 30) (leBytes 8 (2 ^ 30 + 64))

theorem test_hyp_DataMoves_sectors :
    let i := Instr.gatherSectors h5 (g1 0) (g1 96) 1
    let j := Instr.scatterSectors h5 (g1 0) (g1 96) 1 true 12 false
    let may := fun (u : State) (a n : Nat) => (accessError u (queueWho u 5) (5 % 4) a n).isNone
    Ready listed h5 i .any ∧ Ready listed h5 j .any ∧ reduceOk 12 false = true ∧
    (∃ b u, readsAs (admitted listed h5 i) 5 (2 ^ 30) 8 b u ∧ (entriesAligned (listEntries 1 b) && may u (2 ^ 30 + 96) 32
      && (entryAreas (listEntries 1 b)).all (fun x => may u x.1 x.2) && (listEntries 1 b).all (isMemory u)) = true) ∧
    (∃ b u, readsAs (admitted listed h5 j) 5 (2 ^ 30) 8 b u ∧ (entriesAligned (listEntries 1 b) && may u (2 ^ 30 + 96) 32
      && (entryAreas (listEntries 1 b)).all (fun x => may u x.1 x.2) && (listEntries 1 b).all (isMemory u)) = true) :=
  ⟨ready_of (by decide +kernel), ready_of (by decide +kernel), by decide +kernel, reads_of (by decide +kernel),
    reads_of (by decide +kernel)⟩

theorem test_hyp_RemoteTransfers :
    let i := fun len => Instr.remoteWrite h5 (g1 0) (BitVec.ofNat 64 (3 * 2 ^ 48)) len 0x3FF true 0
    let r := fun len => readRange (admitted base h5 (i len)) 0xFFFF (2 ^ 30) len.toNat
    Ready base h5 (i 32) .any ∧ Ready base h5 (i 0) .any ∧ mayAccess (admitted base h5 (i 32)) 5 (2 ^ 30) 32 ∧
    goodRuns (2 ^ 30) (r 32).1 ≠ [] ∧ goodRuns (2 ^ 30) (r 0).1 = [] ∧
    Ready base h5 (.remoteWrite h5 (g1 0) (BitVec.ofNat 64 (3 * 2 ^ 48)) 32 0xFFB false 0) .any ∧
    transferError (admitted base h5 (.remoteWrite h5 (g1 0) (BitVec.ofNat 64 (3 * 2 ^ 48)) 32 0xFFB false 0)) 3 0xFFB = none ∧
    transferError (admitted base h5 (.remoteRead h5 (BitVec.ofNat 64 (3 * 2 ^ 48)) (g1 0) (BitVec.ofNat 25 (2 ^ 24)) 0xFFB false 0)) 3 0xFFB
      = none ∧
    Ready base h5 (.remoteRead h5 (BitVec.ofNat 64 (3 * 2 ^ 48)) (g1 0) (BitVec.ofNat 25 (2 ^ 24)) 0xFFB false 0) .any ∧
    mayAccess (admitted base h5 (.remoteRead h5 (BitVec.ofNat 64 (3 * 2 ^ 48)) (g1 0) (BitVec.ofNat 25 (2 ^ 24)) 0xFFB false 0)) 5
      (2 ^ 30) (2 ^ 24) :=
  ⟨ready_of (by decide +kernel), ready_of (by decide +kernel), by unfold mayAccess; decide +kernel, by decide +kernel, by decide +kernel,
    ready_of (by decide +kernel), by decide +kernel, by decide +kernel, ready_of (by decide +kernel), by unfold mayAccess; decide +kernel⟩

/-- `base` whose tile 0 has retired `n` units, the first of them that of GiB 1 when there is one. -/
def retiredUnits (n : Nat) (first : Nat) : State := { base with retired := [(0, (List.range n).map (· + first))] }

theorem test_hyp_PlaceCommands : Ready (retiredUnits 1 (2 ^ 18)) h5 (.placeRetire h5 (g1 0)) .any ∧
    Ready base h5 (.placeRetire h5 (g1 0)) .any ∧ Ready (retiredUnits 256 0) h5 (.placeRetire h5 (g1 0)) .any ∧
    isMemory (admitted base h5 (.placeRetire h5 (g1 0))) (2 ^ 30) = true ∧
    inPartition base (queue base 5).partition (4096 * 2 ^ 18) 4096 = true ∧
    (2 ^ 18 ∈ mapGet (fun _ => []) (retiredUnits 1 (2 ^ 18)).retired 0) ∧ (2 ^ 18 ∉ mapGet (fun _ => []) base.retired 0) ∧
    (2 ^ 18 ∉ mapGet (fun _ => []) (retiredUnits 256 0).retired 0) ∧
    (mapGet (fun _ => []) (retiredUnits 256 0).retired 0).length = 256 ∧
    Ready base h0 (.placeHome h0 0x40000000000 3 true) .any ∧ inCap 0x40000000000 = true ∧
    capPresent (admitted base h0 (.placeHome h0 0x40000000000 3 true)) = true :=
  ⟨ready_of (by decide +kernel), ready_of (by decide +kernel), ready_of (by decide +kernel), by decide +kernel, by decide +kernel,
    by decide +kernel, by decide +kernel, by decide +kernel, by decide +kernel, ready_of (by decide +kernel), by decide +kernel⟩

/-- A program image of one slice whose streams begin at one END. -/
def imageBytes : List Byte :=
  let b := leBytes 4 0x0900F4E1 ++ leBytes 4 1 ++ leBytes 4 104 ++ leBytes 2 1 ++ leBytes 2 0 ++ leBytes 2 1 ++ List.replicate 14 0
    ++ leBytes 4 64 ++ leBytes 4 64 ++ leBytes 4 96 ++ List.replicate 20 0
    ++ List.replicate 8 0 ++ leBytes 4 1 ++ leBytes 4 0 ++ leBytes 4 0 ++ leBytes 8 0xFFFFFFFFFFFFFFFF ++ leBytes 4 1
    ++ leBytes 8 (0xE1 * 2 ^ 56)
  b.take 60 ++ leBytes 4 (crc32c b) ++ b.drop 64

theorem test_hyp_ProgramCommands_load :
    let s := withMem base (2 ^ 30) imageBytes
    let i := Instr.loadProgram h5 (g1 0) 104
    Ready s h5 i .partition ∧ (programsOf s 1).length < 256 ∧
    ∃ b u, readsAs (admitted s h5 i) 5 (2 ^ 30) 104 b u ∧
      (imageError b 104 == none && decide ((programsOf s 1).foldl (fun n g => n + g.len) 0 + b.length ≤ (part s 1).desc.progLen))
        = true :=
  ⟨ready_of (by decide +kernel), by decide +kernel, reads_of (by decide +kernel)⟩

/-- A program area whose first line's home answers POISONED (R313). -/
theorem test_hyp_ProgramCommands_lost :
    let s := withMem ownerLost (2 ^ 30 + 0x20000) imageBytes
    let i := Instr.loadProgram h5 (g1 0x20000) 104
    Ready s h5 i .partition ∧ (programsOf s 1).length < 256 ∧
    (∃ b u, readsAs (admitted s h5 i) 5 (2 ^ 30 + 0x20000) 104 b u ∧
      (imageError b 104 == none && (putRange u (waysOf u (some 1)) ((part s 1).desc.progBase + 0) b).1.isSome) = true) ∧
    ∃ b u, readsAs (admitted (withMem base (2 ^ 30) imageBytes) h5 (.loadProgram h5 (g1 0) 104)) 5 (2 ^ 30) 104 b u ∧
      (putRange u (waysOf u (some 1)) (pd.progBase + 0) b).1.isNone = true :=
  ⟨ready_of (by decide +kernel), by decide +kernel, reads_of (by decide +kernel),
    reads_of (p := fun b u => (putRange u (waysOf u (some 1)) (pd.progBase + 0) b).1.isNone) (by decide +kernel)⟩

/-- A program of partition 1 with one slice of one cluster. -/
def program : Program := ⟨1, 2, 2 ^ 30, 104, [0xE100000000000000#64], [⟨[0, 0, 0, 0], 1, 1, 0, [], [0xFFFF, 0xFFFF, 0xFFFF, 0xFFFF], 1⟩]⟩

/-- `base` with a program loaded. -/
def loaded : State := { base with programs := [program] }

theorem test_hyp_ProgramCommands_run :
    mayUse loaded h5 7 ∧ (∀ d ∈ program.slices, d.clusters ≤ (ctxOf loaded 7).saveRanks ∧
      d.clusters ≤ popCount (part loaded (ctxOf loaded 7).partition).desc.clusters 64) ∧
    findProgram loaded (ctxOf loaded 7).partition 2 = some program ∧ Ready loaded h5 (.run h5 7 2 (g1 0)) .partition ∧
    (∃ b u, readsAs (admitted loaded h5 (.run h5 7 2 (g1 0))) 5 (2 ^ 30) 128 b u ∧ (fun _ _ => true) b u = true) ∧
    Ready loaded h5 (.runStep h5 7 2 (g1 0) 1 true) .partition ∧
    (∃ b u, readsAs (admitted loaded h5 (.runStep h5 7 2 (g1 0) 1 true)) 5 (2 ^ 30) 128 b u ∧ (fun _ _ => true) b u = true) ∧
    Ready loaded h5 (.caskFlush h5 7) .partition :=
  ⟨by unfold mayUse; decide +kernel, by decide +kernel, by decide +kernel, ready_of (by decide +kernel), reads_of (by decide +kernel),
    ready_of (by decide +kernel), reads_of (by decide +kernel), ready_of (by decide +kernel)⟩

/-- `base` with one route table entry and tally slot 0 of partition 1. -/
def routed : State := setReg (setReg base .expPartTable 0 1 0x10000#64) .vatTallyOwner 0 0 0x21#64

theorem test_hyp_ProgramCommands_routes :
    let i := fun cfg => Instr.routeTableWrite h5 0 1 (g1 0) cfg true
    let a := fun cfg => setWait (admitted routed h5 (i cfg)) routed.nextCmd .routeWrite
    let ok := fun (b : List Byte) => (listEntries 1 b).all (fun e => e / 2 ^ 47 % 2 ^ 16 == 0)
    Ready routed h5 (i 0) .partition ∧ Ready routed h5 (i (g1 64)) .partition ∧ (∀ r ∈ routed.runs, r.partition ≠ 1) ∧
    0 + 1 ≤ getBits (getReg (a 0) .expPartTable 0 1) 16 17 ∧
    (∃ b u, readsAs (a 0) 5 (2 ^ 30) 8 b u ∧ ok b = true) ∧
    (∃ b u, readsAs (a (g1 64)) 5 (2 ^ 30) 8 b u ∧ (ok b && readTest u 5 (2 ^ 30 + 64) 48 (fun c _ => !cfgBad c)) = true) :=
  ⟨ready_of (by decide +kernel), ready_of (by decide +kernel), by decide +kernel, by decide +kernel, reads_of (by decide +kernel),
    reads_of (by decide +kernel)⟩

theorem test_hyp_AuditAndBudget : Ready base h5 (.auditArm h5 7 65535 0 (g1 0)) .partition ∧
    Ready base h5 (.auditDisarm h5 7 0 0 0) .partition ∧ mayUse base h5 7 ∧ spikeOk 0 = true ∧
    inPartition base (ctxOf base 7).partition (2 ^ 30) 64 = true ∧ (∀ d ∈ base.cmds, gatedCtx d.instr ≠ some 7) ∧
    Ready base h5 (.auditRead h5 7 (BitVec.ofNat 64 (2 ^ 30))) .partition ∧
    destOf (admitted base h5 (.auditRead h5 7 (BitVec.ofNat 64 (2 ^ 30)))) 5 (2 ^ 30) = .local_ (2 ^ 30) ∧
    Ready routed h5 (.tallyRead h5 0 true (BitVec.ofNat 64 (2 ^ 30))) .partition ∧
    ownsTally (admitted routed h5 (.tallyRead h5 0 true (BitVec.ofNat 64 (2 ^ 30)))) (queue routed 5).partition 0 = true ∧
    destDenied (admitted routed h5 (.tallyRead h5 0 true (BitVec.ofNat 64 (2 ^ 30))))
      (newCmd routed h5 (.tallyRead h5 0 true (BitVec.ofNat 64 (2 ^ 30)))) (2 ^ 30) 264 = false :=
  ⟨ready_of (by decide +kernel), ready_of (by decide +kernel), by unfold mayUse; decide +kernel, by decide +kernel, by decide +kernel,
    by decide +kernel, ready_of (by decide +kernel), by decide +kernel, ready_of (by decide +kernel), by decide +kernel,
    by decide +kernel⟩

theorem test_hyp_AuditAndBudget_sets : Ready base h5 (.budgetSet h5 1 4352) .any ∧ Ready base h0 (.budgetSet h0 1 0xFFFFFFFF) .any ∧
    partActive base 1 = true ∧ Ready base h0 (.budgetSetModule h0 0 1536) .any ∧
    Ready base h5 (.ledgerRead h5 (BitVec.ofNat 64 (2 ^ 30))) .any :=
  ⟨ready_of (by decide +kernel), ready_of (by decide +kernel), by decide +kernel, ready_of (by decide +kernel),
    ready_of (by decide +kernel)⟩

/-! ### Clearing -/

/-- `base` whose partition 1 has an axis 0 of three modules, this one at coordinate 0. -/
def grouped : State := setReg base .netAxisMap 0 1 0x30000#64 0

/-- A bucket table of one bucket of one element. -/
def bucketTable : List Byte :=
  leBytes 8 (2 ^ 30 + 0x1000) ++ leBytes 8 1 ++ leBytes 8 (2 ^ 30 + 0x2000) ++ leBytes 8 (2 ^ 30 + 0x3000) ++ leBytes 8 (2 ^ 30 + 0x4000)
    ++ leBytes 8 (2 ^ 30 + 0x5000) ++ List.replicate 16 0

/-- Parameters of a JOB_OPEN, by ALLOC or with the ID 5. -/
def jobParams (alloc : Bool) : JobParams :=
  ⟨if alloc then 0 else 5, alloc, 1, 2, false, 0, false, 0, 0, 0, !alloc, 1, 7, 0, 0, g1 0, g1 0x10000, 1, 0, 0⟩

theorem test_hyp_JobCommands_open :
    let s := withMem grouped (2 ^ 30) bucketTable
    let ok := fun (p : JobParams) => Ready s h5 (.jobOpen h5 p) .partition ∧ jobBad p = none ∧ jobParamsOk p = true ∧
      inPartition s 1 p.bucketTable.toNat (64 * (p.buckets.val + 1)) = true ∧
      ∃ b u, readBytes (admitted s h5 (.jobOpen h5 p)) (waysOf (admitted s h5 (.jobOpen h5 p)) (some 1)) (2 ^ 30) 64 = (b, none, u) ∧
        (jobOpenError u p 1 b (newJob u p 1 p.jobId.val b) == none) = true
    mayUse s h5 7 ∧ ok (jobParams true) ∧ findJob s 0 = none ∧ ok (jobParams false) :=
  ⟨by unfold mayUse; decide +kernel, ⟨ready_of (by decide +kernel), by decide +kernel, by decide +kernel, by decide +kernel, fetch_of (by decide +kernel)⟩,
    by decide +kernel, ready_of (by decide +kernel), by decide +kernel, by decide +kernel, by decide +kernel, fetch_of (by decide +kernel)⟩

/-- A bucket of one element in the given state at step 0, its par codes set or not. -/
def bucketAt (st : ClrState) (par : Bool) : ClrBucket :=
  { ClrBucket.none with
    src := 2 ^ 30 + 0x1000, elements := 1, result := 2 ^ 30 + 0x2000, reserve := 2 ^ 30 + 0x3000, par := 2 ^ 30 + 0x4000
    stage := 2 ^ 30 + 0x5000, state := st, parSet := par }

/-- Job 4 of partition 1 with one bucket. -/
def jobWith (k : ClrBucket) : ClrJob :=
  ⟨4, 2 ^ 30, 7, 1, 1, 2, false, 0, false, 0, false, 0, 1, 0, 2 ^ 30 + 0x10000, 1, 0, 0, 0, [k]⟩

/-- `grouped` with that job open. -/
def clearing (k : ClrBucket) : State := { grouped with clr := [jobWith k] }

theorem test_hyp_JobCommands_close :
    let idle := clearing (bucketAt .idle true)
    let wait := clearing (bucketAt .wait true)
    mayClear idle h5 (jobWith (bucketAt .idle true)) 0 ∧ mayClear wait h5 (jobWith (bucketAt .wait true)) 0 ∧
    Ready idle h5 (.jobClose h5 4) .partition ∧ jobIdle (jobWith (bucketAt .idle true)) = true ∧
    Ready wait h5 (.jobClose h5 4) .partition ∧ jobIdle (jobWith (bucketAt .wait true)) = false ∧
    Ready wait h5 (.jobCloseForce h5 4) .partition :=
  ⟨by unfold mayClear; decide +kernel, by unfold mayClear; decide +kernel, ready_of (by decide +kernel), by decide +kernel,
    ready_of (by decide +kernel), by decide +kernel, ready_of (by decide +kernel)⟩

/-- A BUCKET_CONTRIBUTE of job 4's bucket 0 to a step. -/
def contribute (step : BitVec 48) : Instr := .bucketContribute h5 4 0 7 step 0 1

/-- The lengths of partition 1's other axes are 1. -/
def mapped (s : State) : State := [1, 2, 3, 4].foldl (fun s a => setReg s .netAxisMap 0 1 0x10000#64 a) s

theorem test_hyp_ContributeOutcome :
    let s := clearing (bucketAt .idle false)
    Ready s h5 (contribute 0) .partition ∧ Ready s h5 (contribute 1) .partition ∧ mayUse s h5 7 ∧
    mayClear s h5 (jobWith (bucketAt .idle false)) 0 ∧ (bucketAt .idle false).spent = false ∧ (bucketAt .idle false).nextStep = 0 ∧
    (∀ st ∈ [ClrState.probe, .wait, .excluded, .failed], readyB (clearing (bucketAt st false)) h5 (contribute 0) .partition = true ∧
      findJob (clearing (bucketAt st false)) 4 = some (jobWith (bucketAt st false))) ∧
    nearUnroutable (admitted s h5 (contribute 0)) (jobWith (bucketAt .idle false))
      (treeOf (admitted s h5 (contribute 0)) (jobWith (bucketAt .idle false)) 0) = true ∧
    (let t := mapped s
     readyB t h5 (contribute 0) .partition = true ∧ nearUnroutable (admitted t h5 (contribute 0)) (jobWith (bucketAt .idle false))
       (treeOf (admitted t h5 (contribute 0)) (jobWith (bucketAt .idle false)) 0) = false) ∧
    (let t := { clearing (bucketAt .idle true) with beat := { base.beat with synced := true } }
     Ready t h5 (contribute 0) .partition ∧ t.beat.synced = true ∧ (bucketAt .idle true).parSet = true) :=
  ⟨ready_of (by decide +kernel), ready_of (by decide +kernel), by unfold mayUse; decide +kernel, by unfold mayClear; decide +kernel,
    by decide +kernel, by decide +kernel, by decide +kernel, by decide +kernel, by decide +kernel, ready_of (by decide +kernel),
    by decide +kernel⟩

/-- `n` bytes of zeros. -/
def zeros_ (n : Nat) : List Byte := List.replicate n 0

/-- Job 4 in replay mode, its replay file at 192 KiB of GiB 1. -/
def replaying : ClrJob := { jobWith (bucketAt .idle false) with mode := 2, rollSrc := 2 ^ 30 + 0x30000, rollSrcEntries := 1 }

/-- The replay record of its step 0, whose member set has `g` members. -/
def replayBytes (g : Nat) : List Byte :=
  let b := leBytes 4 0 ++ leBytes 2 4 ++ leBytes 2 0 ++ zeros_ 32 ++ leBytes 4 g ++ zeros_ 16
  b ++ leBytes 4 (crc32c (b ++ zeros_ 32)) ++ zeros_ 32

theorem test_hyp_ContributeOutcome_replay : ∀ good ∈ [true, false],
    let s := mapped { grouped with clr := [replaying] }
    let t := withMem s (2 ^ 30 + 0x30000) (replayBytes (if good then (treeOf s replaying 0).g else 0))
    readyB t h5 (contribute 0) .partition = true ∧ (bucketOf replaying 0).spent = false ∧ (bucketOf replaying 0).state = .idle ∧
    replaying.mode = 2 ∧ nearUnroutable (admitted t h5 (contribute 0)) replaying (treeOf (admitted t h5 (contribute 0)) replaying 0) = false ∧
    (replayRecord (admitted t h5 (contribute 0)) replaying 0 0).1.isSome = good := by decide +kernel

/-- Job 4 with its bucket past step 0. -/
def ended : ClrBucket := { bucketAt .idle true with nextStep := 1, gather := 1 }

theorem test_hyp_JobData_rolls :
    let i := Instr.rollRead h5 4 0 0 (BitVec.ofNat 64 (2 ^ 30 + 0x20000))
    let mem := leBytes 4 0 ++ leBytes 2 4 ++ leBytes 2 0 ++ leBytes 6 0
    let good := withMem (clearing ended) (2 ^ 30 + 0x10000) mem
    let mine := fun (b : List Byte) => fieldLe b 4 2 % 4096 == 4 && fieldLe b 6 1 == 0 && fieldLe b 8 6 == 0
    let at_ := (jobWith ended).rollRing + 576 * rollSlot (jobWith ended) 0 0
    let len := fun s => 64 + ((treeOf (admitted s h5 i) (jobWith ended) 0).g + 255) / 256 * 32
    mayClear good h5 (jobWith ended) 0 ∧ Ready good h5 i .partition ∧ Ready (clearing ended) h5 i .partition ∧
    Ready (clearing (bucketAt .idle true)) h5 i .partition ∧
    (∃ b u, readBytes (admitted good h5 i) (waysOf (admitted good h5 i) (some 1)) at_ (len good) = (b, none, u) ∧ mine b = true) ∧
    (∃ b u, readBytes (admitted (clearing ended) h5 i) (waysOf (admitted (clearing ended) h5 i) (some 1)) at_ (len (clearing ended)) =
      (b, none, u) ∧ (!mine b) = true) :=
  ⟨by unfold mayClear; decide +kernel, ready_of (by decide +kernel), ready_of (by decide +kernel), ready_of (by decide +kernel),
    fetch_of (by decide +kernel), fetch_of (p := fun b _ => !(fieldLe b 4 2 % 4096 == 4 && fieldLe b 6 1 == 0 && fieldLe b 8 6 == 0))
      (by decide +kernel)⟩

theorem test_hyp_JobData_par :
    let idle := clearing (bucketAt .idle true)
    let i := Instr.parSet h5 4 0 (g1 0x30000)
    Ready idle h5 i .partition ∧ bucketBusy (bucketAt .idle true) = false ∧
    Ready (clearing (bucketAt .wait true)) h5 i .partition ∧ bucketBusy (bucketAt .wait true) = true ∧
    (∃ b u, readsAs (setWait (admitted idle h5 i) idle.nextCmd .parSet) 5 (2 ^ 30 + 0x30000) 1 b u ∧ b.all (fun x => x != 0xFF) = true) :=
  ⟨ready_of (by decide +kernel), by decide +kernel, ready_of (by decide +kernel), by decide +kernel, reads_of (by decide +kernel)⟩

theorem test_hyp_JobData_flush :
    let k := bucketAt .idle true
    let s := clearing k
    findJob s 4 = some (jobWith k) ∧ queueWho s 5 = some 1 ∧ (jobWith k).buckets ≠ [] ∧
    (∀ b ∈ bitsSet (1#256).toNat 256, b < (jobWith k).buckets.length ∧ bucketBusy (bucketOf (jobWith k) b) = false) ∧
    Ready s h5 (.reserveFlushZero h5 4 1 0) .partition ∧ Ready s h5 (.reserveFlushSave h5 4 1 (g1 0x40000)) .partition ∧
    Ready s h5 (.reserveFlushLoad h5 4 1 (g1 0x40000)) .partition ∧ flushBufferOk s (jobWith k) 1 (2 ^ 30 + 0x40000) = true ∧
    (∃ b u, readsAs s 5 k.reserve (4 * k.elements) b u ∧ (fun _ _ => true) b u = true) :=
  ⟨by decide +kernel, by decide +kernel, by decide +kernel, by decide +kernel, ready_of (by decide +kernel), ready_of (by decide +kernel),
    ready_of (by decide +kernel), by decide +kernel, reads_of (by decide +kernel)⟩

/-- A part with one block of which element 0 is 1. -/
def partOne : ClrPart := ⟨[⟨0, 0x3F800000#32, false, .node [0x3F800000#32]⟩], ⟨0, 1, 1, 1⟩⟩

/-- The values of a combined block. -/
def nodeVals (b : ClrBlock) : List F32 :=
  match b.values with
  | .node v => v
  | .leaf _ _ => []

theorem test_hyp_ClearingValues : (combineBlock [partOne] 0).1.values = .node (nodeVals (combineBlock [partOne] 0).1) ∧
    nodeVals (combineBlock [partOne] 0).1 ≠ [] := ⟨rfl, by decide +kernel⟩

/-- A CLOSE_UP for bucket 0 of job 4 from the member given. -/
def closeUp (sender sig : Nat) : List Byte :=
  let d : List Byte := [4, 0, 0, 4] ++ (leBytes 4 sig).reverse ++ List.replicate 6 0 ++ [0, BitVec.ofNat 8 sender]
    ++ List.replicate 12 0
  let body : List Byte := List.replicate 64 0
  d ++ (leBytes 4 (crc32c (d ++ body))).reverse ++ body

theorem test_hyp_ClearPacketDispatch : parseClr [] = none ∧
    (let s := clearing (bucketAt .idle true)
     let j := jobWith (bucketAt .idle true)
     findJob grouped 4 = none ∧ findJob s 4 = some j ∧ 0 < j.buckets.length ∧
     (parseClr (closeUp 1 0)).any (fun x => x.job == 4 && x.bucket == 0 && x.sig == j.sig && senderFits j (treeOf s j x.bucket) x) = true ∧
     (parseClr (closeUp 3 0)).any (fun x => x.job == 4 && x.sig == j.sig && !senderFits j (treeOf s j x.bucket) x) = true ∧
     (parseClr (closeUp 1 1)).any (fun x => x.job == 4 && x.sig != j.sig) = true) := by decide +kernel

/-- A bucket of job 4 whose node gathers step 0, due at beat 0, and whose member waits since beat 0. -/
def gathering : ClrBucket := { bucketAt .wait true with
  nodes := [⟨0, some 0, []⟩], own := some ⟨3, 0, some 0, 1, 0, false, [], false, none, none, none⟩ }

theorem test_hyp_ClearingTimers :
    let j := jobWith gathering
    let s := { clearing gathering with beat := { base.beat with waits := 2 ^ 32 } }
    let lost := { s with beat := { s.beat with lost := true } }
    findJob s 4 = some j ∧ 0 < j.buckets.length ∧ (nodeOf gathering gathering.gather).due = some 0 ∧ strictStep j gathering = false ∧
    gathering.gather = (0#48).toNat ∧ (treeOf s j 0).children ≠ [] ∧ gathering.state ≠ .failed ∧
    0 ≤ s.beat.count + (treeOf s j 0).depth * j.hop ∧ s.beat.lost = false ∧ lost.beat.lost = true ∧ findJob lost 4 = some j ∧
    (treeOf lost j 0).children ≠ [] ∧ gathering.state = .wait ∧ 0 + (getReg s .clrBcastLimit (jobTile j) 0).toNat ≤ s.beat.waits := by
  decide +kernel

theorem test_hyp_ClearingTimers_strict : findJob { grouped with clr := [replaying] } 4 = some replaying ∧
    strictStep replaying (bucketOf replaying 0) = true := by decide +kernel

/-! ### Streams -/

/-- A batch 3 of partition 1 with one armed fill of one slot. -/
def batch3 : Batch := ⟨1, [⟨0, 1, 0x80000, 2 ^ 30, 2 ^ 30 + 0x100000, 3, 0, [], false⟩], 1⟩

/-- `base` with batch 3 and a pool of one GiB for mill 0. -/
def milling : State := setReg { base with batches := [(3, some batch3)] } .milPool 0 0 0x10000#64

/-- A STREAM_OPEN and an ENCODE_OPEN on mill 0. -/
def streamParams : StreamParams := ⟨0, 0, false, false, 15, 16, 16, 0, 0, 3, 7⟩
/-- An ENCODE_OPEN's parameters. -/
def encodeParams : EncodeParams := ⟨0, true, false, 64, 64, 51, 1, g1 0, 7, 0⟩

/-- An output ring block: a ring of 4,096 bytes at 64 KiB of GiB 1. -/
def ringBlock : List Byte :=
  let d := leBytes 8 (2 ^ 30 + 0x10000) ++ leBytes 8 12
  d ++ List.replicate 44 0 ++ leBytes 4 (crc32c d)

theorem test_hyp_StreamCommands_open : Ready milling h5 (.streamOpen h5 streamParams) .partition ∧ mayUse milling h5 7 ∧
    millPresent milling = true ∧ streamFieldsOk streamParams = true ∧ batchTakes milling 1 3 16 16 = true ∧ findStream milling 0 = none ∧
    pagesUsed milling 0 + streamPages 9 16 16 ≤ poolPages (admitted milling h5 (.streamOpen h5 streamParams)) 0 :=
  ⟨ready_of (by decide +kernel), by unfold mayUse; decide +kernel, by decide +kernel⟩

theorem test_hyp_StreamCommands_encode :
    let s := withMem milling (2 ^ 30) ringBlock
    let a := admitted s h5 (.encodeOpen h5 encodeParams)
    Ready s h5 (.encodeOpen h5 encodeParams) .partition ∧ mayUse s h5 7 ∧ encodeFieldsOk encodeParams = true ∧
    ringElsewhere s 1 (2 ^ 30) = false ∧ inPartition s 1 (2 ^ 30) 64 = true ∧ findStream s 0 = none ∧
    ((millStreams s 0).filter (fun x => x.2.encode)).length < 16 ∧
    ∃ b u, readBytes a (waysOf a (some 1)) (2 ^ 30) 64 = (b, none, u) ∧
      (encodeRingOk b none && decide (pagesUsed s 0 + streamPages 2 64 64 ≤ poolPages u 0)) = true :=
  ⟨ready_of (by decide +kernel), by unfold mayUse; decide +kernel, by decide +kernel, by decide +kernel, by decide +kernel,
    by decide +kernel, by decide +kernel, fetch_of (by decide +kernel)⟩

/-- Stream 0 of partition 1 with the given feeds. -/
def stream0 (encode : Bool) (feeds : List Feed) : MilStream :=
  ⟨encode, 0, false, false, 0, 1, 7, false, 3, 9, 0, 16, 16, 0, 1, 2 ^ 30, 0, 0, 0, none, feeds, 0, false, [], false, false, 0, 0, [], []⟩

/-- A feed that waits. -/
def feed0 (slot : Option (Nat × Nat)) (core : Bool) (stage : FeedStage) : Feed := ⟨0, 3, 0, 8, 2 ^ 30, 64, 0, slot, core, stage⟩

/-- `milling` with stream 0. -/
def streaming (x : MilStream) : State := { milling with streams := [(0, some x)] }

theorem test_hyp_StreamCommands_feed :
    let x := stream0 true []
    let f := stream0 false [feed0 none false .waiting]
    Ready (streaming x) h5 (.streamFeed h5 0 (g1 0) 16777216 0) .partition ∧ mayStream (streaming x) h5 0 x ∧
    inPartition (streaming x) 1 (2 ^ 30) 16777216 = true ∧ needBytes 16 16 ≤ 16777216 ∧
    Ready (streaming (stream0 false [])) h5 (.streamFeed h5 0 (g1 0) 1 0) .partition ∧
    Ready (streaming x) h5 (.streamClose h5 0) .partition ∧ Ready (streaming f) h5 (.streamClose h5 0) .partition ∧
    mayStream (streaming f) h5 0 f ∧ f.feeds ≠ [] :=
  ⟨ready_of (by decide +kernel), by unfold mayStream; decide +kernel, by decide +kernel, by decide +kernel, ready_of (by decide +kernel),
    ready_of (by decide +kernel), ready_of (by decide +kernel), by unfold mayStream; decide +kernel, by decide +kernel⟩

theorem test_hyp_StreamCommands_batch : Ready milling h5 (.batchDefine h5 255 1 256 (g1 0) (g1 0x1000)) .partition ∧
    batchFieldsOk milling 1 255 1 256 (2 ^ 30) (2 ^ 30 + 0x1000) = true ∧ findBatch milling 255 = none ∧
    (∀ y ∈ openStreams milling, y.2.encode = false → y.2.batch = 255 → needBytes y.2.maxW y.2.maxH ≤ 256) ∧
    Ready milling h5 (.batchDefine h5 3 65536 256 (g1 0) (g1 0x1000000)) .partition ∧ batch3.fills.length < 4 :=
  ⟨ready_of (by decide +kernel), by decide +kernel, by decide +kernel, by decide +kernel, ready_of (by decide +kernel), by decide +kernel⟩

/-! ### The cluster sequencer and its engines -/

/-- A run of `program`, its slice on cluster 0. -/
def run1 : Run := ⟨1, 3, 7, 1, 2, 0, false, List.replicate 16 0, [⟨.running, 0, false, [0], false, false, none, 0, true, 0, 3⟩], 0, false, 0, none, []⟩

/-- A cluster that runs it, whose streams stand at the word `w` and hold `loops`. -/
def runner (w : Word) (loops : List LoopFrame) : Cluster := { Cluster.reset with
  state := .running, run := 1, count := 1, partition := 1, ctx := 7, store := [(0, w)]
  streams := List.replicate 4 { Stream.reset with loops := loops } }

/-- `loaded` with that cluster as cluster 0. -/
def turn (v : Cluster) : State := setCluster { loaded with runs := [run1] } 0 v

/-- A word of an opcode and its other bits. -/
def word (op rest : Nat) : Word := BitVec.ofNat 64 (op * 2 ^ 56 + rest)

/-- `inTurn` as a test, at cluster 0. -/
def inTurnB (s : State) (st : Nat) (w : Word) : Bool :=
  decide (st < (cluster s 0).streams.length) && issues s (cluster s 0) st &&
    decide ((stream (cluster s 0) st).pc < codeWords s (cluster s 0)) && nextWord (cluster s 0) st == w

theorem inTurn_of {s : State} {st : Nat} {w : Word} (e : inTurnB s st w = true) : inTurn s 0 st w := by
  simp only [inTurnB, Bool.and_eq_true, decide_eq_true_eq, beq_iff_eq] at e
  exact ⟨e.1.1.1, e.1.1.2, e.1.2, e.2⟩

/-- A LOOP of the next word: four times by its immediate, or by scalar 15. -/
def loopWord (byScalar : Bool) : Word := word 0xE2 (if byScalar then 2 ^ 55 + 2 ^ 33 + 15 * 2 ^ 28 else 2 ^ 33 + 4)

theorem test_hyp_LoopRuns_immediate : inTurn (turn (runner (loopWord false) [])) 0 3 (loopWord false) ∧
    inTurn (turn (runner (loopWord false) (List.replicate 4 ⟨0, 9, 2⟩))) 0 3 (loopWord false) ∧
    opOf (loopWord false) = 0xE2 ∧ getBits (loopWord false) 33 15 ≠ 0 ∧ natBit (loopWord false).toNat 55 = false ∧
    reservedZero (loopWord false) [(47, 33), (31, 0)] = true ∧
    (stream (cluster (turn (runner (loopWord false) (List.replicate 4 ⟨0, 9, 2⟩))) 0) 3).loops.length = 4 :=
  ⟨inTurn_of (by decide +kernel), inTurn_of (by decide +kernel), by decide +kernel⟩

theorem test_hyp_LoopRuns_scalar : inTurn (turn (runner (loopWord true) [])) 0 0 (loopWord true) ∧
    opOf (loopWord true) = 0xE2 ∧ getBits (loopWord true) 33 15 ≠ 0 ∧ natBit (loopWord true).toNat 55 = true ∧
    reservedZero (loopWord true) [(55, 55), (47, 33), (32, 28)] = true ∧ getBits (loopWord true) 28 5 ≤ 15 ∧
    (scalar (stream (cluster (turn (runner (loopWord true) [])) 0) 0) 15).toNat ≤ 0xFFFFFFFF ∧
    let v := { runner (loopWord true) [] with streams := List.replicate 4 { Stream.reset with scalars := List.replicate 16 0x100000000#64 } }
    inTurn (turn v) 0 0 (loopWord true) ∧ 0xFFFFFFFF < (scalar (stream (cluster (turn v) 0) 0) 15).toNat :=
  ⟨inTurn_of (by decide +kernel), by decide +kernel, by decide +kernel, by decide +kernel, by decide +kernel, by decide +kernel,
    by decide +kernel, inTurn_of (by decide +kernel), by decide +kernel⟩

/-- A stream at word 7, the last word of a loop of three passes left, in a loop of two. -/
def nested : Stream := { Stream.reset with pc := 7, loops := [⟨5, 7, 3⟩, ⟨2, 30, 2⟩] }

theorem test_hyp_LoopRuns_last : nested.loops = ⟨5, 7, 3⟩ :: [⟨2, 30, 2⟩] ∧ (∀ g ∈ [(⟨2, 30, 2⟩ : LoopFrame)], g.last ≠ nested.pc) ∧
    (1 : Nat) < 3 ∧ (∀ f ∈ ({ nested with pc := 6 } : Stream).loops, f.last ≠ 6) := by decide +kernel

/-- R195: the passes left of the enclosing loop follow an inner one that ends with it. -/
theorem test_loop_last : ∀ n ∈ [0, 1, 2], Nat.repeat Stream.next (n * 2) (enterLoop nested 2 n) =
    { nested with pc := 5, loops := [⟨5, 9, 2⟩, ⟨2, 30, 2⟩] } := by decide +kernel

theorem test_hyp_LoopRuns_four : let w := loopWord true
    let v := { runner w [] with streams := List.replicate 4 { Stream.reset with loops := List.replicate 4 ⟨0, 9, 2⟩, scalars := List.replicate 16 5 } }
    inTurn (turn v) 0 0 w ∧ 4 ≤ (loopsAt (stream (cluster (turn v) 0) 0) 1).length ∧ (scalar (stream (cluster (turn v) 0) 0) 15).toNat ≤ 0xFFFFFFFF :=
  ⟨inTurn_of (by decide +kernel), by decide +kernel⟩

/-- A cluster whose stream may issue `w`. -/
def at_ (w : Word) : State := turn (runner w [])

theorem test_hyp_ControlAndFaults_control :
    (inTurn (at_ (word 0xE0 0)) 0 0 (word 0xE0 0) ∧ opOf (word 0xE0 0) = 0xE0 ∧ reservedZero (word 0xE0 0) [] = true) ∧
    (inTurn (at_ (word 0xE1 0)) 0 1 (word 0xE1 0) ∧ opOf (word 0xE1 0) = 0xE1 ∧ reservedZero (word 0xE1 0) [] = true) ∧
    (∀ op ∈ [0xE5, 0xE6], let w := word op (15 * 2 ^ 43 + 0xFFFFFFFF)
      inTurnB (at_ w) 2 w = true ∧ opOf w = op ∧ reservedZero w [(47, 43), (31, 0)] = true ∧ getBits w 43 5 ≤ 15) ∧
    (∀ x ∈ [10 * 2 ^ 48 + 15 * 2 ^ 43 + 15 * 2 ^ 38 + 15 * 2 ^ 33, 2 ^ 55 + 0xFFFFFFFF], let w := word 0xE7 x
      inTurnB (at_ w) 3 w = true ∧ opOf w = 0xE7 ∧ saluFieldsOk w = true) ∧
    (∀ x ∈ [0, 15 * 2 ^ 43 + 1], let w := word 0xE8 x
      inTurnB (at_ w) 0 w = true ∧ opOf w = 0xE8 ∧ reservedZero w [(47, 43), (1, 0)] = true ∧ getBits w 43 5 ≤ 15 ∧ getBits w 0 2 ≤ 1) :=
  ⟨⟨inTurn_of (by decide +kernel), by decide +kernel⟩, ⟨inTurn_of (by decide +kernel), by decide +kernel⟩, by decide +kernel⟩

/-- A VOP descriptor, all of whose fields but the rings' slots, K and the output's address are 0. -/
def vopDesc : List Byte := List.replicate 8 0 ++ leBytes 8 4 ++ List.replicate 36 0 ++ leBytes 4 1 ++ List.replicate 12 0 ++ leBytes 4 1
  ++ List.replicate 56 0

/-- An operation whose next slice is its first. -/
def vop : VatOp := ⟨vopDesc, 128, 0, false, 0, false, false, []⟩

/-- A cluster whose vat 2 holds what `f` makes of an empty one, with `n` in token 0. -/
def vatAt (n : Nat) (f : Vat → Vat) : State := turn { runner 0 [] with vats := (List.replicate 4 Vat.reset).set 2 (f Vat.reset), tokens := [(0, n)] }

/-- A cluster whose vat 0 waits for its fill counts, `n` in token 0. -/
def vatWaits (n : Nat) : State :=
  turn { runner 0 [] with vats := (List.replicate 4 Vat.reset).set 0 { Vat.reset with acc := some vop, waiting := some 0 }, tokens := [(0, n)] }

/-- A cluster at a word of token 63 with count `n`, whose token holds `held`. -/
def tokens (op n held : Nat) : State := turn { runner (word op (63 * 2 ^ 48 + n)) [] with tokens := mapSet (fun _ => 0) [] 63 held }

theorem test_hyp_ControlAndFaults_tokens :
    ∀ x ∈ [(0xE3, 5, 5), (0xE3, 0xFFFF, 0), (0xE4, 1, 0xFFFFFE), (0xE4, 1, 0xFFFFFF)], let w := word x.1 (63 * 2 ^ 48 + x.2.1)
      let s := tokens x.1 x.2.1 x.2.2
      inTurnB s 0 w = true ∧ tokenFieldsOk w = true ∧ opOf w = x.1 ∧ tokenOf (cluster s 0) (getBits w 48 6) = x.2.2 ∧
      getBits w 0 16 = x.2.1 ∧
      (x.1 = 0xE3 → mayTake s.power.hold (cluster s 0) 0 [(63, x.2.1)] = decide (x.2.1 = 5)) := by decide +kernel

/-- A cluster whose stream 2 has waited `n` beats in a TWAIT for 5 of token 63, which holds 5. -/
def waiter (n : Nat) : State :=
  let v := { runner (word 0xE3 (63 * 2 ^ 48 + 5)) [] with tokens := [(63, 5)] }
  let s := turn (setStream v 2 { Stream.reset with waiting := some 0 })
  { s with beat := { s.beat with waits := n } }

theorem test_hyp_ControlAndFaults_order : (∀ n ∈ [4, 0, 2], n ∈ takeOrder) ∧
    (takeOrder[0]? = some 4 ∧ takeOrder[5]? = some 0 ∧ 0 < 5) ∧
    (let v := { cluster (vatWaits 2) 0 with tokens := [(0, 2)] }
     waiterNeeds false v 4 = some (fillNeeds vop) ∧ (∀ p ∈ fillNeeds vop, p.2 ≤ tokenOf v p.1) ∧
     mayTake false v 0 [(0, 1)] = false ∧ mayTake false v 0 [(1, 0)] = true) := by decide +kernel

theorem test_hyp_ControlAndFaults_taken : (let s := waiter 0
     clusterActive (cluster s 0) = true ∧ waiterNeeds s.power.hold (cluster s 0) 2 = some [(63, 5)] ∧
     mayTake s.power.hold (cluster s 0) 2 [(63, 5)] = true) ∧
    (let s := vatWaits 2
     clusterActive (cluster s 0) = true ∧ waiterNeeds s.power.hold (cluster s 0) 4 = some (fillNeeds vop) ∧
     mayTake s.power.hold (cluster s 0) 4 (fillNeeds vop) = true) := by decide +kernel

theorem test_hyp_ControlAndFaults_idle : let v := { Cluster.reset with tokens := [(63, 0xFFFFFF)] }
    0xFFFFFF < tokenOf v 63 + 1 ∧ v.state = .idle := by decide +kernel

theorem test_hyp_ControlAndFaults_waits : clusterActive (cluster (waiter 0) 0) = true ∧
    (stream (cluster (waiter 0) 0) 2).waiting = some 0 ∧
    let s := waiter (2 ^ 32)
    clusterActive (cluster s 0) = true ∧ (stream (cluster s 0) 2).waiting = some 0 ∧
    0 + (getReg s .seqWaitLimit (0 / 16) (0 % 16)).toNat ≤ s.beat.waits := by decide +kernel

theorem test_hyp_ControlAndFaults_faults :
    let s := turn (setStream (runner 0 []) 3 { Stream.reset with pc := 1 })
    issues s (cluster s 0) 3 = true ∧ codeWords s (cluster s 0) ≤ (stream (cluster s 0) 3).pc ∧
    inTurnB (at_ (word 0xE9 0)) 1 (word 0xE9 0) = true ∧ opcodeDefined 1 0xE9 = false ∧
    inTurnB (at_ (word 2 0)) 0 (word 2 0) = true ∧ opcodeDefined 0 2 = false := by decide +kernel

theorem test_hyp_ControlAndFaults_ends : (let s := at_ 0
     findRun s (cluster s 0).run = some run1 ∧ run1.fault = none ∧ runQuiet (streamFault s 0 3) (cluster s 0).run = true) ∧
    (let s := turn { runner 0 [] with moves := [⟨3, 1, 0, 5, none, none, []⟩] }
     findRun s (cluster s 0).run = some run1 ∧ (findRun (streamFault s 0 3) (cluster s 0).run).isSome = true) := by decide +kernel

theorem test_hyp_VatRows_vop : let w := word 1 (3 * 2 ^ 43 + 128)
    let s := withMem (at_ w) (storeBase 0 + 128) vopDesc
    inTurnB s 0 w = true ∧ opOf w = 1 ∧ reservedZero w [(44, 43), (42, 38), (23, 0)] = true ∧ getBits w 38 5 ≤ 15 ∧
    ((scalar (stream (cluster s 0) 0) (getBits w 38 5)).toNat + getBits w 0 24) % 2 ^ 24 % 128 = 0 ∧
    (vatOf (cluster s 0) (getBits w 43 2)).queued = none ∧ vatFault (storeBytes s 0 128 128) = none ∧
    vatFault (storeBytes s 0 0 128) ≠ none ∧ getBits (word 1 (3 * 2 ^ 43)) 0 24 = 0 ∧
    inTurnB (at_ (word 1 (3 * 2 ^ 43))) 0 (word 1 (3 * 2 ^ 43)) = true := by decide +kernel

theorem test_hyp_VatRows_slice : ∀ n ∈ [1, 2], let s := vatAt n (fun t => { t with acc := some vop })
    (vatOf (cluster s 0) 2).acc = some vop ∧ clusterActive (cluster s 0) = true ∧ s.power.hold = false ∧
    (vatOf (cluster s 0) 2).waiting = none ∧ bankFree (vatOf (cluster s 0) 2) vop = true ∧
    mayTake false (cluster s 0) (2 + 4) (fillNeeds vop) = decide (n = 2) ∧ fillNeeds vop ≠ [] := by decide +kernel

theorem test_hyp_VatRows_drain : let s := vatAt 0 (fun t => { t with finished := [vop], draining := [⟨[(0, [1])], 5, []⟩] })
    (cluster s 0).vats.length = 4 ∧ (vatOf (cluster s 0) 2).finished = [vop] ∧
    (vatOf (cluster s 0) 2).draining = [⟨[(0, [1])], 5, []⟩] := by decide +kernel

theorem test_hyp_VatRows_groups : (let one : Ext := .fin false 1 1
     Ext.nan ∈ [decodeIeee layFp32 0, .nan] ∧ (.inf false ∈ [decodeIeee layFp32 0x7F800000, .inf true] ∧ .inf true ∈ [decodeIeee layFp32 0x7F800000, .inf true]) ∧
     (Ext.nan ∉ [decodeIeee layFp32 0, .inf true] ∧ Ext.inf true ∈ [decodeIeee layFp32 0, .inf true] ∧ Ext.inf false ∉ [decodeIeee layFp32 0, .inf true]) ∧
     (∀ y ∈ [decodeIeee layFp32 0x3F800000, extZero, one, extNeg one], extIsFin y = true) ∧ [extZero].all extIsZero = true ∧
     [one].all extIsZero = false ∧ (fracAdd (fracAdd ⟨0, 1⟩ (extFrac (decodeIeee layFp32 0x3F800000))) (extFrac (extNeg one))).num = 0 ∧
     (fracAdd (fracAdd ⟨0, 1⟩ (extFrac (decodeIeee layFp32 0x3F800000))) (extFrac one)).num ≠ 0) := by decide +kernel

theorem test_hyp_VatRows_sums : ∀ f ∈ [false, true], let s := vatAt 2 (fun t => { t with acc := some { vop with loaded := f } })
    let k := cluster s 0
    let o := { vop with loaded := f }
    (vatOf k 2).acc = some o ∧ clusterActive k = true ∧ s.power.hold = false ∧ (vatOf k 2).waiting = none ∧ bankFree (vatOf k 2) o = true ∧
    k.vats.length = 4 ∧ mayTake false k (2 + 4) (fillNeeds o) = true ∧ o.nextPos < sliceEnd o ∧
    tokenOf k (vatDesc o.desc).a.free + 2 ≤ 0xFFFFFF ∧ tokenOf k (vatDesc o.desc).b.free + 2 ≤ 0xFFFFFF ∧ o.nextPos % 4 = 0 ∧
    (sliceAreas 0 o).flatMap (clashes s ⟨s.order.next, vatKey 0 2, joinKnown o.knows (knownToTokens s 0 (fillNeeds o))⟩ false) = [] := by
  decide +kernel

/-- The operation with its output at byte 65,536. -/
def outAt : VatOp := { vop with desc := vopDesc.take 80 ++ leBytes 4 0x10000 ++ vopDesc.drop 84 }

theorem test_hyp_VatRows_values : let s := vatAt 0 (fun t => { t with finished := [outAt] })
    (cluster s 0).vats.length = 4 ∧ (vatOf (cluster s 0) 2).finished = [outAt] ∧ (vatDesc outAt.desc).biasMode ≤ 2 ∧ (vatDesc outAt.desc).deriv ≤ 5 ∧
    outOverlaps outAt = false ∧ (drainAreas 0 (vatDesc outAt.desc)).flatMap (clashes s ⟨s.order.next, vatKey 0 2, outAt.knows⟩ false) = [] ∧
    (writeAreas 0 [(0, [1])]).flatMap (clashes s ⟨s.order.next, vatKey 0 2, joinKnown [] (knownTo s (vatKey 0 2))⟩ true) = [] := by
  decide +kernel

/-- R184: an access shares a part of an area with an earlier one of another engine, and with none that it comes after or of its own. -/
theorem test_order : let t : Touch := ⟨4, 7, 96, 32, true⟩
    let s := { base with order := { base.order with next := 5, touches := [t] } }
    clashes s ⟨5, 8, []⟩ false (64, 64) = [(96, 32)] ∧ clashes s ⟨5, 8, [4]⟩ false (64, 64) = [] ∧ clashes s ⟨5, 7, []⟩ false (64, 64) = [] ∧
    clashes { s with order := { s.order with touches := [{ t with write := false }] } } ⟨5, 8, []⟩ false (64, 64) = [] ∧
    clashes { s with order := { s.order with touches := [{ t with write := false }] } } ⟨5, 8, []⟩ true (120, 64) = [(120, 8)] := by
  decide +kernel

/-! Words of the vector engine: D 2, A 4, B 6, C 2, of the pairs where an instruction admits them. -/

/-- A word of an instruction with tile operands. -/
def tileWord (op : Nat) (pair : Bool) : Word := word op ((if pair then 2 ^ 55 else 0) + 2 * 2 ^ 43 + 4 * 2 ^ 38 + 6 * 2 ^ 33 + 2 * 2 ^ 28)

theorem test_hyp_VectorElements_rows : ∀ pair ∈ [false, true],
    (∀ op ∈ [0x10, 0x11, 0x12, 0x15, 0x16], let w := tileWord op pair &&& ~~~(BitVec.ofNat 64 (31 * 2 ^ 28))
      inTurnB (at_ w) 1 w = true ∧ opOf w = op ∧ formOk ⟨true, true, true, false, false⟩ w = true) ∧
    (∀ op ∈ [0x13, 0x14], let w := tileWord op pair
      inTurnB (at_ w) 1 w = true ∧ opOf w = op ∧ formOk ⟨true, true, true, true, false⟩ w = true) ∧
    (∀ op ∈ [0x17, 0x18, 0x19, 0x1A, 0x1B, 0x1C, 0x1D, 0x1E, 0x1F], let w := tileWord op pair
      inTurnB (at_ w) 1 w = true ∧ opOf w = op ∧ formOk ⟨true, true, false, false, false⟩ w = true) := by decide +kernel

theorem test_hyp_VectorElements_moves : (cluster (at_ 0) 0).vec.rows ≤ 32 ∧ (cluster (at_ 0) 0).vec.cols ≤ 32 ∧
    (∀ x ∈ [(0x08, true, (⟨true, false, true, false, false⟩ : VecForm)), (0x09, false, ⟨false, true, false, false, false⟩),
        (0x29, true, ⟨true, true, true, false, true⟩)], let w := tileWord x.1 x.2.1
      inTurnB (at_ w) 1 w = true ∧ opOf w = x.1 ∧ formOk x.2.2 w = true) ∧
    (let w := word 0x2A (3 * 2 ^ 38);
      inTurnB (at_ w) 1 w = true ∧ opOf w = 0x2A ∧ formOk ⟨false, false, false, false, false⟩ w = true ∧ insA w ≤ 3) := by decide +kernel

theorem test_hyp_VectorMasks :
    (∀ op ∈ [0x20, 0x21, 0x22, 0x23], let w := tileWord op false
      inTurnB (at_ w) 1 w = true ∧ opOf w = op ∧ formOk ⟨false, true, true, false, false⟩ w = true ∧ insD w ≤ 3) ∧
    (∀ op ∈ [0x24, 0x25, 0x26, 0x27], let w := word op (3 * 2 ^ 43 + 3 * 2 ^ 38 + 3 * 2 ^ 33)
      inTurnB (at_ w) 1 w = true ∧ opOf w = op ∧ maskOk w true = true ∧ maskOk w false = true) ∧
    (∀ x ∈ [0, 3 * 2 ^ 43 + 1], let w := word 0x28 x
      inTurnB (at_ w) 1 w = true ∧ opOf w = 0x28 ∧ insPrec w = false ∧ getBits w 32 1 = 0 ∧ insD w ≤ 3) ∧
    (∀ op ∈ [0x30, 0x31, 0x32, 0x33], let w := word op (7 * 2 ^ 43 + 31 * 2 ^ 38)
      inTurnB (at_ w) 1 w = true ∧ opOf w = op ∧ formOk ⟨false, true, false, false, false⟩ w = true ∧ insD w ≤ 7) := by decide +kernel

theorem test_hyp_VectorMemory_vnop : ∀ x ∈ [0, 1], let w := word 0 x
    inTurnB (at_ w) 1 w = true ∧ opOf w = 0 ∧ insPrec w = false ∧ (getBits w 0 28 = 0 ↔ x = 0) := by decide +kernel

theorem test_hyp_VectorMemory_vsetvl : let w := word 1 (32 * 2 ^ 8 + 1)
    inTurnB (at_ w) 1 w = true ∧ opOf w = 1 ∧ insPrec w = false ∧ getBits w 32 1 = 0 ∧ natBit w.toNat 16 = false ∧
    1 ≤ getBits w 0 6 ∧ getBits w 0 6 ≤ 32 ∧ 1 ≤ getBits w 8 6 ∧ getBits w 8 6 ≤ 32 := by decide +kernel

/-- A VSETVL by scalars 15 and 14, in a cluster whose scalars all hold `n`. -/
def setvlWord : Word := word 1 (2 ^ 16 + 15 * 2 ^ 38 + 14 * 2 ^ 33)
/-- The state in which it issues. -/
def setvlAt (n : Word) : State :=
  turn { runner setvlWord [] with streams := List.replicate 4 { Stream.reset with scalars := List.replicate 16 n } }

theorem test_hyp_VectorMemory_scalars : (opOf setvlWord = 1 ∧ insPrec setvlWord = false ∧ getBits setvlWord 32 1 = 0 ∧
      natBit setvlWord.toNat 16 = true ∧ insA setvlWord ≤ 15 ∧ insB setvlWord ≤ 15) ∧
    ∀ n ∈ [0, 1], inTurnB (setvlAt (BitVec.ofNat 64 n)) 1 setvlWord = true ∧
      (scalar (stream (cluster (setvlAt (BitVec.ofNat 64 n)) 0) 1) (insA setvlWord)).toNat = n ∧
      (scalar (stream (cluster (setvlAt (BitVec.ofNat 64 n)) 0) 1) (insB setvlWord)).toNat = n := by decide +kernel

theorem test_hyp_VectorMemory_blocks :
    (∀ op ∈ [2, 3], let w := word op (3 * 2 ^ 43 + 5 * 2 ^ 38 + 3 * 2 ^ 24 + 256)
      inTurnB (at_ w) 1 w = true ∧ opOf w = op ∧ blockOk (counted (at_ w) 0 7) 0 w = true) := by decide +kernel

theorem test_hyp_VectorMemory_vectors :
    (∀ op ∈ [4, 5, 6, 7], let w := word op (7 * 2 ^ 43 + 15 * 2 ^ 38 + 0xFFFF80)
      inTurnB (at_ w) 1 w = true ∧ opOf w = op ∧ vectorOk (counted (at_ w) 0 7) 0 w = true ∧ vectorOk (at_ w) 0 w = true) := by
  decide +kernel

/-- A word of a tile load or store: register 3, format FP32, from byte 256 of scalar 5. -/
def blockWord (op fmt : Nat) : Word := word op (3 * 2 ^ 43 + 5 * 2 ^ 38 + fmt * 2 ^ 24 + 256)

theorem test_hyp_VectorMemory_tiles : (∀ op ∈ [2, 3], ∀ fmt ∈ [0, 3], let s := at_ (blockWord op fmt)
      inTurnB s 1 (blockWord op fmt) = true ∧ blockOk s 0 (blockWord op fmt) = true ∧ opOf (blockWord op fmt) = op ∧
      ∀ wr ∈ [false, true], (blockAreas s 0 (blockWord op fmt)).flatMap
        (clashes s ⟨s.order.next, streamKey 0 1, knownTo s (streamKey 0 1)⟩ wr) = []) ∧
    (fmtScaled (fmtOf 3) = true →
      overlaps (blockAddr (at_ (blockWord 3 3)) 0 (blockWord 3 3), blockBytes (fmtOf 3)) (scaleBlockAddr (at_ (blockWord 3 3)) 0 (blockWord 3 3), 32) = false) ∧
    (∀ op ∈ [4, 5, 6, 7], let w := word op (7 * 2 ^ 43 + 15 * 2 ^ 38 + 0xFFFF80)
      ∀ wr ∈ [false, true], (storeAreas 0 (blockAddr (at_ w) 0 w) 128).flatMap
        (clashes (at_ w) ⟨(at_ w).order.next, streamKey 0 1, knownTo (at_ w) (streamKey 0 1)⟩ wr) = []) := by decide +kernel

/-- The engine instructions with a word of all ones but its opcode: each holds a reserved value. -/
theorem test_hyp_VectorMemory_reserved : ∀ op ∈ [0, 1, 2, 3, 4, 5, 6, 7, 8, 9, 0x10, 0x11, 0x12, 0x13, 0x14, 0x15, 0x16, 0x17, 0x18, 0x19, 0x1A,
      0x1B, 0x1C, 0x1D, 0x1E, 0x1F, 0x20, 0x21, 0x22, 0x23, 0x24, 0x25, 0x26, 0x27, 0x28, 0x29, 0x2A, 0x30, 0x31, 0x32, 0x33],
    let w := word op (2 ^ 56 - 1)
    inTurnB (at_ w) 1 w = true ∧ opOf w = op ∧ ((vectorChecks (at_ w) 0 w 0).map (·.2)).contains (op, false) = true := by decide +kernel

theorem test_hyp_VectorMemory_opcode : inTurnB (at_ (word 0x2B 0)) 1 (word 0x2B 0) = true ∧ opcodeDefined 1 (opOf (word 0x2B 0)) = false ∧
    opOf (word 0x2B 0) < 0xE0 := by decide +kernel

/-- A row operation's descriptor: one row of one element, all addresses 0. -/
def rowDescOf (op : Nat) : List Byte := [BitVec.ofNat 8 op] ++ List.replicate 7 0 ++ leBytes 4 1 ++ List.replicate 52 0

theorem test_hyp_RowRows : ∀ op ∈ [0, 1, 2, 3, 4, 5, 6, 7], let w := word 1 64
    let s := withMem (at_ w) (storeBase 0 + 64) (rowDescOf op)
    inTurnB s 2 w = true ∧ opOf w = 1 ∧ reservedZero w [(42, 38), (23, 0)] = true ∧ getBits w 38 5 ≤ 15 ∧
    ((scalar (stream (cluster s 0) 2) (getBits w 38 5)).toNat + getBits w 0 24) % 2 ^ 24 = 64 ∧
    rowFault (storeBytes s 0 64 64) = none ∧ (rowDesc (storeBytes s 0 64 64)).op = op ∧ rowFault (storeBytes s 0 0 64) ≠ none := by
  decide +kernel

theorem test_hyp_RowRows_complete : (cluster (turn { runner 0 [] with rowOps := [⟨63, []⟩, ⟨2, [1]⟩] }) 0).rowOps = ⟨63, []⟩ :: [⟨2, [1]⟩] := by decide +kernel

/-- A cluster whose stat entry 0 has a KIND and tag 0. -/
def statAt (kind : Nat) : State := turn { runner 0 [] with stat := [(0, pairEntry kind 0 0 0)] }

theorem test_hyp_RowRows_values :
    (let x := rowDesc (rowDescOf 0)
     validCols base 0 x 0 = 1 ∧ validCols base 0 { x with valid := 2 } 0 = 0) ∧
    (∀ op ∈ [0, 1, 2, 3, 4, 5, 6, 7], (rowDesc (rowDescOf op)).op = op) ∧
    (∀ k ∈ [1, 2, 3], let e := statEntry (cluster (statAt k) 0) ((rowDesc (rowDescOf 1)).base + 0)
      statMatches e k 0 = true ∧ statMatches e (k % 3 + 1) 0 = false ∧ fieldLe e 10 1 ≠ 0) ∧
    fieldLe (statEntry (cluster base 0) 0) 10 1 = 0 ∧ (rowDesc (rowDescOf 3)).start = false ∧ hasMain 0 = true ∧ hasMain 4 = false ∧
    (let x := rowDesc (rowDescOf 0)
     x.outFmt ≤ 2 ∧ x.addr 1 + (x.l + 31) / 32 * blockBytes (fmtOf x.outFmt) ≤ 2 ^ 24) := by decide +kernel

/-- A MOVE descriptor of a kind and direction, from GiB 1 to the store's byte 256, of 32 bytes; a SLOT_FILL has one block. -/
def moveDescOf (kind dir : Nat) : List Byte :=
  [BitVec.ofNat 8 (kind + 16 * dir), 5, 0, 0] ++ leBytes 4 32 ++ leBytes 4 1 ++ leBytes 4 0 ++ leBytes 8 (if 2 ≤ dir then 2 ^ 20 else 2 ^ 30)
    ++ leBytes 8 0
    ++ leBytes 4 256 ++ List.replicate 44 0 ++ leBytes 8 (2 ^ 30 + 64) ++ List.replicate 40 0

/-- The word of a MOVE at byte 128, biased by scalars 15 or not. -/
def moveWord (bias : Bool) : Word := word 1 ((if bias then 2 ^ 55 + 15 * 2 ^ 33 + 15 * 2 ^ 28 else 0) + 15 * 2 ^ 38 + 128)

/-- A cluster that meets a MOVE of a kind and direction with `n` outstanding. -/
def moving (kind dir : Nat) (bias : Bool) (n : Nat) : State :=
  withMem (turn { runner (moveWord bias) [] with moves := (List.range n).map (fun i => ⟨i, 1, 0, 1, none, none, []⟩) }) (storeBase 0 + 128)
    (moveDescOf kind dir)

theorem test_hyp_MoveRows : ∀ x ∈ [(0, 0, false), (0, 1, true), (1, 0, false), (1, 1, true), (2, 0, true), (3, 1, false), (4, 0, true)],
    let w := moveWord x.2.2
    let s := moving x.1 x.2.1 x.2.2 7
    let d := storeBytes s 0 128 128
    inTurnB s 3 w = true ∧ inTurnB (moving 0 0 x.2.2 8) 3 w = true ∧ (cluster (moving 0 0 x.2.2 8) 0).moves.length = 8 ∧
    opOf w = 1 ∧ reservedZero w [(55, 55), (42, 38), (37, 33), (32, 28), (23, 0)] = true ∧ insA w ≤ 15 ∧
    (natBit w.toNat 55 = true → insB w ≤ 15 ∧ insC w ≤ 15) ∧ (cluster s 0).moves.length < 8 ∧
    moveFault d (moveDesc d 0 0) = none ∧ (moveDesc d 0 0).kind = x.1 ∧ (moveDesc d 0 0).remEn = false ∧
    transfersError s 1 (sliceClusters s (cluster s 0)) 0 (moveTransfers s 0 0 (moveDesc d 0 0)) = none := by decide +kernel

theorem test_hyp_MoveRows_fault : let s := moving 0 0 false 7
    moveFault (storeBytes s 0 0 128) (moveDesc (storeBytes s 0 0 128) 0 0) ≠ none := by decide +kernel

theorem test_hyp_MoveRows_stops : (let s := moving 0 2 false 0
     let x := { moveDesc (storeBytes s 0 128 128) 0 0 with peer := 1 }
     moveFault (storeBytes s 0 128 128) (moveDesc (storeBytes s 0 128 128) 0 0) = none ∧ 2 ≤ x.dir ∧ (sliceClusters s (cluster s 0)).length ≤ x.peer) ∧
    (let s := moving 0 0 false 0
     let x := { moveDesc (storeBytes s 0 128 128) 0 0 with mem := 2 ^ 31 }
     x.kind < 4 ∧ (transfersError s 1 [0] 0 (moveTransfers s 0 0 x)).isSome = true) := by decide +kernel

theorem test_hyp_MoveRows_bell : let s := setReg (moving 0 1 false 0) .expPartDoorbell 0 1 (BitVec.ofNat 64 (2 ^ 63 + 2 ^ 30))
    let x := { moveDesc (storeBytes s 0 128 128) 0 0 with len := 128 }
    x.kind = 0 ∧ x.dir = 1 ∧ x.len = 128 ∧ doorbellOf s 1 = some x.mem ∧ transfersError s 1 [0] 0 (moveTransfers s 0 0 x) = none := by
  decide +kernel

theorem test_hyp_MoveRows_order : let s := moving 0 0 false 0
    let ts := moveTransfers s 0 0 (moveDesc (storeBytes s 0 128 128) 0 0)
    let a : StoreUse := ⟨0, streamKey 0 3, []⟩
    (readsOf placeStore ts).flatMap (clashes s a false) = [] ∧ (writesOf placeStore ts).flatMap (clashes s a true) = [] ∧
    findRun s 1 = some run1 ∧ findProgram s 1 2 = some program ∧
    (readsOf placeMemory ts).flatMap (unorderedParts run1 program 0 false) = [] := by decide +kernel

theorem test_hyp_MoveRows_slot : let s := moving 4 0 false 0
    let x := moveDesc (storeBytes s 0 128 128) 0 0
    let places := (List.range x.count).map (fun b =>
      (⟨some (.mem ((x.mask + (x.maskBit + b * x.maskStep) % 2 ^ 32 / 8) % 2 ^ 44)), .store 0 0, 1⟩ : Transfer))
    let q := slotPlan s 0 (waysOf s (some 1)) x
    x.kind = 4 ∧ transfersError s 1 [0] 0 places = none ∧ transfersError q.2.2.2 1 [0] 0 q.1 = none := by decide +kernel

theorem test_hyp_MoveRows_complete : let s := turn { runner 0 [] with moves := [⟨3, 1, 0, 5, some (0, 63), none, []⟩] }
    (cluster s 0).moves.find? (fun x => x.seq == 3) = some ⟨3, 1, 0, 5, some (0, 63), none, []⟩ ∧ moveHeld s 0 3 = false := by decide +kernel

theorem test_hyp_MoveRows_poisoned : let m : MoveOut := ⟨3, 1, 0, 5, none, some 0x2801, []⟩
    let s := turn { runner 0 [] with moves := [m] }
    (cluster s 0).moves.find? (fun x => x.seq == 3) = some m ∧ moveHeld s 0 3 = false ∧ m.poison = some 0x2801 := by decide +kernel

/-! ### Scheduling and exchanges -/

/-- A slice of cluster 0 at a status. -/
def sliceAt (st : SliceStatus) : SliceRun := ⟨st, 0, false, [0], false, false, none, 0, true, 0, 3⟩

/-- `loaded` with run 1, whose one slice is `x`. -/
def queued (x : SliceRun) : State := { loaded with runs := [{ run1 with slices := [x] }] }

/-- The module and its partition 1 have credits. -/
def funded (s : State) : State := setPartPower { s with power := { s.power with meff := 2 ^ 20 } } 1 ⟨none, 2 ^ 20, 2 ^ 30⟩

/-- The one offer of `queued (sliceAt .eligible)`. -/
def offer1 : Offer := ⟨1, 0, 0, 1, 3⟩

theorem test_hyp_SchedulerWalk_starts : let s := queued (sliceAt .eligible)
    offers s 1 = [offer1] ∧ findRun s 1 = some { run1 with slices := [sliceAt .eligible] } ∧
    programOf s { run1 with slices := [sliceAt .eligible] } = some program ∧ heldSlice s 1 = none ∧
    (∀ u ∈ [s, funded s], placeSlice u { run1 with slices := [sliceAt .eligible] } program 0 = some [0]) ∧
    covers (funded s) 1 (sliceDesc program 0) true = true ∧ covers s 1 (sliceDesc program 0) true = false ∧
    findRun (funded s) 1 = some { run1 with slices := [sliceAt .eligible] } ∧ heldSlice (funded s) 1 = none ∧
    boundBy program (sliceDesc program 0) = none ∧ s.phase = .running ∧ s.power.closeDue = false ∧
    ({ s.power with closeDue := true }).closeDue = true := by decide +kernel

theorem test_hyp_SchedulerWalk_passed :
    let s := queued (sliceAt .eligible)
    let u := setCluster (setCluster s 0 (runner 0 [])) 1 (runner 0 [])
    findRun u 1 = some { run1 with slices := [sliceAt .eligible] } ∧ heldSlice u 1 = none ∧
    placeSlice u { run1 with slices := [sliceAt .eligible] } program 0 = none ∧
    findRun (setHeld s 1 (some (4, 0))) 1 = some { run1 with slices := [sliceAt .eligible] } ∧
    heldSlice (setHeld s 1 (some (4, 0))) 1 = some (4, 0) ∧ (4, 0) ≠ (1, 0) := by decide +kernel

theorem test_hyp_SlicesEnd_hold :
    let x := { sliceAt .eligible with passedClusters := true, passedSince := some 0 }
    let s := { queued x with beat := { base.beat with waits := 2 ^ 32 } }
    (offers s 1).head? = some offer1 ∧ findRun s 1 = some { run1 with slices := [x] } ∧
    (sliceRun { run1 with slices := [x] } 0).passedSince = some 0 ∧ getBits (getReg s .prtHold 4 0) 0 32 ≠ 0 ∧
    0 + getBits (getReg s .prtHold 4 0) 0 32 ≤ s.beat.waits := by decide +kernel

/-- Run 1 holds both clusters of partition 1, past its quantum; run 2 of context 8 waits for one. -/
def crowded : State :=
  let s := setCtx { loaded with runs := [{ run1 with slices := [{ sliceAt .running with clusters := [0, 1] }] },
    { run1 with id := 2, cmd := 4, ctx := 8, slices := [{ sliceAt .eligible with passedClusters := true, everStarted := false }] }] } 8
    (ctxOf base 7)
  let s := { s with parts := [(1, ⟨.active, pd, 1, []⟩)], beat := { s.beat with waits := 1 } }
  setCluster (setCluster s 0 (runner 0 [])) 1 (runner 0 [])

theorem test_hyp_SlicesEnd_preempt : (findRun crowded 1).isSome = true ∧ (part crowded 1).quantum ≠ 0 ∧
    ∃ k ∈ yielding crowded 1, k.run = 1 ∧ k.slice = 0 := by decide +kernel

theorem test_hyp_SlicesEnd_powerHold : let s := { crowded with power := { crowded.power with hold := true } }
    (findRun s 1).isSome = true ∧ (part s 1).quantum ≠ 0 ∧ (∃ k ∈ yielding s 1, k.run = 1 ∧ k.slice = 0) ∧ s.power.hold = true ∧
    crowded.power.hold = false := by decide +kernel

/-- Streams, registers and vats as a suspension finds them. -/
theorem test_hyp_SlicesEnd_saved : (nested.pc < 2 ^ 16 ∧ nested.scalars.length = 16 ∧ nested.loops.length ≤ 4 ∧
      ∀ f ∈ nested.loops, f.first < 2 ^ 16 ∧ f.last < 2 ^ 16 ∧ f.left < 2 ^ 32) ∧
    (let v := runner 0 []
     v.streams.length = 4 ∧ v.vats.length = 4 ∧ v.vec.rows < 2 ^ 16 ∧ v.vec.cols < 2 ^ 16) ∧
    (let t := { Vat.reset with acc := some { vop with nextPos := 0 }, queued := some vop }
     t.acc = some vop ∧ vop.desc.length = 128 ∧ vop.addr < 2 ^ 32 ∧ vop.nextPos < 2 ^ 34 ∧ (∀ q ∈ t.queued, q.desc.length = 128 ∧ q.addr < 2 ^ 32) ∧
     (vatDesc vop.desc).k0 ≤ vop.nextPos ∧ vop.nextPos < (vatDesc vop.desc).k0 + (vatDesc vop.desc).k ∧ vop.nextPos % 4 = 0) := by decide +kernel

/-- Every token and stat entry of a cluster that has just started is 0 (R151). -/
theorem test_hyp_SlicesEnd_started (n : Nat) : tokenOf (runner 0 []) n < 2 ^ 32 ∧ (statEntry (runner 0 []) n).length = 16 := by
  constructor <;> simp [tokenOf, statEntry, runner, Cluster.reset, mapGet, unlistedStat]

/-- An area's image has 16 MiB. -/
theorem test_hyp_SlicesEnd_image : (List.replicate (2 ^ 24) (0 : Byte)).length = 2 ^ 24 := List.length_replicate

/-- `program` with its slice in the cask. -/
def caskProgram : Program := { program with slices := [⟨[0, 0, 0, 0], 1, 1, 1, [], [0xFFFF, 0xFFFF, 0xFFFF, 0xFFFF], 1⟩] }

theorem test_hyp_SlicesEnd_promote :
    let s := { queued (sliceAt .eligible) with programs := [caskProgram], beat := { base.beat with waits := 65536 } }
    findRun s 1 = some { run1 with slices := [sliceAt .eligible] } ∧
    programOf s { run1 with slices := [sliceAt .eligible] } = some caskProgram ∧ inCask caskProgram 0 (sliceAt .eligible) = true ∧
    (sliceAt .eligible).since + 65536 ≤ s.beat.waits := by decide +kernel

theorem test_hyp_SlicesEnd_complete : let s := turn { runner 0 [] with state := .finishing }
    findRun s 1 = some run1 ∧ programOf s run1 = some program ∧ sliceFinished s (sliceRun run1 0) = true := by decide +kernel

/-- A run of two slices whose first has finished. -/
def twoSlices : Run := { run1 with slices := [sliceAt .running, sliceAt .eligible] }

theorem test_hyp_SlicesEnd_completed :
    let s := setCluster { loaded with runs := [twoSlices] } 0 { runner 0 [] with state := .finishing }
    findRun s 1 = some twoSlices ∧ 0 < twoSlices.slices.length ∧ (findRun (completeSlice s twoSlices program 0 [5]) 1).isSome = true ∧
    run1.gated = false := by decide +kernel

/-- A gate past its warm-up whose spike factor is 2.0. -/
def gate1 (mean : Option F32) : Gate := ⟨true, 1, 0x40000000#32, 0, mean, 1, 0, false, 0⟩

theorem test_hyp_CommitGate : ({ gate1 none with armed := false } : Gate).armed = false ∧
    ({ gate1 none with seen := 0 } : Gate).seen < (gate1 none).warmup ∧ (gate1 none).warmup ≤ (gate1 none).seen ∧
    (judge (gate1 none) 1 none).cause.isSome = true ∧
    (judge (gate1 none) 0 (some 0x3F800000#32)).update = true ∧ (judge (gate1 (some 0x3F800000#32)) 0 (some 0x3F800000#32)).update = true ∧
    f32NonFinite 0x3F800000#32 = false ∧
    (judge { gate1 none with seen := 0 } 0 (some 0x7F800000#32)).update = true ∧ (some 0x7F800000#32).all f32NonFinite = true := by
  decide +kernel

/-- An exchange descriptor of an OP: no routes, no rows, one token or no count. -/
def exchBytes (op recv n : Nat) : List Byte := [BitVec.ofNat 8 (op + 16 * recv)] ++ List.replicate 7 0 ++ leBytes 4 n ++ List.replicate 116 0

/-- The request of cluster 0 with it. -/
def exchReq (op recv n : Nat) : ExchReq := ⟨0, none, exchBytes op recv n, 1, 0, 0, 1, 0⟩

/-- A module whose tile-0 engine holds a request, with CAP 1. -/
def exchanging (r : ExchReq) : State :=
  setExch (setReg (turn (runner 0 [])) .expPartShape 0 1 1#64) 0 ⟨[r], [], [], []⟩

theorem test_hyp_Exchanges_start : ∀ x ∈ [(0, 0, 1), (1, 0, 0), (2, 0, 1), (3, 0, 0), (3, 2, 1), (4, 0, 1)],
    let r := exchReq x.1 x.2.1 x.2.2
    let s := exchanging r
    s.phase = .running ∧ firstRequest x.1 [] (exchEngine s 0).queue = some r ∧ exchFault (exchConfig s 1) r.desc = none ∧
    exchFault (exchConfig s 1) (exchReq x.1 3 5).desc ≠ none ∧
    firstRequest x.1 [] (exchEngine (exchanging (exchReq x.1 3 5)) 0).queue = some (exchReq x.1 3 5) := by decide +kernel

/-- A running exchange. -/
def exchRun1 (receive : Bool) (expect : Nat) (remote : Bool) : ExchRun := ⟨exchReq 3 0 0, 1, 0, 0, 0, expect, receive, 0, remote⟩

theorem test_hyp_Exchanges_complete : ∀ v ∈ [exchRun1 true 0 false, exchRun1 true 1 false, exchRun1 false 0 true],
    let s := { setExch (turn (runner 0 [])) 0 ⟨[], [], [v], []⟩ with beat := { base.beat with waits := 2 ^ 32 } }
    exchRun s 0 0 = some v ∧ recordsFor (exchEngine s 0) v = 0 ∧ v.since + getBits (getReg s .expRecvLimit 0 0) 0 32 ≤ s.beat.waits ∧
    exchServer s v.req = some 0 ∧ exchServer base v.req = none ∧ exchLives (queued (sliceAt .suspended)) v.req = true ∧
    exchLives base v.req = false := by decide +kernel

theorem test_hyp_Exchanges_doorbell :
    let s := setReg (turn (runner 0 [])) .expPartDoorbell 0 1 (BitVec.ofNat 64 (2 ^ 63 + 2 ^ 30))
    clusterServes (cluster s 0) = true ∧ isDoorbell s ((g1 0).toNat / 128) = true ∧ (g1 0).toNat % 128 + 128 ≤ 128 ∧
    writeLost (storeLine s (waysOf s (some 1)) (g1 0).toNat (List.replicate 128 0)) (g1 0).toNat 128 = none ∧
    doorbellOf s 1 = some (g1 0).toNat ∧ (g1 96).toNat % 128 + 32 ≤ 128 ∧ isDoorbell s ((g1 96).toNat / 128) = true ∧
    doorbellOf s 1 ≠ some (g1 96).toNat ∧ accessError s (some 1) 0 (g1 96).toNat 32 = none := by decide +kernel

theorem test_hyp_Exchanges_records : base.phase = .running ∧ partActive base 1 = true ∧ (exchEngine base 0).queue.length < 256 ∧
    (exchEngine base 0).held = [] ∧
    256 ≤ (exchEngine (setExch base 0 ⟨List.replicate 256 (exchReq 0 0 1), [], [], []⟩) 0).queue.length := by decide +kernel

theorem test_hyp_Exchanges_arrive : base.beat.synced = false ∧ { base.beat with synced := true }.synced = true ∧
    (let v := exchRun1 false 0 true
     let s := setExch (turn (runner 0 [])) 0 ⟨[], [], [v], []⟩
     exchRun s 0 0 = some v ∧ v.receive = false ∧ exchUnsent s v = false ∧
     exchUnsent { s with exchWait := [⟨2, 0, ⟨1, 0, 0, 0, []⟩⟩] } v = true) := by decide +kernel

/-! ### Coherence -/

/-- A message of line 2^23 (GiB 1) with tag 5: its type, its agent, its OFFSET, AOP with flags, EMASK and payload. -/
def msg (typ src off aop emask : Nat) (payload : List Byte) : CohMsg :=
  let h := [BitVec.ofNat 8 typ, BitVec.ofNat 8 src] ++ leBytes 2 5 ++ leBytes 5 (2 ^ 23) ++
    [0, BitVec.ofNat 8 off, BitVec.ofNat 8 aop, BitVec.ofNat 8 emask, 0, 0, 0]
  ⟨h ++ leBytes 4 (crc32c (h ++ payload)), payload⟩

/-- `n` bytes of zeros. -/
def zeros (n : Nat) : List Byte := List.replicate n 0

/-- A request of a type by agent 5. -/
def request (typ : ReqType) (tag : Nat) : CohReq := ⟨typ, 5, tag, 2 ^ 23, false, 0, 0, false, 0, []⟩

theorem test_hyp_HomeRequests_admitted :
    ∀ x ∈ [(ReqType.rdShared, 0x01, 0, 0), (.rdOwn, 0x02, 0, 0), (.upgrade, 0x03, 0, 0), (.rdNc, 0x06, 0, 0), (.wrNc, 0x07, 0, 144),
      (.reduce, 0x09, 2, 32)],
    let m := msg x.2.1 5 0 x.2.2.1 255 (zeros x.2.2.2)
    let open_ := { base with txns := [⟨0, request .rdOwn 6, [(7, 2 ^ 23)], 0⟩] }
    cohBad m = false ∧ (cohHdr m).typ = x.2.1 ∧ isMemory base (128 * (cohHdr m).line) = true ∧ homeOf base (128 * (cohHdr m).line) = 0 ∧
    (cohHdr m).src < 132 ∧ agentFailed base (cohHdr m).src = false ∧ isRetired base (128 * (cohHdr m).line) = false ∧
    canAdmit base 0 (cohHdr m).line = true ∧ canAdmit open_ 0 (cohHdr m).line = false ∧ (cohHdr m).src < 216 := by decide +kernel

theorem test_hyp_HomeRequests_atomic : ∀ aop ∈ [0, 1, 2, 3, 4, 5, 6, 7, 8, 9, 10, 11, 12, 13],
    let m := msg 0x08 200 124 aop 0 (zeros 16)
    cohBad m = false ∧ (cohHdr m).typ = 0x08 ∧ (cohHdr m).aop = aop := by decide +kernel

theorem test_hyp_HomeRequests_bad : cohBad (msg 0x08 5 2 0 0 (zeros 16)) = true ∧ cohBad (msg 0x01 5 0 0 0 [1]) = true := by decide +kernel

theorem test_hyp_HomeRequests_entry : dirEntry base (request .rdOwn 5).line = none ∧
    (dirEntriesOf base 0 (dirSet (request .rdOwn 5).line)).length < 16 ∧
    let s := { base with dir := [(2 ^ 23, some ⟨true, [7], 0⟩)] }
    dirEntry s (request .rdOwn 5).line = some ⟨true, [7], 0⟩ ∧ agentFailed s 7 = false ∧ 7 ≠ (request .rdOwn 5).src ∧
    (request .rdOwn 5).typ ≠ .writeBack ∧ (request .rdOwn 5).typ ≠ .evict := by decide +kernel

theorem test_hyp_HomeRequests_queue : (∀ x ∈ reservedOf base 0, x.src ≠ 5) ∧ (homeQueueOf base 0).length < 1024 ∧
    canAdmit base 0 (2 ^ 23) = true ∧ canAdmit { base with txns := [⟨0, request .rdOwn 6, [(7, 2 ^ 23)], 0⟩] } 0 (2 ^ 23) = false ∧
    (∃ x ∈ reservedOf { base with reserved := [(0, [request .rdNc 9])] } 0, x.src = (request .rdOwn 5).src) ∧
    let s := { base with homeQueue := [(0, List.replicate 1024 (request .rdNc 9))] }
    1024 ≤ (homeQueueOf s 0).length ∧ canAdmit s 0 (2 ^ 23) = false := by decide +kernel

/-- A line of the cellar, and the module that holds it. -/
def celLine (poison : BitVec 4) : CelLine := ⟨3, zeros 128, true, poison⟩
/-- `base` with it. -/
def celled (poison : BitVec 4) : State := { base with cellar := [(2 ^ 23, some (celLine poison))] }

theorem test_hyp_HomeEffects : cellarLine (celled 0) (2 ^ 23) = some (celLine 0) ∧ (celLine 0).data.length = 128 ∧ (celLine 0).poison = 0#4 ∧
    (zeros 144).length = 144 ∧ (zeros 32).length = 32 ∧
    (∀ x ∈ [(12, 124, false), (9, 120, true), (13, 120, true)], let r : CohReq := { request .atomic 5 with offset := x.2.1, aop := x.1, size8 := x.2.2 }
      r.offset + (if r.size8 then 8 else 4) ≤ 128 ∧ r.src < 256) ∧
    holdsReservation (celled 0) 0 5 (2 ^ 23) = false ∧
    holdsReservation { celled 0 with reservations := [(5, some (2 ^ 23))] } 0 5 (2 ^ 23) = true ∧
    (∀ x ∈ [(7, false), (3, true)], x.1 * (if x.2 then 8 else 4) < 32 ∧ 96 + 32 ≤ 128) ∧
    cellarLine (celled 8) (2 ^ 23) = some (celLine 8) ∧ natBit (celLine 8).poison.toNat (96 / 32) = true := by decide +kernel

/-- Agent `src`'s outstanding request of type `typ` for line 2^23. -/
def asked (src : Nat) (typ : ReqType) : Outstanding := ⟨{ request typ 5 with src := src }, 8, 0, if src = 132 then some (1, 0) else none⟩

/-- Cluster 0 runs, and agent `src` awaits a reply. -/
def awaiting (src : Nat) (typ : ReqType) : State :=
  { turn (runner 0 []) with outstanding := [asked src typ], copies := [⟨5, 2 ^ 23, false, zeros 128⟩] }

theorem test_hyp_RequesterMessages_replies :
    ∀ x ∈ [(0x10, 5, 128, ReqType.rdShared), (0x10, 5, 128, .rdNc), (0x11, 5, 128, .rdOwn), (0x12, 5, 0, .upgrade), (0x13, 5, 0, .wrNc),
      (0x14, 5, 8, .atomic), (0x15, 5, 0, .rdOwn), (0x16, 132, 2, .rdNc), (0x16, 133, 2, .rdNc), (0x17, 5, 0, .rdNc)],
    let m := msg x.1 x.2.1 0 0 0 (zeros x.2.2.1)
    cohBad m = false ∧ (cohHdr m).typ = x.1 ∧
    findOutstanding (awaiting x.2.1 x.2.2.2) (cohHdr m) = some (asked x.2.1 x.2.2.2) ∧
    (x.2.1 = 132 → moverServes (awaiting x.2.1 x.2.2.2) 132 = (asked 132 x.2.2.2).serves) ∧
    (x.2.1 = 133 → moverServes (awaiting x.2.1 x.2.2.2) 133 = none) := by decide +kernel

theorem test_hyp_RequesterMessages_snoops : (∀ code ∈ [0x20, 0x21, 0x22], cohBad (msg code 5 0 0 0 []) = false ∧
      (cohHdr (msg code 5 0 0 0 [])).typ = code ∧ (cohHdr (msg code 5 0 0 0 [])).line = 2 ^ 23) ∧
    base.copies.find? (fun c => c.agent == 5 && c.line == 2 ^ 23) = none ∧
    (awaiting 9 .rdNc).copies.find? (fun c => c.agent == 5 && c.line == 2 ^ 23) = some ⟨5, 2 ^ 23, false, zeros 128⟩ ∧
    (AgentLine.clean ≠ .gone ∧ AgentLine.modified (zeros 128) ≠ .gone) ∧
    let s := { base with copies := [⟨5, 2 ^ 23, true, zeros 128⟩] }
    s.copies.find? (fun c => c.agent == 5 && c.line == 2 ^ 23) = some ⟨5, 2 ^ 23, true, zeros 128⟩ := by decide +kernel

/-- A request of agent `src` that no mover's slice waits for. -/
theorem test_hyp_RequesterMessages_units : (∀ src ∈ [5, 133, 196, 200, 204, 208], let s := awaiting src .rdNc
      ¬((asked src .rdNc).serves.isSome = true ∧ moverServes s src = (asked src .rdNc).serves)) ∧
    ((asked 132 .rdNc).serves.isSome = true ∧ moverServes (awaiting 132 .rdNc) 132 = (asked 132 .rdNc).serves) ∧
    (exchEngine (setExch base 0 ⟨[], [], [exchRun1 true 1 false], []⟩) (196 % 4)).running = exchRun1 true 1 false :: [] := by decide +kernel

theorem test_hyp_HomeProgress_writeBack : let m := msg 0x04 5 0 32 0 (zeros 128)
    let e := msg 0x05 5 0 0 0 []
    cohBad m = false ∧ (cohHdr m).typ = 0x04 ∧ (cohHdr m).dirty = true ∧ agentFailed base (cohHdr m).src = false ∧
    (∀ t ∈ base.txns, t.awaiting.contains ((cohHdr m).src, (cohHdr m).line) = false) ∧
    (let s := { base with dir := [(2 ^ 23, some ⟨true, [5], 0⟩)] }
     dirEntry s (cohHdr m).line = some ⟨true, [(cohHdr m).src], 0⟩ ∧ pinned s (cohHdr m).line = false ∧
     isRetired s (128 * (cohHdr m).line) = false ∧ agentFailed s (cohHdr m).src = false ∧ s.txns = []) ∧
    cohBad e = false ∧ (cohHdr e).typ = 0x05 ∧
    dirEntry { base with dir := [(2 ^ 23, some ⟨false, [5, 6], 0⟩)] } (cohHdr e).line = some ⟨false, [5, 6], 0⟩ ∧ (cohHdr e).src ∈ [5, 6] ∧
    ∀ a ∈ [5, 6], agentFailed base a = false := by decide +kernel

/-- A transaction of home 0 that awaits agent 5's answer. -/
def txn5 : Txn := ⟨0, { request .rdOwn 5 with src := 6 }, [(5, 2 ^ 23)], 0⟩
/-- `base` with it, `n` beats later. -/
def snooping (n : Nat) : State := { base with txns := [txn5], beat := { base.beat with waits := n } }

theorem test_hyp_HomeProgress_answers : cohBad (msg 0x28 5 0 0 0 []) = false ∧ (cohHdr (msg 0x28 5 0 0 0 [])).typ = 0x28 ∧
    cohBad (msg 0x29 5 0 32 0 (zeros 128)) = false ∧ (cohHdr (msg 0x29 5 0 32 0 (zeros 128))).typ = 0x29 ∧
    (snooping 0).txns.find? (fun t => t.home == 0 && t.awaiting.contains (5, 2 ^ 23)) = some txn5 ∧ txn5.awaiting = [(5, 2 ^ 23)] ∧
    txn5.req.tag = (cohHdr (msg 0x28 5 0 0 0 [])).tag ∧ txn5.req.tag = (cohHdr (msg 0x29 5 0 32 0 (zeros 128))).tag ∧
    (snoopType txn5 (2 ^ 23) = 0x22 ∧ snoopType { txn5 with req := { txn5.req with typ := .rdNc } } (2 ^ 23) = 0x21) ∧
    (let x : Txn := ⟨0, { request .rdOwn 5 with src := 6, line := 2 ^ 23 + 32768 }, [(5, 2 ^ 23)], 0⟩
     x.awaiting = [(5, 2 ^ 23)] ∧ 2 ^ 23 ≠ x.req.line) ∧
    txn5.req.typ ≠ .rdShared ∧ (let x := { txn5 with req := { txn5.req with typ := .rdShared } }
      x.awaiting = [(5, 2 ^ 23)] ∧ x.req.typ = .rdShared ∧ 2 ^ 23 = x.req.line) := by
  decide +kernel

theorem test_hyp_HomeProgress_waiting : let set := dirSet (2 ^ 23)
    set < 32768 ∧ openInSet base 0 set < 8 ∧
    nextWaiting { base with reserved := [(0, [request .rdNc 5])] } set (reservedOf { base with reserved := [(0, [request .rdNc 5])] } 0)
      = some (request .rdNc 5) ∧
    nextWaiting base set (reservedOf base 0) = none ∧
    nextWaiting { base with homeQueue := [(0, [request .rdNc 5])] } set (homeQueueOf { base with homeQueue := [(0, [request .rdNc 5])] } 0)
      = some (request .rdNc 5) ∧ agentFailed base (request .rdNc 5).src = false ∧ isRetired base (128 * (request .rdNc 5).line) = false ∧
    isRetired (retiredUnits 1 (2 ^ 18)) (128 * (request .rdNc 5).line) = true ∧ (request .rdNc 5).src < 132 ∧
    agentFailed (setReg base .dirAgentStatus 0 0 0x20#64) (request .rdNc 5).src = true := by decide +kernel

theorem test_hyp_HomeProgress_timeout :
    (snooping 64).txns.find? (fun t => t.home == 0 && t.awaiting.any (fun p => p.2 == 2 ^ 23)) = some txn5 ∧
    txn5.since + 64 ≤ (snooping 64).beat.waits ∧ (∀ p ∈ txn5.awaiting, p.1 < 132) ∧
    let s := { base with outstanding := [asked 5 .rdNc], beat := { base.beat with waits := 128 } }
    s.outstanding.find? (fun o => o.req.src == 5 && o.req.tag == 5) = some (asked 5 .rdNc) ∧ (asked 5 .rdNc).since + 128 ≤ s.beat.waits ∧
    isMemory s (128 * (asked 5 .rdNc).req.line) = true ∧
    let t := { awaiting 132 .rdNc with beat := { base.beat with waits := 128 } }
    t.outstanding.find? (fun o => o.req.src == 132 && o.req.tag == 5) = some (asked 132 .rdNc) ∧
    (asked 132 .rdNc).since + 128 ≤ t.beat.waits ∧ moverServes t 132 = (asked 132 .rdNc).serves := by decide +kernel

/-- Agent 5's message of the line at `line`. -/
def msgAt (typ off line : Nat) (payload : List Byte) : CohMsg :=
  let h := [BitVec.ofNat 8 typ, 5] ++ leBytes 2 5 ++ leBytes 5 line ++ [0, BitVec.ofNat 8 off, 0, 0, 0, 0, 0]
  ⟨h ++ leBytes 4 (crc32c (h ++ payload)), payload⟩

theorem test_hyp_HomeProgress_outside : ∀ m ∈ [msgAt 4 32 (2 ^ 37 - 1) (zeros 128), msgAt 5 0 (2 ^ 37 - 1) []],
    cohBad m = false ∧ ((cohHdr m).typ = 0x04 ∨ (cohHdr m).typ = 0x05) ∧ agentFailed base (cohHdr m).src = false ∧
    isMemory base (128 * (cohHdr m).line) = false := by decide +kernel

theorem test_hyp_HomeReadsBack : isRetired base (2 ^ 30 + 96) = false ∧ (2 ^ 30 + 96) % 32 = 0 ∧ (zeros 32).length % 32 = 0 ∧
    0 < (zeros 32).length ∧ (2 ^ 30 + 96) % 128 + (zeros 32).length ≤ 128 ∧
    cellarLine base ((2 ^ 30 + 96) / 128) = none ∧ cellarLine (celled 0) ((2 ^ 30 + 96) / 128) = some (celLine 0) ∧
    (celLine 0).data.length = 128 ∧ (celLine 0).dirty = true ∧ (celLine 0).poison = 0#4 ∧
    isDown (celled 0) (unitOf (celled 0) (128 * 2 ^ 23)) = false := by decide +kernel

theorem test_hyp_HomeReadsBack_ready : (∀ s ∈ [base, celled 0], homeReady s ((2 ^ 30 + 96) / 128) ∧ lostOwner s ((2 ^ 30 + 96) / 128) = false ∧
      ownerOf s ((2 ^ 30 + 96) / 128) = none) ∧
    canAdmit ownerLost (homeOf ownerLost (128 * 2 ^ 23)) (2 ^ 23) = true ∧ isRetired ownerLost (2 ^ 30) = false ∧
    lostOwner ownerLost (2 ^ 30 / 128) = true := by
  unfold homeReady; decide +kernel

/-- `base` with `n` latent bit errors in the first sector of GiB 1. -/
def errored (n : Nat) : State := { base with bitErrs := [(2 ^ 25, n)] }

theorem test_hyp_MemoryEvents_sectors : base.phase ≠ .off ∧
    isDown { base with unitDown := (List.range 32).map (fun u => (u, true)) } (unitOf base (32 * 2 ^ 25)) = true ∧
    (∀ n ∈ [1, 2, 3], sectorErrors (errored n) (2 ^ 25) = n ∧ sectorPoison (errored n) (2 ^ 25) = false ∧
      isDown (errored n) (unitOf (errored n) (32 * 2 ^ 25)) = false) ∧
    (zeros 32).length = 32 ∧ (mapGet (fun _ => (0, 0)) base.inject (unitSite (unitOf base (32 * 2 ^ 25)))).1 = 0 ∧
    let s := { base with inject := [(unitSite (unitOf base (32 * 2 ^ 25)), (3, 2 ^ 25))] }
    (mapGet (fun _ => (0, 0)) s.inject (unitSite (unitOf s (32 * 2 ^ 25)))) = (3, 2 ^ 25) := by decide +kernel

theorem test_hyp_MemoryEvents_rows : base.phase = .running ∧
    (∃ b, natBit (getReg base .memCfg 0 0).toNat 0 = b) ∧ tileHeld base 0 = true ∧ tileHeld base 1 = false ∧
    isMemory base (32 * (2 ^ 25)) = true ∧ isRetired base (32 * 2 ^ 25) = false ∧ base.beat.lost = false ∧
    natBit (scrubReg (setReg base .memScrub 0 0 (BitVec.ofNat 64 (2 ^ 40))) (unitOf base (32 * 2 ^ 25))).toNat 40 = true ∧
    capAbsent base 0 = false ∧ (mapGet (fun _ => (⟨[], false⟩ : ReportQueue)) base.reports 0).reports = [] ∧
    (mapGet (fun _ => (⟨[], false⟩ : ReportQueue)) { base with reports := [(0, ⟨[⟨2 ^ 30, 1, 3⟩], true⟩)] }.reports 0).reports
      = [⟨2 ^ 30, 1, 3⟩] ∧ Agent.mmc ≠ .core 0 := by
  refine ⟨rfl, ⟨_, rfl⟩, ?_⟩
  decide +kernel

/-! ### The network -/

/-- A packet of package 2 to package `dst`: its type, flags, path, sequence number, hops, NAK code, address, message and payload. -/
def pkt (typ flags dst epoch path seq hops nak addr msg : Nat) (payload : List Byte) : Packet :=
  let h := beBytes 1 (0x10 + typ) ++ beBytes 1 flags ++ beBytes 2 payload.length ++ beBytes 2 2 ++ beBytes 2 dst ++ beBytes 4 epoch ++
    beBytes 2 path ++ beBytes 3 seq ++ beBytes 1 hops ++ beBytes 3 seq ++ beBytes 1 nak ++ beBytes 2 0 ++ beBytes 8 addr ++ beBytes 4 msg
  ⟨h ++ beBytes 4 (crc32c h), payload⟩

/-- Package 1 whose transport runs, port 0 up, and that has recorded epoch 7 of package 2. -/
def netted : State :=
  let s := setPort (setReg base .netPkgId 0 0 1#64) 0 { Port.reset with up := true }
  { s with beat := { s.beat with synced := true }, epochs := [(2, some 7), (65538, some 7), (131074, some 7), (196610, some 7)] }

/-- The head of a supported frame, with CE. -/
def fhead : FrameHead := ⟨true, false, 1, false, false, false⟩

/-- `arrives` as a test. -/
def arrivesB (s : State) (n : Nat) (f : FrameHead) (p : Packet) : Bool :=
  s.phase == .running && (port s n).up && !f.corrupt && !frameBad f p

theorem arrives_of {s : State} {n : Fin 16} {f : FrameHead} {p : Packet} (e : arrivesB s n.val f p = true) : arrives s n f p := by
  simp only [arrivesB, Bool.and_eq_true, beq_iff_eq, Bool.not_eq_true'] at e
  exact ⟨e.1.1.1, e.1.1.2, e.1.2, e.2⟩

/-- `reaches` as a test. -/
def reachesB (s : State) (n : Nat) (f : FrameHead) (p : Packet) : Bool :=
  arrivesB s n f p && headerOk p && (netHdr p.hdr).dst == ownPkg s && payloadOk (netHdr p.hdr).typ p.payload && transportOn s

theorem reaches_of {s : State} {n : Fin 16} {f : FrameHead} {p : Packet} (e : reachesB s n.val f p = true) : reaches s n f p := by
  simp only [reachesB, Bool.and_eq_true, beq_iff_eq] at e
  exact ⟨arrives_of e.1.1.1.1, e.1.1.1.2, e.1.1.2, e.1.2, e.2⟩

/-- A READ_REQ's payload: 32 bytes to their place. -/
def readReq : List Byte := beBytes 8 (2 ^ 30) ++ beBytes 4 32 ++ beBytes 4 0

theorem test_hyp_NumberedPackets_rows :
    (∀ x ∈ [(0, zeros 32, (none : Option Nat)), (1, readReq, none), (2, zeros 32, none), (5, [0], some 0), (5, [1], some 1), (5, [2], some 2),
      (5, [3], some 3), (5, [4], some 4), (5, [5], some 5), (5, [6], some 6), (5, [7], some 7)],
    let p := pkt x.1 0 1 7 3 9 1 0 (2 ^ 30) 4 x.2.1
    reachesB netted 0 fhead p = true ∧ (netHdr p.hdr).typ = x.1 ∧ (∀ k ∈ x.2.2, fieldBe p.payload 0 1 % 16 = k) ∧
    epochOf netted (netHdr p.hdr).tile (netHdr p.hdr).src = some (netHdr p.hdr).epoch) ∧
    reaches netted 0 fhead (pkt 0 0 1 7 3 9 1 0 (2 ^ 30) 4 (zeros 32)) := ⟨by decide +kernel, reaches_of (by decide +kernel)⟩

/-- The header of a WRITE of path 3 with OPEN or not. -/
def hdr3 (flags seq : Nat) : NetHdr := netHdr (pkt 0 flags 1 7 3 seq 1 0 (2 ^ 30) 4 (zeros 32)).hdr

/-- `netted` with the inbound path 3 of package 2. -/
def pathed (v : InPath) : State := { netted with inPaths := [(inKey 3 0, some v)] }
/-- The path, which expects number `n` and has consumed `owed` packets that no ACK covers. -/
def path3 (n owed : Nat) : InPath := ⟨2, 3, n, 5, owed, 0, false⟩

theorem test_hyp_NumberedPackets_paths : findIn netted (hdr3 0 9).src (hdr3 0 9).path = none ∧ (hdr3 0 9).open_ = false ∧
    (hdr3 8 9).open_ = true ∧ findIn netted (hdr3 8 9).src (hdr3 8 9).path = none ∧
    freeIn netted (hdr3 8 9).tile = some (inKey 3 0) ∧ (hdr3 0 9).typ = 0 ∧
    (∀ x ∈ [(0, 9), (8, 5), (0, 5), (0, 10)], findIn (pathed (path3 x.2 0)) (hdr3 x.1 9).src (hdr3 x.1 9).path = some (inKey 3 0, path3 x.2 0)) ∧
    ((hdr3 0 9).seq + 2 ^ 24 - 9) % 2 ^ 24 = 0 ∧ ((hdr3 8 9).seq + 2 ^ 24 - 5) % 2 ^ 24 = 4 ∧ (hdr3 0 9).open_ = false ∧
    2 ^ 23 ≤ ((hdr3 0 9).seq + 2 ^ 24 - 10) % 2 ^ 24 := by decide +kernel

/-- A path of package 9. -/
def path9 : InPath := ⟨9, 3, 0, 5, 0, 0, false⟩

theorem mapGet_pairs (d : Nat → Option InPath) (n k m : Nat) (h : k < n) :
    mapGet d ((List.range' m n).map (fun k => (k, some path9))) (m + k) = some path9 := by
  induction n generalizing k m with
  | zero => omega
  | succ n ih =>
    cases k with
    | zero => simp [List.range', mapGet]
    | succ k =>
      have e := ih k (m + 1) (by omega)
      rw [show m + 1 + k = m + (k + 1) by omega] at e
      simpa [List.range', mapGet] using e

/-- A table with no free entry. -/
theorem test_hyp_NumberedPackets_full : ∃ s : State, freeIn s (hdr3 8 9).tile = none ∧ findIn s (hdr3 8 9).src (hdr3 8 9).path = none := by
  refine ⟨{ netted with inPaths := (List.range' 0 (4 * 4096)).map (fun k => (k, some path9)) }, ?_, ?_⟩
  · have t : (hdr3 8 9).tile = 3 := by decide +kernel
    simp only [freeIn, Option.map_eq_none_iff, List.find?_eq_none, List.mem_range, t]
    intro e he
    have := mapGet_pairs (fun _ => none) (4 * 4096) (inKey 3 e) 0 (by unfold inKey; omega)
    rw [Nat.zero_add] at this
    simp [inPath, this]
  · simp only [findIn, List.findSome?_eq_none_iff, List.mem_map]
    rintro x ⟨k, -, rfl⟩
    have : (hdr3 8 9).src = 2 := by decide +kernel
    simp [this, path9]

/-- Window `w` of partition 1: GiB 1, for any package, read and write. -/
def windowed (w : Nat) : State :=
  setReg (setReg (setReg netted .netWindow 0 w (BitVec.ofNat 64 (2 ^ 30))) .netWindow 0 w (BitVec.ofNat 64 (2 ^ 31 - 32)) 1) .netWindow 0 w
    (BitVec.ofNat 64 (2 ^ 63 + 2 ^ 56 + 2 ^ 54 + 2 ^ 53 + 65535 * 2 ^ 16)) 2

theorem test_hyp_NumberedPackets_windows : (hdr3 0 9).addr % 2 ^ 48 = 2 ^ 30 ∧ 2 ^ 30 < 2 ^ 44 ∧
    (∀ x < 64, ¬(windowCovers netted x .write 0 (2 ^ 30) 32 = true ∧ windowFrom netted x (hdr3 0 9).src = true)) ∧
    (∀ right ∈ [Right.read, Right.write],
      (List.range 64).find? (fun x => windowCovers (windowed 63) x right 0 (2 ^ 30) 32 && windowFrom (windowed 63) x (hdr3 0 9).src) = some 63) ∧
    windowPart (windowed 63) 63 = 1 ∧ partActive (windowed 63) 1 = true ∧ accessError (windowed 63) (some 1) 3 (2 ^ 30) 32 = none := by
  decide +kernel

theorem test_hyp_NumberedPackets_outside : let s := { windowed 63 with parts := [] }
    partActive s (windowPart s 63) = false ∧
    (List.range 64).find? (fun x => windowCovers s x .read 0 (2 ^ 30) 32 && windowFrom s x (hdr3 0 9).src) = some 63 ∧
    let t := { windowed 63 with parts := [(1, ⟨.active, { pd with extents := [(2, 1)] }, 0, []⟩)] }
    partActive t 1 = true ∧ windowPart t 63 = 1 ∧ (accessError t (some 1) 3 (2 ^ 30) 32).isSome = true ∧ inStore (2 ^ 30) = false ∧
    (rangeIsMemory t (2 ^ 30) 32 && inPartition t 1 (2 ^ 30) 32) = false := by decide +kernel

/-- A read of `n` bytes to GiB 1 from package 2, of command 3. -/
def reading (n : Nat) : State := { busy (.nop h5) .remoteRead with reads := [⟨3, some 1, 2, 3, 4, 2 ^ 30, n, 0⟩] }

theorem test_hyp_NumberedPackets_reads : (∀ n ∈ [32, 64],
    readOf (reading n) (hdr3 0 9) (zeros 32).length = some ⟨3, some 1, 2, 3, 4, 2 ^ 30, n, 0⟩ ∧
    (n = 32 → n ≤ 0 + (zeros 32).length) ∧ (n = 64 → 0 + (zeros 32).length < n)) ∧
    (hdr3 0 9).addr / 2 ^ 44 % 16 < 2 ∧ readOf netted (hdr3 0 9) (zeros 32).length = none ∧
    2 ≤ (netHdr (pkt 2 0 1 7 3 9 1 0 (2 ^ 45 + 2 ^ 30) 4 (zeros 32)).hdr).addr / 2 ^ 44 % 16 := by decide +kernel

/-- A packet's header with a wrong HCRC. -/
def spoiled (p : Packet) : Packet := ⟨p.hdr.take 36 ++ [1, 2, 3, 4], p.payload⟩

/-- `netted` with one unacknowledged packet of path 3 to package 2, number 9 of message 4, the last of command 3's write. -/
def sent (resends : Nat) : State :=
  let s := { netted with cmds := [waiting (.nop h5) (.remoteWrite 1 3 none)], nextCmd := 4, beat := { netted.beat with waits := 2 ^ 32 } }
  setOutPath s (pathKey 2 3) { OutPath.fresh with unacked := [⟨9, pkt 0 1 2 7 3 9 1 0 0 4 (zeros 32), some 3, true⟩], resends := resends, rate := 5 }

theorem test_hyp_ControlPackets_discard : ∀ typ ∈ [0, 1, 2, 3, 4, 6], let p := spoiled (pkt typ 0 1 7 3 9 1 0 (2 ^ 30) 4 [])
    netted.phase = .running ∧ (port netted 0).up = true ∧ (netHdr p.hdr).typ = typ ∧ headerOk p = false ∧
    fhead.corrupt = false ∧ ({ fhead with corrupt := true }).corrupt = true ∧ frameBad { fhead with tags := 2 } p = true := by
  decide +kernel

theorem test_hyp_ControlPackets_answers :
    (∀ x ∈ [(3, 0, zeros 8), (4, 1, []), (4, 3, []), (4, 4, []), (4, 5, [])], let p := pkt x.1 0 1 7 3 9 1 x.2.1 0 4 x.2.2
      reachesB (sent 0) 0 fhead p = true ∧ epochOf (sent 0) (netHdr p.hdr).tile (netHdr p.hdr).src = some (netHdr p.hdr).epoch ∧
      (netHdr p.hdr).typ = x.1 ∧ (netHdr p.hdr).nak = x.2.1 ∧ nakCmd (sent 0) (netHdr p.hdr) = some 3) ∧
    (outPath (sent 0) (pathKey 2 3)).unacked.takeWhile (fun u => ackedBy 9 u.seq) ≠ [] ∧
    (∀ c ∈ findCmd (sent 0) 3, writesOut c = true) := by decide +kernel

theorem test_hyp_ControlPackets_epochs : epochOf netted (hdr3 0 9).tile 2 = some 7 ∧
    2 ^ 31 < (6 + 2 ^ 32 - 7) % 2 ^ 32 ∧ 0 < (8 + 2 ^ 32 - 7) % 2 ^ 32 ∧ (8 + 2 ^ 32 - 7) % 2 ^ 32 ≤ 2 ^ 31 ∧ (hdr3 8 9).open_ = true ∧
    (hdr3 0 9).open_ = false ∧ (netHdr (pkt 0 0 1 8 3 9 1 0 0 4 []).hdr).epoch = 8 ∧ (hdr3 0 9).src = 2 := by decide +kernel

theorem test_hyp_ControlPackets_probe : let p := pkt 6 0 1 7 0 0 1 0 0 0 [0, 0, 0, 0]
    arrivesB netted 0 fhead p = true ∧ headerOk p = true ∧ payloadOk 6 p.payload = true ∧ (netHdr p.hdr).typ = 6 ∧
    (netHdr p.hdr).dst = ownPkg netted ∧ (netHdr p.hdr).dst ≠ 0xFFFF ∧ isDirect netted 0 = true := by decide +kernel

theorem test_hyp_ControlPackets_forward : ∀ hops ∈ [1, 2], let p := pkt 0 0 5 7 3 9 hops 0 0 4 (zeros 32)
    arrivesB netted 0 fhead p = true ∧ headerOk p = true ∧ (netHdr p.hdr).dst ≠ ownPkg netted ∧ (netHdr p.hdr).dst ≠ 0xFFFF ∧ netted.beat.synced = true ∧
    (netHdr p.hdr).hops = hops := by decide +kernel

theorem test_hyp_PortsAndTimers_paths : (pathed (path3 0 1)).phase = .running ∧
    findIn (pathed (path3 0 1)) 2 3 = some (inKey 3 0, path3 0 1) ∧ inPath (pathed (path3 0 1)) (inKey 3 0) = some (path3 0 1) ∧ 0 < (path3 0 1).owed ∧
    (let s := { pathed (path3 0 1) with beat := { netted.beat with waits := 2 } }
     (path3 0 1).owedSince + 2 ≤ s.beat.waits ∧ findIn s 2 3 = some (inKey 3 0, path3 0 1)) ∧
    (∀ n ∈ [0, 255], transportOn (sent n) = true ∧ (outPath (sent n) (pathKey 2 3)).unacked ≠ [] ∧
      (outPath (sent n) (pathKey 2 3)).since + getBits (getReg (sent n) .netTransport 0 0) 0 32 ≤ (sent n).beat.waits) ∧
    getBits (getReg (sent 255) .netTransport 0 0) 32 8 ≤ 255 ∧ 0 < getBits (getReg (sent 0) .netTransport 0 0) 32 8 ∧
    (outPath (sent 0) (pathKey 2 3)).rate < 1000000 ∧ (outPath (sent 0) (pathKey 2 3)).rateSince + 64 ≤ (sent 0).beat.waits := by
  decide +kernel

/-- `netted` with port 0 after `n` retrains. -/
def retrained (n : Nat) : State := setPort netted 0 { Port.reset with up := true, retrains := List.replicate n 0 }

theorem test_hyp_PortsAndTimers_ports :
    (∀ n ∈ [15, 16], (retrained n).phase = .running ∧ (port (retrained n) (0 / 4)).up = true ∧
      ((port (retrained n) 0).retrains.filter (fun t => decide ((retrained n).beat.waits - t < 1048576))).length = n) ∧
    ((∃ x, [9, 9, 9, 9] = [x, x, x, x]) ∧ (∀ x, [9, 9, 9, 8] ≠ [x, x, x, x]) ∧ ∀ x, [9, 9, 9] ≠ [x, x, x, x]) ∧
    (let s := setReg netted .netPortCtrl (portTile 1) 1 1#64
     natBit (portCtrl s 1).toNat 0 = true ∧ (port s 1).up = false ∧ (port s 1).failed = false) ∧
    (let s := { setPort netted 1 { Port.reset with retraining := some 0 } with beat := { netted.beat with waits := 10000 } }
     (port s 1).retraining = some 0 ∧ 0 + 10000 ≤ s.beat.waits) ∧
    isDirect netted 0 = true ∧ ownPkg netted ≠ 0xFFFF ∧
    (let s := { netted with beat := { netted.beat with waits := 1000 } }
     (port s 0).up = true ∧ (port s 0).probeSince + 1000 ≤ s.beat.waits) ∧
    (let s := setReg netted .netPortCtrl (portTile 0) 0 0xF01#64
     natBit (portCtrl s 0).toNat 8 = true ∧ getBits (portCtrl s 0) 9 3 = 7 ∧ (port s 0).up = true) := by
  refine ⟨by decide +kernel, ⟨⟨9, rfl⟩, ?_, ?_⟩, by decide +kernel⟩ <;> intro x h <;> simp at h
  omega

theorem test_hyp_QueuePairs_windows : takesRoce (windowed 63) (rhead 0xFFFF 1024) = true ∧ takesRoce netted (rhead 0xFFFF 1024) = true ∧
    (rhead 0xFFFF 4097).mtu ∉ [1024, 2048, 4096] ∧ (rhead 0xFFFE 1024).pkey ≠ 0xFFFF ∧ (2 ^ 30 : Nat) % 2 ^ 48 < 2 ^ 44 ∧ rkeyWindow netted 64 = none ∧
    rkeyWindow (windowed 63) 63 = some 63 ∧ partActive (windowed 63) (windowPart (windowed 63) 63) = true ∧
    windowCovers (windowed 63) 63 .write 0 (2 ^ 30) 64 = true ∧ windowCovers (windowed 63) 63 .read 0 (2 ^ 30) 64 = true ∧
    accessError (windowed 63) (some 1) 3 (2 ^ 30) 64 = none ∧ firstPoison (readRange (answerCe (windowed 63) 1023 false) (waysOf (windowed 63) (some 1)) (2 ^ 30) 64).1 = none := by
  decide +kernel

/-- A message of queue pair 1023 that ends command 3's write. -/
def lastMsg : RoceMsg := ⟨1023, .write, 0, 0, 64, zeros 64, some 3, true⟩

/-- Queue pair 1023 with it outstanding. -/
def pairOut (retries : Nat) (held : Bool) : State :=
  { busy (.nop h5) (.remoteWrite 1 3 none) with qps := [(1023, { QueuePair.reset with out := [lastMsg], retries := retries, rnrHeld := held })] }

theorem test_hyp_QueuePairs_messages : (∀ n ∈ [6, 7], ∀ h ∈ [true, false], takesRoce (pairOut n h) (rhead 0xFFFF 1024) = true ∧ (qpair (pairOut n h) 1023).out ≠ [] ∧
      (qpair (pairOut n h) 1023).rnrHeld = h ∧ (qpair (pairOut n h) 1023).retries = n) ∧
    (qpair (pairOut 0 false) 1023).out.take 1 = [lastMsg] ∧ lastMsg.last = true ∧ lastMsg.cmd = some 3 ∧
    (∀ c ∈ findCmd (pairOut 0 false) 3, writesOut c = true) := by decide +kernel

theorem test_hyp_QueuePairs_read : ∀ n ∈ [64, 128],
    let s := { busy (.nop h5) .remoteRead with reads := [⟨3, some 1, 0, 4096 + 1023, 0, 2 ^ 30, n, 0⟩] }
    s.reads.find? (fun r => r.path == 4096 + 1023) = some ⟨3, some 1, 0, 4096 + 1023, 0, 2 ^ 30, n, 0⟩ ∧
    takesRoce s (rhead 0xFFFF 1024) = true ∧
    (n = 64 → n ≤ 0 + ((zeros 64).take (n - 0)).length) ∧ (n = 128 → 0 + ((zeros 64).take (n - 0)).length < n) := by decide +kernel

/-- `netted` with every port up, each paused or not, or every port down: a pair's port is free. -/
theorem test_hyp_QueuePairs_ports (n : Nat) (up paused : Bool) :
    (port { netted with ports := (List.range 16).map (fun k => (k, { Port.reset with up := up, paused := paused })) } (n % 16)).up = up ∧
    (port { netted with ports := (List.range 16).map (fun k => (k, { Port.reset with up := up, paused := paused })) } (n % 16)).paused = paused := by
  have h : n % 16 < 16 := Nat.mod_lt _ (by decide)
  generalize n % 16 = m at h
  revert up paused
  match m, h with
  | 0, _ => decide +kernel
  | 1, _ => decide +kernel
  | 2, _ => decide +kernel
  | 3, _ => decide +kernel
  | 4, _ => decide +kernel
  | 5, _ => decide +kernel
  | 6, _ => decide +kernel
  | 7, _ => decide +kernel
  | 8, _ => decide +kernel
  | 9, _ => decide +kernel
  | 10, _ => decide +kernel
  | 11, _ => decide +kernel
  | 12, _ => decide +kernel
  | 13, _ => decide +kernel
  | 14, _ => decide +kernel
  | 15, _ => decide +kernel
  | k + 16, h => exact absurd h (by omega)

/-! ### The beat, the ledger, reset and the joins -/

/-- `base` with a beat unit. -/
def beating (f : Beat → Beat) : State := { base with beat := f { base.beat with anyEdge := true } }

theorem test_hyp_BeatUnit_edges : (beating id).phase = .running ∧ (beating id).beat.anyEdge = true ∧ (849#32).toNat < 850 ∧
    850 ≤ (850#32).toNat ∧ (beating id).beat.lost = false ∧ (beating id).beat.resyncDue = false ∧ (beating id).beat.holdLeft = 0 ∧
    ((beating id).beat.count + 1) % 2 ^ 64 % 1048576 ≠ 0 ∧ 0 < (beating (fun b => { b with holdLeft := 1 })).beat.holdLeft ∧
    (beating (fun b => { b with resyncDue := true })).beat.resyncDue = true ∧ base.beat.anyEdge = false ∧
    (let b := (beating (fun b => { b with lost := true, qualifying := 15 })).beat
     b.lost = true ∧ 1530 ≤ (1870#32).toNat ∧ (1870#32).toNat ≤ 1870 ∧ 0 < b.qualifying ∧ b.qualifying + 1 = 16) := by decide +kernel

theorem test_hyp_BeatUnit_lock : (beating (fun b => { b with ptpLock := true })).beat.ptpLock = true ∧ base.beat.synced = false ∧
    base.beat.ptpLock = false ∧ base.phase = .running ∧ base.beat.lost = false ∧ base.beat.missing < 3 ∧
    3 ≤ (beating (fun b => { b with missing := 3 })).beat.missing := by decide +kernel

theorem test_hyp_BeatUnit_closes : let j := jobWith gathering
    let s := mapped { clearing gathering with beat := { base.beat with count := 7 } }
    j ∈ s.clr ∧ 0 < j.buckets.length ∧ closeBeatOf s j 0 = some (-(((treeOf s j 0).depth * j.hop : Nat) : Int)) ∧
    firstClose (dueCloses s) = some (-(((treeOf s j 0).depth * j.hop : Nat) : Int), 4, 0) ∧ dueCloses (markDue base) = [] ∧
    firstClose (dueCloses base) = none := by decide +kernel

theorem test_hyp_PowerLedger : base.phase = .running ∧ { base.power with closeDue := true }.closeDue = true ∧
    (true = true ∨ 450 < 0 ∨ 400 < 400) ∧ 399 < 400 ∧ 400 ≤ 400 ∧
    (let p := { base.power with warn := true, wholeWindows := 14 }
     p.warn = true ∧ p.wholeWindows + 1 < 16 ∧ p.pinInWindow = false) ∧
    (let p := { base.power with warn := true, wholeWindows := 15 }
     p.warn = true ∧ p.pinInWindow = false ∧ 16 ≤ p.wholeWindows + 1) ∧ base.power.warn = false ∧ base.power.pin = false ∧
    base.power.closeDue = false ∧ (1 : Nat) ≠ 0 := by decide +kernel

theorem test_hyp_ResetBootJoins_reset : base.phase ≠ .off ∧ base.phase = .running ∧ 1150 ≤ (1150#16).toNat ∧
    (let l := List.replicate 5 (1149#16) ++ List.replicate 21 (1150#16)
     l[5]? = some 1150#16 ∧ ∀ k < 5, (l[k]?).all (fun y => decide (y.toNat < 1150)) = true) ∧
    { base with phase := Phase.off }.phase = .off ∧ { base with phase := Phase.heldTripped }.phase = .heldTripped ∧ (599#16).toNat < 600 ∧
    600 ≤ (600#16).toNat := by decide +kernel

/-- A service always has an address, whatever its state. -/
theorem test_hyp_service (s : State) : isService s (.v4 (serviceIpv4 s)) = true := by simp [isService]

/-- `base` whose service has an IPv4 address from its boot. -/
def serving : State := { base with mgmt := { base.mgmt with ipv4 := (0x0A000001, 8, 0) } }

theorem test_hyp_ResetBootJoins_managerReset : let l := [("ResetType", JArg.str "ForceRestart")]
    serving.phase = .running ∧ isService serving (.v4 0x0A000001) = true ∧ (∀ p ∈ l, p.1 = "ResetType") ∧
    bodyValue l "ResetType" = some (.str "ForceRestart") ∧ bodyValue [] "ResetType" ≠ some (.str "ForceRestart") := by decide +kernel

theorem test_hyp_ResetBootJoins_release : State.reset.phase = .held ∧ compositionFaults State.reset = [] ∧
    controllerOn State.reset = true ∧ controllerOn { State.reset with dies := [] } = false ∧
    (let s := { State.reset with dies := State.reset.dies.set 2 ⟨false, 0, 0⟩ }
     compositionFaults s ≠ [] ∧ controllerOn s = true) ∧ (∃ j < 14, natBit (0x1FFF#14).toNat j = false) ∧
    (∀ j < 14, natBit (0x3FFF#14).toNat j = true) ∧ State.reset.sec.attached = false ∧ bootBank (repairBoot State.reset) = some (0, false) ∧
    bootBank (repairBoot { State.reset with sec := { Security.factory with banks := [] } }) = none := by decide +kernel

theorem test_hyp_ResetBootJoins_trial : base.phase = .running ∧ base.sec.attached = false ∧ (bootRecord base).trial = false ∧
    (bootRecord { base with sec := { base.sec with bootRecs := List.replicate 2 ⟨true, 1, 0, true, 0⟩ } }).trial = true := by decide +kernel

/-- `base` with every join up, join 13 having replayed a flit `n` times. -/
def joined (n : Nat) : State := { setReg base .modJoinStatus 4 0 0x3FFF#64 with joinRuns := [(13, n)] }

theorem test_hyp_ResetBootJoins_joins : (joined 16).phase = .running ∧ joinUp (joined 16) 13 = true ∧
    16 ≤ mapGet (fun _ => 0) (joined 16).joinRuns 13 ∧ (ctxOf (joined 16) 7).valid = true := by decide +kernel

/-! ### Events -/

/-- `base` with source 130 pending, routed as `route` says, the controller of queue 5 bound. -/
def pendingAt (route : Nat) : State :=
  setPending (setReg (bound 0) .evtSrcRoute 0 130 (BitVec.ofNat 64 (route + 2 ^ 24))) 130 true

theorem test_hyp_EventRows_delivery : (130 : Nat) < 1024 ∧ (bound 0).phase = .running ∧
    (∀ k ∈ [1, 2, 3], let s := pendingAt (5 + k * 2 ^ 12 + 7 * 2 ^ 14)
      offered s 130 = true ∧ getBits (eventRoute s 130) 12 2 = k ∧ groupOf s 130 = 7 ∧ holdLeft s 7 = 0) ∧
    offered base 130 = false ∧ getBits (eventRoute (pendingAt 5) 130) 12 2 = 0 := by decide +kernel

theorem test_hyp_EventRows_pend : (mayPend (.core 0) = false ∧ mayPend .mmc = true) ∧ (2 : Fin 4).val = 2 ∧ (3 : Fin 4).val ≠ 2 ∧
    (1#64 : Word) ≠ 0 := by decide +kernel

theorem test_hyp_EventRows_claim :
    presented (setReg (pendingAt (5 + 3 * 2 ^ 20)) .evtCoreCfg (coreSite 5) 5 16#64) 5 = some 130 ∧ presented base 5 = none ∧
    presented (setReg (pendingAt (5 + 3 * 2 ^ 20)) .evtCoreCfg (coreSite 5) 5 16#64) 5 ≠ none := by decide +kernel

theorem test_hyp_EventRows_eoi : let s := setReg base .evtCoreStack (coreSite 5) 5 0x90#64
    (bitsSet (coreStack s 5) 16).head? = some 4 ∧ (bitsSet (coreStack s 5) 16).head? ≠ some 7 := by decide +kernel

/-! ### The mills -/

/-- Stream 0 with one waiting feed that holds slot 0 of fill 0, or one the engine has started. -/
def decoding (stage : FeedStage) (wort : Nat) : State :=
  let s := streaming (stream0 false [feed0 (some (0, 0)) false stage])
  setMill { s with cmds := [waiting (.streamFeed h5 0 (g1 0) 64 0) (.feed 0 0)], nextCmd := 4 } 0 ⟨[⟨0, 0, wort, 16, 16, 0, none⟩], [], wort, wort⟩

theorem test_hyp_FrameDecoding_start : let s := decoding .waiting (2 ^ 24 - 1)
    s.phase = .running ∧ bestFeed (waitingFeeds s 0 false) = some (0, stream0 false [feed0 (some (0, 0)) false .waiting], feed0 (some (0, 0)) false .waiting) ∧
    findStream s 0 = some (stream0 false [feed0 (some (0, 0)) false .waiting]) ∧
    (millOf s 0).wort + (1#25).toNat ≤ 2 ^ 24 ∧ 2 ^ 24 < (millOf s 0).wort + (2#25).toNat := by decide +kernel

/-- A decoded random access point of 16 by 16, of which no value matters here. -/
def frame16 : FrameResult := ⟨16, 16, .clean, true, [], none, 1⟩

theorem test_hyp_FrameDecoding_done : let s := decoding (.started false) 1
    let x := stream0 false [feed0 (some (0, 0)) false (.started false)]
    let y := feed0 (some (0, 0)) false (.started false)
    (millOf s 0).decoding = [⟨0, 0, 1, 16, 16, 0, none⟩] ∧ findStream s 0 = some x ∧ x.feeds.find? (fun y => y.number == 0) = some y ∧
    findCmd s y.cmd = some (waiting (.streamFeed h5 0 (g1 0) 64 0) (.feed 0 0)) ∧
    (waiting (.streamFeed h5 0 (g1 0) 64 0) (.feed 0 0)).ticket ≠ 0 ∧ s.results.length < 65536 ∧ x.closing = false ∧
    (∀ f ∈ [frame16, { frame16 with declW := 17 }, { frame16 with poison := some (g1 0) }],
      let rd := readBytes s (waysOf s (some x.partition)) y.src y.len
      f.declW = 16 → (frameOutcome rd.2.2 x y rd.2.1 f).1 ≠ 2 ∧ (frameOutcome rd.2.2 x y rd.2.1 f).1 ≠ 3) ∧ x.subframe = false ∧
    frame16.poison = none ∧ x.maxW < (17#16).toNat ∧ frame16.declW.toNat ≤ x.maxW ∧ frame16.declH.toNat ≤ x.maxH ∧
    frame16.check = .clean ∧ frame16.access = true ∧ isStale s x y = false ∧
    isStale { s with beat := { s.beat with count := 5 } } { x with stale := 4 } y = true ∧ y.stage ≠ .started true ∧
    ({ y with stage := .started true }).stage = .started true ∧ ({ frame16 with check := .badSyntax }).check = .badSyntax := by
  decide +kernel

/-- A SUBFRAME stream's frame of two Y block rows, of which `written` are written and `rows` shown, once it has passed its checks. -/
def rowsOf (written rows : Nat) (judged : Option FrameResult) : State :=
  let x := { stream0 false [feed0 (some (0, 0)) false (.started false)] with subframe := true, rows := rows, maxH := 64 }
  setMill (streaming x) 0 ⟨[⟨0, 0, 1, 16, 16, written, judged⟩], [], 1, 1⟩

theorem test_hyp_FrameDecoding_rows : ∀ p ∈ [(0, 2, some frame16), (1, 0, some frame16), (1, 1, some frame16), (2, 2, some frame16), (0, 0, none)],
    let s := rowsOf p.1 p.2.1 p.2.2
    ∃ x y, oldestFrame s 0 = some (⟨0, 0, 1, 16, 16, p.1, p.2.2⟩, x, y) ∧ slotBase s x y = some (2 ^ 30) ∧ isStale s x y = false ∧
      x.subframe = true ∧ x.rows = p.2.1 ∧ lumaRows x = 2 ∧ slotBase s x y ≠ none ∧
      (p.2.2 = none → let rd := readBytes s (waysOf s (some x.partition)) y.src y.len
        (frameOutcome rd.2.2 x y rd.2.1 { frame16 with check := .clean }).1 = 9) := by
  intro p hp
  refine ⟨{ stream0 false [feed0 (some (0, 0)) false (.started false)] with subframe := true, rows := p.2.1, maxH := 64 },
    feed0 (some (0, 0)) false (.started false), ?_⟩
  revert p
  decide +kernel

theorem test_hyp_IngestAndEncoding_batch : millPresent { milling with dies := [] } = false ∧ millPresent milling = true ∧
    findBatch milling (4 * 0 + 3) = some batch3 ∧ actsFor (.teller 0) batch3.partition = true ∧ actsFor (.mill 0) 1 = false := by decide +kernel

/-- The core-side feed of stream 0 at a stage. -/
def coreFeed (stage : FeedStage) : Feed := feed0 (some (0, 0)) true stage
/-- Partition 1's core ring of mill 0, four entries, and the feed. -/
def coreSide (stage : FeedStage) : State :=
  setReg (streaming (stream0 false [coreFeed stage])) .ingCoreRing 0 1 (BitVec.ofNat 64 (2 ^ 63 + 2 * 2 ^ 48 + 2 ^ 30))

theorem test_hyp_IngestAndEncoding_core : earliest (postable (coreSide .waiting) 1) = some (0, coreFeed .waiting) ∧
    coreRing (coreSide .waiting) 0 1 = some (2 ^ 30, 4) ∧ findStream (coreSide .waiting) 0 = some (stream0 false [coreFeed .waiting]) ∧
    (coreFeed .waiting).slot = some (0, 0) ∧
    postedAt (coreSide (.posted 3)) 0 1 3 = some (0, stream0 false [coreFeed (.posted 3)], coreFeed (.posted 3)) ∧
    postedAt (coreSide .waiting) 0 1 3 = none ∧ actsFor (.teller 0) (getBits 0x10003#64 16 4) = true ∧
    (getBits 0x10003#64 16 4 = 1 ∧ getBits 0x10003#64 0 16 = 3) := by decide +kernel

theorem test_hyp_IngestAndEncoding_writes : let s := streaming (stream0 false [])
    findStream s (128 * 0 + 0) = some (stream0 false []) ∧ actsFor (.teller 0) 1 = true ∧ coreRing s 0 1 = none ∧
    coreRing (coreSide .waiting) 0 1 ≠ none ∧ actsFor (.mill 0) (stream0 false []).partition = false ∧
    ((openStreams s).any (fun x => x.2.partition == 1 && activeSide s x.2)) = false ∧
    (let v := BitVec.ofNat 64 (2 ^ 63 + 16 * 2 ^ 48 + 64)
     1 ≤ getBits v 48 5 ∧ getBits v 48 5 ≤ 16 ∧ getBits v 0 6 = 0) ∧
    millStreams milling 0 = [] ∧ millStreams s 0 ≠ [] ∧
    (let v := BitVec.ofNat 64 (319 + 2 ^ 16)
     320 * 0 ≤ getBits v 0 16 ∧ getBits v 0 16 + getBits v 16 16 ≤ 320 * (0 + 1)) := by decide +kernel

/-- An encode stream's feed and the module that holds it. -/
def encoding : State := streaming (stream0 true [feed0 none false .waiting])

theorem test_hyp_IngestAndEncoding_encode : encoding.phase = .running ∧
    bestFeed (waitingFeeds encoding 0 true) = some (0, stream0 true [feed0 none false .waiting], feed0 none false .waiting) ∧
    (millOf encoding 0).units = [] ∧ findStream encoding 0 = some (stream0 true [feed0 none false .waiting]) := by decide +kernel

theorem test_hyp_IngestAndEncoding_picture :
    (readBytes encoding (waysOf encoding (some 1)) (2 ^ 30) (needBytes 16 16)).2.1 = none := by decide +kernel

theorem test_hyp_IngestAndEncoding_poison : let s := { encoding with poison := [(2 ^ 25, true)] }
    (readBytes s (waysOf s (some 1)) (2 ^ 30) (needBytes 16 16)).2.1 = some (2 ^ 30) := by decide +kernel

/-- A unit of stream 0's feed of 64 bytes, the last of its picture or not, and a module whose ring holds 4,096 or 32 bytes. -/
def emitting (last : Bool) (log : Nat) : State :=
  setMill (withMem encoding (2 ^ 30) (leBytes 8 (2 ^ 30 + 0x1000) ++ leBytes 8 log)) 0 ⟨[], [⟨0, 0, 0, last, true, 0, 0, zeros 64⟩], 0, 0⟩

theorem test_hyp_IngestAndEncoding_emit : ∀ x ∈ [(true, 12), (false, 12), (true, 5)], let s := emitting x.1 x.2
    let u : EncUnit := ⟨0, 0, 0, x.1, true, 0, 0, zeros 64⟩
    let d := readBytes s (waysOf s (some 1)) (2 ^ 30) 64
    (millOf s 0).units = [u] ∧ findStream s u.stream = some (stream0 true [feed0 none false .waiting]) ∧
    2 ^ (fieldLe d.1 8 1 % 32) = 2 ^ x.2 ∧ (fieldLe d.1 16 8 + 2 ^ 64 - fieldLe d.1 24 8) % 2 ^ 64 = 0 ∧
    (x.2 = 12 → 0 + (unitRecord u).length ≤ 2 ^ 12) ∧ (x.2 = 5 → 2 ^ 5 < 0 + (unitRecord u).length) ∧
    (stream0 true [feed0 none false .waiting]).closing = false ∧
    (stream0 true [feed0 none false .waiting]).feeds.find? (fun f => f.number == u.feed) = some (feed0 none false .waiting) := by
  decide +kernel

/-! ### The management port and the registers -/

theorem test_hyp_ManagementPort_smbus : base.phase = .running ∧ (0#8).toNat ∉ smbusCodes ∧
    (∀ g : Fin 8, let s := { base with ga := g, smbusDest := BitVec.ofNat 7 (0x58 + g.val) }; s.smbusDest.toNat = 0x58 + s.ga.val) ∧
    ({ base with smbusDest := 0x57 }).smbusDest.toNat ≠ 0x58 + base.ga.val := by
  decide +kernel

theorem test_hyp_ManagementPort_requests : serving.phase = .running ∧ isService serving (.v4 0x0A000001) = true ∧
    isService serving (.v4 0x0A000002) = false ∧
    bodyError propOrder .malformed = some ("MalformedJSON", none) ∧
    bodyError propOrder (.props [("Id", .num 0)]) = some ("PropertyNotWritable", some "Id") ∧
    bodyError ["Destination", "Protocol", "Context"] (.props [("Delivery", .num 0)]) = some ("PropertyUnknown", some "Delivery") ∧
    bodyError ["ResetType"] (.props [("Type", .num 0)]) = some ("PropertyUnknown", some "Type") ∧
    ((∀ x ∈ [("ResetType", JArg.num 0)], x.1 ∈ ["ResetType"]) ∧ "Type" ∉ ["ResetType"]) := by decide +kernel

theorem test_hyp_ManagementPort_resources : resourceAt "/redfish/v1/nothing" = none ∧
    (resourceAt "/redfish/v1").isSome = true ∧
    (∀ r ∈ resourceAt "/redfish/v1", (methodsOf r).contains "GET" = true ∧ exists_ base r = true ∧ (methodsOf r).contains "POST" = false) ∧
    (∃ p ∈ allUris, p.2 = .reset_) ∧ (methodsOf .reset_).contains "GET" = false := by decide +kernel

/-- `base` with subscription 0 taken and a delivery to it waiting. -/
def subscribed : State := { base with mgmt := { base.mgmt with
  subs := [some ⟨"http://a/", ""⟩, none, none, none], queue := [⟨1, ⟨"m", false, [], none⟩, 0⟩, ⟨0, ⟨"m", false, [], none⟩, 3⟩] } }

theorem test_hyp_ManagementPort_wanted :
    let l := [("Destination", JArg.str "http://10.0.0.1/events"), ("Protocol", .str "Redfish"), ("Context", .str "rack")]
    bodyError ["Destination", "Protocol", "Context"] (.props l) = none ∧ wantedSub l = some ⟨"http://10.0.0.1/events", "rack"⟩ ∧
    bodyValue l "Destination" = some (.str "http://10.0.0.1/events") ∧ bodyValue l "Protocol" = some (.str "Redfish") ∧
    bodyValue l "Context" = some (.str "rack") ∧ bodyValue (l.take 2) "Context" = none := by decide +kernel

theorem test_hyp_ManagementPort_subscriptions : destinationOk "http://10.0.0.1/events" = true ∧ "rack".length ≤ 64 ∧
    subscribed.mgmt.subs.length = 4 ∧ subscription subscribed 1 = none ∧ (∀ k < 1, subscription subscribed k ≠ none) ∧
    subscription subscribed 0 ≠ none ∧
    subscribed.mgmt.queue = [⟨1, ⟨"m", false, [], none⟩, 0⟩] ++ ⟨0, ⟨"m", false, [], none⟩, 3⟩ :: [] ∧
    (⟨0, ⟨"m", false, [], none⟩, 3⟩ : Delivery).sub = 0 := by decide +kernel

theorem test_hyp_ManagementPort_patch : (∀ p ∈ [("PackageId", JArg.num 5)], p.1 ∈ propOrder) ∧
    (match putChecked base [("PackageId", .num 5)] base.sec.config with | .inl _ => true | .inr _ => false) = true ∧
    (match putChecked base [("PackageId", .num 65536)] base.sec.config with | .inl _ => false | .inr _ => true) = true := by decide +kernel

/-- The address of a control register of site 4 or a tile. -/
def control (site off : Nat) : Nat := 0xF0000000000 + site * 0x1000000000 + off

theorem test_hyp_RegisterAccess_faults : (accessFault base (.core 0) (control 0 0x7000004) 8).isSome = true ∧
    (accessFault base (.core 0) (control 0 0x7000010) 8) = none := by decide +kernel

theorem test_hyp_RegisterAccess_write : ∀ x ∈ [(4, true), (8, false)],
    let a := control 0 0x7000010
    inControl a = true ∧ accessFault base (.core 0) a x.1 = none ∧
    (regAt (siteOf a) (offsetOf a / 8 * 8)).map (·.1) = some .clrBcastLimit ∧ actingFields .clrBcastLimit = [] ∧
    mmcOnly .clrBcastLimit = false ∧ servedAt .clrBcastLimit 0 = true ∧
    reservedWord .clrBcastLimit (writeFields (getReg base .clrBcastLimit 0 0 0) (spanData (spanOf a x.1) (if x.2 then 5 else 0))
      (spanFields (spanOf a x.1) (regLayout .clrBcastLimit).fields)) = !x.2 := by decide +kernel

theorem test_hyp_RegisterAccess_mmcOnly : mmcOnly .pwrCfg = true ∧ Agent.core 0 ≠ .mmc ∧ actingFields .pwrCfg = [] ∧
    (let k := regLayout .pwrCfg
     (regAt 4 k.base).map (·.1) = some .pwrCfg ∧ accessFault base (.core 0) (control 4 k.base) 8 = none) := by decide +kernel

theorem test_hyp_RegisterAccess_unserved : let a := control 0 (regLayout .modJoinStatus).base
    inControl a = true ∧ accessFault base (.core 0) a 8 = none ∧ regAt (siteOf a) (offsetOf a / 8 * 8) = some (.modJoinStatus, 0, 0) ∧
    actingFields .modJoinStatus = [] ∧ mmcOnly .modJoinStatus = false ∧ reservedWord .modJoinStatus 0 = false ∧ servedAt .modJoinStatus 0 = false := by
  decide +kernel

theorem test_hyp_RegisterAccess_port : let a := control 1 0x6000100
    inControl a = true ∧ accessFault base .mmc a 8 = none ∧ regAt (siteOf a) (offsetOf a / 8 * 8) = some (.netPortCtrl, 0, 0) ∧
    actingFields .netPortCtrl = [] ∧ spanOf a 8 ≠ .high ∧ natBit (0#64).toNat 0 = false ∧ natBit (1#64).toNat 0 = true ∧
    natBit (writeFields (getReg base .netPortCtrl 1 0 0) (spanData .whole 1) (spanFields .whole (regLayout .netPortCtrl).fields)).toNat 8 = false := by
  decide +kernel

/-- Each register with acting fields at its first address: one that takes the management controller's write, and one half that covers
none of its fields. -/
theorem test_hyp_RegisterAccess_acting : ∀ x ∈ [(RegKind.memCfg, 1, 4), (.memInject, 1, 4), (.capInject, 4, 4), (.evtPend, 1, 4), (.evtPendSet, 1, 4),
      (.evtHoldoff, 0, 4), (.evtCoreEoi, 4, 4), (.cmdQDoorbell, 4, 4), (.cmdQCplHead, 4, 4), (.ingBatchCtrl, 1, 4), (.ingCoreDone, 1, 4),
      (.ingStreamSide, 1, 4), (.milPool, 1, 4), (.netPkgId, 1, 4), (.ingCoreRing, 1, 0)],
    let a := control x.2.1 (regLayout x.1).base
    (regAt (siteOf a) (offsetOf a / 8 * 8)).map (·.1) = some x.1 ∧ inControl a = true ∧ accessFault base .mmc a 8 = none ∧
    actingFields x.1 ≠ [] ∧ foreignSrc .mmc x.1 x.2.1 = none ∧ spanFields .whole (actingFields x.1) ≠ [] ∧
    (x.2.2 = 0 ∨ x.1 = .evtPend ∨ x.1 = .evtPendSet ∨ x.1 = .memInject ∨ x.1 = .capInject ∨
      spanFields (spanOf (a + 4) 4) (actingFields x.1) = []) := by decide +kernel

theorem test_hyp_RegisterAccess_foreign : (foreignSrc (.core 0) .memInject 1).isSome = true ∧ (foreignSrc (.core 0) .netPkgId 1).isSome = true ∧
    ingestForeign base (.core 0) .milPool 1 0 = true ∧ ingestForeign milling .mmc .milPool 0 0 = false := by decide +kernel

theorem test_hyp_RegisterAccess_fields : let fs : List Field := [rw 31 0, w1c 63 63]
    (∀ f ∈ fs, f.lo ≤ f.hi ∧ f.hi < 64) ∧ fs.Pairwise (fun f g => f.hi < g.lo ∨ g.hi < f.lo) ∧ (∀ f ∈ fs, 40 < f.lo ∨ f.hi < 40) := by
  decide +kernel

/-! ### The whole block -/

theorem test_hyp_PacketRoundTrip : (encodeCommand (.nop h5)).isSome = true ∧
    (encodeCommand (.streamOpen h5 Tests.streamParams)).isSome = true ∧
    Tests.streamParams.priority.toNat < 2 ^ 4 ∧ Tests.streamParams.maxW.toNat < 2 ^ 14 ∧ Tests.streamParams.maxH.toNat < 2 ^ 14 := by
  decide +kernel

/-- A reset of a running module whose fused floor is 3. -/
theorem test_hyp_FloorNeverFalls :
    (match step { base with pending := [.modResetAssert], sec := { base.sec with fusedFloor := 3 } } with
      | .next t => decide (t.sec.fusedFloor = 3 ∧ t.pending = [] ∧ t.phase = .held ∧ t.dies = base.dies)
      | _ => false) = true := by
  decide +kernel

theorem test_hyp_MemoryCanonical : Memory.wf base.mem = true ∧ (match step base with | .next _ => true | _ => false) = true := by
  decide +kernel

/-! ### Ill-formed commands: one for each check of WellFormed -/

theorem test_illformed_roceSendPackets : wellFormed (.roceSendPackets ⟨0, rhead 0xFFFF 1024⟩ []) = false := rfl

theorem test_illformed_expDoorbellWrite : wellFormed (.expDoorbellWrite 0 (g1 0) []) = false ∧
    wellFormed (.expDoorbellWrite 0 (g1 96) (zeros 33)) = false ∧ wellFormed (.expDoorbellWrite 0 (g1 96) (zeros 32)) = true := by
  decide +kernel

theorem test_illformed_exchangeRecordArrive : wellFormed (.exchangeRecordArrive 0 ⟨0, 0, 0, 0, [(g1 2, zeros 4)]⟩) = false ∧
    wellFormed (.exchangeRecordArrive 0 ⟨0, 0, 0, 0, [(g1 4, zeros 3)]⟩) = false := by decide +kernel

theorem test_illformed_message : wellFormed (.rdShared 0 ⟨zeros 19, []⟩) = false ∧ wellFormed (.snpAckData 0 ⟨zeros 20, zeros 145⟩) = false ∧
    wellFormed (.snpData 0 ⟨0, .modified (zeros 127)⟩ ⟨zeros 20, []⟩) = false := by
  decide +kernel

theorem test_illformed_packet : wellFormed (.netAck 0 fhead ⟨zeros 39, []⟩) = false ∧
    wellFormed (.packetForward ⟨0, fhead⟩ ⟨zeros 40, List.replicate 4137 0⟩) = false := by decide +kernel

theorem test_illformed_roceRdmaWrite : wellFormed (.roceRdmaWrite 0 0 0 (rhead 0xFFFF 1024) []) = false := rfl

theorem test_illformed_portRetrainDone : wellFormed (.portRetrainDone ⟨0, [1, 1, 1]⟩) = false := rfl

theorem test_illformed_ledgerClose : wellFormed (.ledgerClose ⟨0, [0, 0, 0], 0, 0, 0, 0, 0, List.replicate 26 0⟩) = false ∧
    wellFormed (.ledgerClose ⟨0, [0, 0, 0, 0], 0, 0, 0, 0, 0, []⟩) = false := by decide +kernel

theorem test_illformed_thermalTrip : wellFormed (.thermalTrip (List.replicate 23 0) [0, 0]) = false := by decide +kernel

/-! ### Worked examples of the spec -/

/-- Chapter 1, *Straps*: the strap word 0x1A2A; and the composition check of the compute die that reads it at position 2. -/
theorem test_strap_word : ownTests ⟨true, 0x1A2A#16, 0x10#8⟩ 6 = none ∧ ownTests ⟨true, 0x1A2A#16, 0x10#8⟩ 2 = some 5 ∧ strapRev 0x1A2A#16 = 3 := by decide +kernel

/-- Chapter 2: the elements of the E3M2 example, and a group converted to E4M3 with a computed and a supplied scale. -/
theorem test_e3m2_packing : packElems .e3m2 [0x0C, 0x28, 0x1F, 0x01] = 0x5FA0C ∧
    [0x0C, 0x28, 0x1F, 0x01].map (fun c => (extFrac (elemDecode .e3m2 c)).num * 16 / (extFrac (elemDecode .e3m2 c)).den) = [16, -8, 448, 1] := by
  decide +kernel

/-- Chapter 2: 300.0, −0.1, 0.001 and +0 converted. -/
theorem test_e4m3_conversion :
    let r := convGroup .e4m3 (fun _ => .rne) none ([0x43960000#32, 0xBDCCCCCD#32, 0x3A83126F#32, 0].map decode32)
    r.scale = 0x7F ∧ r.codes = [0x79, 0x9D, 0x01, 0x00] := by decide +kernel

/-- Chapter 2: 60.0 and −50.0 under the scale code 0x7C; 60.0 is saturated. -/
theorem test_e4m3_supplied :
    (convGroup .e4m3 (fun _ => .rne) (some 0x7C) ([0x42700000#32, 0xC2480000#32].map decode32)).codes = [0x7E, 0xFC] := by decide +kernel

/-- Chapter 2: 0x3F80_C000 to BF16 under three coins and to nearest even. -/
theorem test_bf16_stochastic :
    ([Rounding.sr 0x3FFF, .sr 0x4000, .sr 0xA123, .rne].map (fun m => encodeIeee layBf16 m false (decode32 0x3F80C000#32)))
      = [0x3F80, 0x3F81, 0x3F81, 0x3F81] := by decide +kernel

/-- Chapter 18 takes its digests by SHAKE256 (FIPS 202); its output for the empty message begins 46 B9 DD 2B 0B A8 8D 13. -/
theorem test_shake256_empty : shake256 8 [] = [0x46, 0xB9, 0xDD, 0x2B, 0x0B, 0xA8, 0x8D, 0x13] := by decide +kernel

/-- Chapter 3: coin(seed 0, T = 1, i = 2, j = 3, g = 5). -/
theorem test_coin : coin 0 1 2 3 5 = 0x67CA := by decide +kernel

/-- Chapter 3: one group of BF16 products added to 1.0 under RNE. -/
theorem test_group_rne :
    let b := fun n => elemDecode .bf16 n
    groupStep layFp32 .rne 0x3F800000 [extMul (b 0x3FC0) (b 0x3300), extMul (b 0x3FC0) (b 0x3300), extMul (b 0xB900) (b 0x3900),
      extMul (b 0x3F80) (b 0x3300)] = 0x3F800001 := by decide +kernel

/-- Chapter 3: group 5 of element (2, 3) under the coin above, and to nearest even. -/
theorem test_group_sr :
    let p := fun (x : Nat × Nat) => extMul (elemValue .e4m3 0x6F x.1) (elemValue .e4m3 0x7F x.2)
    let l := [(0x20, 0x18), (0x10, 0x10), (0x34, 0x02), (0xB4, 0x02)].map p
    groupStep layFp32 (.sr (coin 0 1 2 3 5)) 0x40000000 l = 0x40000000 ∧ groupStep layFp32 .rne 0x40000000 l = 0x40000001 := by
  decide +kernel

/-- Chapter 3: PT-600 summation of 128 positions, all products +0 but four. -/
theorem test_pt600_chunks :
    let b := fun n => elemDecode .bf16 n
    let ps := [extMul (b 0x3F80) (b 0x3F80), extMul (b 0x3C00) (b 0x3C00), extMul (b 0x3C00) (b 0x3C00)] ++ List.replicate 61 extZero
      ++ extMul (b 0x3C40) (b 0x3C80) :: List.replicate 63 extZero
    (ptSums 127 (0, 0) 0 ps).1 = 0x3F800600 := by decide +kernel

/-- Chapter 4: the epilogue of a backward cell, its tally bin and its BF16 code. -/
theorem test_epilogue :
    let d := { vatDesc (zeros 128) with deriv := 3 }
    let s2 := f32Mul (f32Add 0x41200000#32 0xC0000000#32) 0x3F000000#32
    let s3 := derivStep d s2 0x3E9A0000#32
    s2 = 0x40800000#32 ∧ tallyBin (-32) (decode32 s3) = 32 ∧ encodePlain .bf16 .rne false (decode32 s3) = 0x3F57 := by decide +kernel

/-- Chapter 5: the exact sum of 2^24, 1.0, 1.0 and −2^24. -/
theorem test_row_sum : reduceSum [0x4B800000#32, 0x3F800000#32, 0x3F800000#32, 0xCB800000#32] = 0x40000000#32 := by decide +kernel

/-- Chapter 5: the eight greatest of a row with ties, signed zeros, −∞ and a NaN. -/
theorem test_topk : (topK 8 ([0x3FC00000#32, 0x7FC00000#32, 0x40400000#32, 0x80000000#32, 0x40400000#32, 0, 0xFF800000#32, 0x40000000#32].map
    decode32)).map (·.1) = [2, 4, 7, 0, 3, 5, 6, 1] := by decide +kernel

/-- Chapter 7: three FP32 slots folded in the order of R231. -/
theorem test_fold_order : f32Add (f32Add 0x3F800000#32 0x33800000#32) 0x33800000#32 = 0x3F800000#32 := by decide +kernel

/-- Chapter 8: the placement of five token rows with two routes each, CAP 2, expert 1 spilling to expert 3. -/
theorem test_placement :
    let table := fun e => if e < 4 then some (⟨0, 0, if e = 1 then some 3 else none, e⟩ : Route) else none
    let routes := [[1, 0], [1, 2], [1, 0], [0, 3], [2, 1]]
    let x := { exchDesc (zeros 128) with n := 5, k := 2, first := 0, count := 4 }
    let a := placeAll table x 2 (fun n m => (routes.getD n []).getD m 0)
    a.placed.take 7 = [(0, 0, 1, 0), (0, 1, 0, 0), (1, 0, 1, 1), (1, 1, 2, 0), (2, 0, 3, 0), (2, 1, 0, 1), (3, 1, 3, 1)] ∧
    a.placed.drop 7 = [(4, 0, 2, 1)] ∧ a.dropped = [0, 1] := by decide +kernel

/-- Chapters 9 and 10: the tile, stack and directory set of address 0x0B4_0030_6900. -/
theorem test_address_map : hbmTile 0x0B400306900 = 2 ∧ stackOf base 0x0B400306900 = 2 ∧
    stackOf (setReg base .memCfg 2 0 0) 0x0B400306900 = 1 ∧ homeOf base 0x0B400306900 = 2 ∧ dirSet (0x0B400306900 / 128) = 0x30D2 := by
  decide +kernel

/-- Chapter 11: bytes 0 to 31 of the header of a resent WRITE. -/
theorem test_icrun_header :
    let s := setReg (setReg base .netPkgId 0 0 0x102#64) .netEpoch 0 0 0x53A1C#64
    let f : PktFields := { plainFields 0 with retx := true, len := 4096, dst := 0x107, path := 5, seq := 0xFFFFFE, addr := 0x010700B400306900 }
    (icrunHeader s f).take 32 = [0x10, 0x02, 0x10, 0x00, 0x01, 0x02, 0x01, 0x07, 0x00, 0x05, 0x3A, 0x1C, 0x00, 0x05, 0xFF, 0xFF,
      0xFE, 0x3F, 0x00, 0x00, 0x00, 0x00, 0x00, 0x00, 0x01, 0x07, 0x00, 0xB4, 0x00, 0x30, 0x69, 0x00] := by decide +kernel

/-- Chapter 16: NEED(3840, 2160). -/
theorem test_need : needBytes 3840 2160 = 25067520 := by decide +kernel

/-- Chapter 17: three steps of a gate's mean, a spike, and the mean after a withheld step; the verdict word of step 3. -/
theorem test_commit_gate :
    let g0 : Gate := ⟨true, 3, 0x40000000#32, 64, none, 0, 0, false, 0⟩
    let next := fun (g : Gate) (n : Nat) (l : F32) => gateAfter g (judge g n (some l)) (some l) 0
    let g3 := next (next (next g0 0 0x40800000#32) 0 0x40600000#32) 0 0x40400000#32
    let g4 := next g3 0 0x41100000#32
    let g5 := next g4 2 0x40500000#32
    g3.mean = some 0x407A2000#32 ∧ (judge g3 0 (some 0x41100000#32)).cause = some 51 ∧ g4.mean = some 0x407A2000#32 ∧
    (judge g4 2 (some 0x40500000#32)).cause = some 49 ∧ (next g5 0 0x405C0000#32).mean = some 0x40783E00#32 ∧
    verdictWord (judge g3 0 (some 0x41100000#32)) 3 = 0x0009000000000003 := by decide +kernel

end Sys2Proof.Tests
end

section
/-!
PROOFS. O30: the comparisons, mask instructions and reductions of the vector engine (R152, R160, R161). In order: a table after a
row of writes, what an instruction in its turn does with the vector registers, the registers that such a row of writes leaves, and the
obligation.
-/
namespace Sys2Proof.Machine

/-! ### A row of writes of a table -/

/-- A read after writes at the keys of a list: the written value where one of them is the key read. The writes at that key agree. -/
theorem mapGet_foldl_set {α β : Type} [DecidableEq α] (d : Nat → α) (key : β → Nat) (val : β → α) {x : α} {j : Nat} {l : List β}
    (h : ∀ p ∈ l, key p = j → val p = x) (m : SMap α) :
    mapGet d (l.foldl (fun m p => mapSet d m (key p) (val p)) m) j = if ∃ p ∈ l, key p = j then x else mapGet d m j := by
  induction l generalizing m with
  | nil => simp
  | cons p t ih =>
    rw [List.foldl_cons, ih (fun q hq => h q (List.mem_cons_of_mem p hq))]
    by_cases hp : key p = j
    · have hx : val p = x := h p List.mem_cons_self hp
      simp [hp, hx]
    · simp [hp, mapGet_set_other d m (val p) (Ne.symm hp)]

/-! ### What an instruction in its turn does -/

/-- R195: a word in its turn whose opcode is defined and is the row's acts. -/
theorem issue_of_inTurn {s : State} {c st : Nat} {w : Word} {mine : Nat → Bool} (act : State → State) (h : inTurn s c st w)
    (hdef : opcodeDefined st (opOf w) = true) (hmine : mine (opOf w) = true) : issue s c st w mine act = act s := by
  obtain ⟨-, hissues, hpc, hword⟩ := h
  simp [issue, hissues, Nat.not_le.mpr hpc, hword, hdef, hmine]

/-- R156, R164: a vector instruction in its turn, its word without a reserved value, acts on the state that counts it, and the stream
moves on. -/
theorem vecIssue_of_inTurn {s : State} {c : Fin 64} {w : Word} {op : Nat} {ok : State → Bool} (stall : BitVec 32) (act : State → State)
    (h : inTurn s c.val 1 w) (hop : opOf w = op) (hdef : vecOpcode op = true) (hok : ok s = true) :
    vecIssue s c w stall op ok act = passWord (act (counted s c stall)) c.val 1 := by
  have hdefined : opcodeDefined 1 (opOf w) = true := by simp [opcodeDefined, hop, hdef]
  rw [vecIssue, issue_of_inTurn _ h hdefined (by simp [hop])]
  simp [hok, counted]

@[simp] theorem cluster_counted (s : State) (c : Fin 64) (stall : BitVec 32) (d : Nat) :
    cluster (counted s c stall) d = cluster s d := by
  simp only [counted]
  split <;> rfl

theorem counted_eq (s : State) (c : Fin 64) (stall : BitVec 32) : counted s c stall = { s with regs := (counted s c stall).regs } := by
  simp only [counted]
  split <;> rfl

@[simp] theorem cluster_countArisen (s : State) (k : RegKind) (c n d : Nat) : cluster (countArisen s k c n) d = cluster s d := by
  simp only [countArisen, countNonFinite, countAudit]
  split <;> rfl

@[simp] theorem cluster_modCluster (s : State) (c : Nat) (f : Cluster → Cluster) : cluster (modCluster s c f) c = f (cluster s c) :=
  cluster_setCluster s c _

theorem cluster_modCluster_other (s : State) {c d : Nat} (f : Cluster → Cluster) (h : d ≠ c) :
    cluster (modCluster s c f) d = cluster s d := cluster_setCluster_other s _ h

/-- The vector registers stay when a stream moves on. -/
@[simp] theorem vec_passWord (s : State) (c st : Nat) : (cluster (passWord s c st) c).vec = (cluster s c).vec := by
  simp [passWord, setStream]

theorem stream_passWord (s : State) {c st : Nat} (h : st < (cluster s c).streams.length) :
    stream (cluster (passWord s c st) c) st = (stream (cluster s c) st).next := by
  simp [passWord, setStream, stream, h]

theorem cluster_passWord_other (s : State) {c d : Nat} (st : Nat) (h : d ≠ c) : cluster (passWord s c st) d = cluster s d :=
  cluster_modCluster_other s _ h

@[simp] theorem cluster_setVec (s : State) (c : Nat) (v : VecRegs) : cluster (setVec s c v) c = { cluster s c with vec := v } :=
  cluster_modCluster s c _

theorem cluster_setVec_other (s : State) {c d : Nat} (v : VecRegs) (h : d ≠ c) : cluster (setVec s c v) d = cluster s d :=
  cluster_modCluster_other s _ h

/-! ### The vector registers after a row of writes -/

/-- R152: the active elements are those of the rows and columns below VLEN's. -/
theorem mem_activeCells (v : VecRegs) (p : Nat × Nat) : p ∈ activeCells v ↔ p.1 < v.rows ∧ p.2 < v.cols := by
  simp only [activeCells, List.mem_flatMap, List.mem_map, List.mem_range]
  constructor
  · rintro ⟨r, hr, k, hk, rfl⟩
    exact ⟨hr, hk⟩
  · rintro ⟨hr, hk⟩
    exact ⟨p.1, hr, p.2, hk, rfl⟩

/-- Writes of mask elements leave every register but M. -/
theorem foldl_setMask (v : VecRegs) (d : Nat) (x : Nat → Nat → Bool) (l : List (Nat × Nat)) :
    l.foldl (fun v p => setMask v d p.1 p.2 (x p.1 p.2)) v =
      { v with m := l.foldl (fun m p => mapSet (fun _ => false) m (1024 * d + 32 * p.1 + p.2) (x p.1 p.2)) v.m } :=
  List.foldl_hom (fun m => { v with m := m }) (fun _ _ => rfl)

/-- Writes of elements of V[d] leave every register but V. -/
theorem foldl_setColVec (v : VecRegs) (d : Nat) (x : Nat → F32) (l : List Nat) :
    l.foldl (fun v i => setColVec v d i (x i)) v =
      { v with v := l.foldl (fun m i => mapSet (fun _ => 0) m (32 * d + i) (x i)) v.v } :=
  List.foldl_hom (fun m => { v with v := m }) (fun _ _ => rfl)

/-- Writes of elements of U[d] leave every register but U. -/
theorem foldl_setRowVec (v : VecRegs) (d : Nat) (x : Nat → F32) (l : List Nat) :
    l.foldl (fun v i => setRowVec v d i (x i)) v =
      { v with u := l.foldl (fun m i => mapSet (fun _ => 0) m (32 * d + i) (x i)) v.u } :=
  List.foldl_hom (fun m => { v with u := m }) (fun _ _ => rfl)

/-- R152: a mask register written at the active elements reads as written there, and every other element as before. -/
theorem maskAt_foldl_setMask {v : VecRegs} (hrows : v.rows ≤ 32) (hcols : v.cols ≤ 32) (d : Nat) (x : Nat → Nat → Bool) {n r k : Nat}
    (hr : r < 32) (hk : k < 32) :
    maskAt ((activeCells v).foldl (fun v p => setMask v d p.1 p.2 (x p.1 p.2)) v) n r k =
      if n = d ∧ r < v.rows ∧ k < v.cols then x r k else maskAt v n r k := by
  have same : ∀ p ∈ activeCells v, 1024 * d + 32 * p.1 + p.2 = 1024 * n + 32 * r + k → n = d ∧ p.1 = r ∧ p.2 = k := by
    intro p hp heq
    rw [mem_activeCells] at hp
    omega
  have hit : (∃ p ∈ activeCells v, 1024 * d + 32 * p.1 + p.2 = 1024 * n + 32 * r + k) ↔ n = d ∧ r < v.rows ∧ k < v.cols := by
    constructor
    · rintro ⟨p, hp, heq⟩
      obtain ⟨hn, rfl, rfl⟩ := same p hp heq
      exact ⟨hn, (mem_activeCells v p).mp hp⟩
    · rintro ⟨rfl, hactive⟩
      exact ⟨(r, k), (mem_activeCells v (r, k)).mpr hactive, rfl⟩
  rw [foldl_setMask, maskAt, mapGet_foldl_set _ _ _ (x := x r k)]
  · exact ite_congr (propext hit) (fun _ => rfl) (fun _ => rfl)
  · intro p hp heq
    obtain ⟨-, rfl, rfl⟩ := same p hp heq
    rfl

/-- A table of vectors of 32 elements whose vector `d` is written at the elements below `a`. -/
theorem mapGet_foldl_setVector {a : Nat} (ha : a ≤ 32) (m : SMap F32) (d : Nat) (x : Nat → F32) {n i : Nat} (hi : i < 32) :
    mapGet (fun _ => 0) ((List.range a).foldl (fun m i => mapSet (fun _ => 0) m (32 * d + i) (x i)) m) (32 * n + i) =
      if n = d ∧ i < a then x i else mapGet (fun _ => 0) m (32 * n + i) := by
  have hit : (∃ p ∈ List.range a, 32 * d + p = 32 * n + i) ↔ n = d ∧ i < a := by
    constructor
    · rintro ⟨p, hp, heq⟩
      rw [List.mem_range] at hp
      omega
    · rintro ⟨rfl, hlt⟩
      exact ⟨i, List.mem_range.mpr hlt, rfl⟩
  rw [mapGet_foldl_set _ _ _ (x := x i)]
  · exact ite_congr (propext hit) (fun _ => rfl) (fun _ => rfl)
  · intro p hp heq
    rw [List.mem_range] at hp
    rw [show p = i by omega]

theorem colVec_foldl_setColVec {v : VecRegs} {a : Nat} (ha : a ≤ 32) (d : Nat) (x : Nat → F32) {n r : Nat} (hr : r < 32) :
    colVec ((List.range a).foldl (fun v i => setColVec v d i (x i)) v) n r = if n = d ∧ r < a then x r else colVec v n r := by
  rw [foldl_setColVec]
  exact mapGet_foldl_setVector ha v.v d x hr

theorem rowVec_foldl_setRowVec {v : VecRegs} {a : Nat} (ha : a ≤ 32) (d : Nat) (x : Nat → F32) {n k : Nat} (hk : k < 32) :
    rowVec ((List.range a).foldl (fun v i => setRowVec v d i (x i)) v) n k = if n = d ∧ k < a then x k else rowVec v n k := by
  rw [foldl_setRowVec]
  exact mapGet_foldl_setVector ha v.u d x hk

/-! ### Comparisons and mask instructions -/

/-- R152, R160: the state `t` follows `s` by an instruction of cluster `c` that writes `x` to mask register `d` at the active elements:
no other mask element, vector register, stream position or cluster changes, nor any other part of the state but the counters. -/
def MaskWritten (s t : State) (c d : Nat) (x : Nat → Nat → Bool) : Prop :=
  let v := (cluster s c).vec
  (cluster t c).vec = { v with m := (cluster t c).vec.m } ∧ t = { s with clusters := t.clusters, regs := t.regs } ∧
  stream (cluster t c) 1 = (stream (cluster s c) 1).next ∧ (∀ e, e ≠ c → cluster t e = cluster s e) ∧
  ∀ n r k, r < 32 → k < 32 → maskAt (cluster t c).vec n r k =
    if n = d ∧ r < v.rows ∧ k < v.cols then x r k else maskAt v n r k

/-- Only clusters and registers change when a counted instruction writes a mask register and its stream moves on. -/
theorem passWord_writeMask_eq (s : State) (c : Fin 64) (stall : BitVec 32) (d : Nat) (f : VecRegs → Nat → Nat → Bool) :
    let t := passWord (writeMask (counted s c stall) c.val d f) c.val 1
    t = { s with clusters := t.clusters, regs := t.regs } := by
  intro t
  have h : t = { counted s c stall with clusters := t.clusters } := rfl
  rw [h, counted_eq]

/-- R152, R153: a vector instruction in its turn that writes a mask register. -/
theorem vecIssue_writeMask {s : State} {c : Fin 64} {w : Word} {op : Nat} {ok : State → Bool} (stall : BitVec 32) (d : Nat)
    (f : VecRegs → Nat → Nat → Bool) (h : inTurn s c.val 1 w) (hop : opOf w = op) (hdef : vecOpcode op = true) (hok : ok s = true)
    (hrows : (cluster s c.val).vec.rows ≤ 32) (hcols : (cluster s c.val).vec.cols ≤ 32) :
    MaskWritten s (vecIssue s c w stall op ok (fun s => writeMask s c.val d f)) c.val d (f (cluster s c.val).vec) := by
  rw [vecIssue_of_inTurn stall _ h hop hdef hok]
  obtain ⟨hlen, -⟩ := h
  have hvec : (cluster (passWord (writeMask (counted s c stall) c.val d f) c.val 1) c.val).vec =
      (activeCells (cluster s c.val).vec).foldl
        (fun x p => setMask x d p.1 p.2 (f (cluster s c.val).vec p.1 p.2)) (cluster s c.val).vec := by
    simp [writeMask]
  refine ⟨?registers, passWord_writeMask_eq s c stall d f, ?stream, fun e he => ?others, fun n r k hr hk => ?elements⟩
  case registers => rw [hvec, foldl_setMask]
  case stream => rw [stream_passWord _ (by simpa [writeMask] using hlen)]; simp [writeMask, stream]
  case others => rw [cluster_passWord_other _ _ he, writeMask, cluster_setVec_other _ _ he, cluster_counted]
  case elements => rw [hvec, maskAt_foldl_setMask hrows hcols d _ hr hk]

/-- R160: each comparison is a `compareInsn` with its opcode and relation. -/
theorem exec_compareRows {c : Fin 64} {w : Word} {stall : BitVec 32} {i : Instr} {op : Nat} {rel : Ext → Ext → Bool}
    (h : (i, op, rel) ∈ compareRows c w stall) (s : State) :
    exec i s = .next (compareInsn s c w stall op rel) ∧ vecOpcode op = true := by
  simp only [compareRows, List.mem_cons, Prod.mk.injEq, List.not_mem_nil, or_false] at h
  obtain ⟨rfl, rfl, rfl⟩ | ⟨rfl, rfl, rfl⟩ | ⟨rfl, rfl, rfl⟩ | ⟨rfl, rfl, rfl⟩ := h <;> exact ⟨rfl, rfl⟩

/-- Each logical instruction of two masks is a `maskInsn` with its opcode and function. -/
theorem exec_maskRows {c : Fin 64} {w : Word} {stall : BitVec 32} {i : Instr} {op : Nat} {f : Bool → Bool → Bool}
    (h : (i, op, f) ∈ maskRows c w stall) (s : State) :
    exec i s = .next (maskInsn s c w stall op f) ∧ vecOpcode op = true := by
  simp only [maskRows, List.mem_cons, Prod.mk.injEq, List.not_mem_nil, or_false] at h
  obtain ⟨rfl, rfl, rfl⟩ | ⟨rfl, rfl, rfl⟩ | ⟨rfl, rfl, rfl⟩ := h <;> exact ⟨rfl, rfl⟩

/-! ### Reductions -/

/-- A reduction in its turn leaves the vector registers with the results written one by one. -/
theorem vec_reduceInsn {s : State} {c : Fin 64} {w : Word} {op : Nat} (stall : BitVec 32) (byRow : Bool) (g : List F32 → F32)
    (h : inTurn s c.val 1 w) (hop : opOf w = op) (hdef : vecOpcode op = true)
    (hform : formOk ⟨false, true, false, false, false⟩ w = true) (hd : insD w ≤ 7) :
    let v := (cluster s c.val).vec
    (cluster (reduceInsn s c w stall op byRow g) c.val).vec =
      (List.range (if byRow then v.rows else v.cols)).foldl (fun x i =>
        if byRow then setColVec x (insD w) i (g (selected v w byRow i)) else setRowVec x (insD w) i (g (selected v w byRow i))) v := by
  rw [reduceInsn, vecIssue_of_inTurn stall _ h hop hdef (by simp [hform, hd])]
  simp

/-- R161: a reduction by rows in its turn writes V[D] at the active rows and no other vector register. -/
theorem reduceInsn_rows {s : State} {c : Fin 64} {w : Word} {op : Nat} (stall : BitVec 32) (g : List F32 → F32)
    (h : inTurn s c.val 1 w) (hop : opOf w = op) (hdef : vecOpcode op = true)
    (hform : formOk ⟨false, true, false, false, false⟩ w = true) (hd : insD w ≤ 7) (hrows : (cluster s c.val).vec.rows ≤ 32) :
    let v := (cluster s c.val).vec
    let x := (cluster (reduceInsn s c w stall op true g) c.val).vec
    x = { v with v := x.v } ∧ ∀ n r, n ≤ 7 → r < 32 → colVec x n r =
      if n = insD w ∧ r < v.rows then g (selected v w true r) else colVec v n r := by
  have hvec := vec_reduceInsn stall true g h hop hdef hform hd
  simp only [if_true] at hvec
  simp only [hvec]
  exact ⟨by rw [foldl_setColVec], fun n r _ hr => colVec_foldl_setColVec hrows _ _ hr⟩

/-- R161: a reduction by columns in its turn writes U[D] at the active columns and no other vector register. -/
theorem reduceInsn_cols {s : State} {c : Fin 64} {w : Word} {op : Nat} (stall : BitVec 32) (g : List F32 → F32)
    (h : inTurn s c.val 1 w) (hop : opOf w = op) (hdef : vecOpcode op = true)
    (hform : formOk ⟨false, true, false, false, false⟩ w = true) (hd : insD w ≤ 7) (hcols : (cluster s c.val).vec.cols ≤ 32) :
    let v := (cluster s c.val).vec
    let x := (cluster (reduceInsn s c w stall op false g) c.val).vec
    x = { v with u := x.u } ∧ ∀ n k, n ≤ 7 → k < 32 → rowVec x n k =
      if n = insD w ∧ k < v.cols then g (selected v w false k) else rowVec v n k := by
  have hvec := vec_reduceInsn stall false g h hop hdef hform hd
  simp only [Bool.false_eq_true, if_false] at hvec
  simp only [hvec]
  exact ⟨by rw [foldl_setRowVec], fun n k _ hk => rowVec_foldl_setRowVec hcols _ _ hk⟩

/-! ### The obligation -/

/-- Settles O30: it holds. Every comparison and mask instruction is one `writeMask` in its turn, and every reduction one row of writes
of V[D] or U[D]. -/
theorem vectorMasks : Obligations.VectorMasks := by
  unfold Obligations.VectorMasks
  refine ⟨fun s c w stall h => ?masks, fun s c w stall h hform hd => ?reductions⟩
  case masks =>
    intro v gives hrows hcols
    refine ⟨fun i op f hi hop hform hd => ?compare, fun i op f hi hop hok => ?logic, fun hop hok => ?vmnot, fun hop hprec himm hd => ?vmset⟩
    case compare =>
      obtain ⟨hexec, hdef⟩ := exec_compareRows hi s
      exact ⟨_, hexec, vecIssue_writeMask stall _ _ h hop hdef (by simp [hform, hd]) hrows hcols⟩
    case logic =>
      obtain ⟨hexec, hdef⟩ := exec_maskRows hi s
      exact ⟨_, hexec, vecIssue_writeMask stall _ _ h hop hdef hok hrows hcols⟩
    case vmnot => exact ⟨_, rfl, vecIssue_writeMask stall _ _ h hop rfl hok hrows hcols⟩
    case vmset => exact ⟨_, rfl, vecIssue_writeMask stall _ _ h hop rfl (by simp [hprec, himm, hd]) hrows hcols⟩
  case reductions =>
    intro v hrows hcols rows cols
    exact ⟨fun hop => ⟨_, rfl, reduceInsn_rows stall reduceSum h hop rfl hform hd hrows⟩,
      fun hop => ⟨_, rfl, reduceInsn_cols stall reduceSum h hop rfl hform hd hcols⟩,
      fun hop => ⟨_, rfl, reduceInsn_rows stall reduceMax h hop rfl hform hd hrows⟩,
      fun hop => ⟨_, rfl, reduceInsn_cols stall reduceMax h hop rfl hform hd hcols⟩⟩

end Sys2Proof.Machine
end

section
/-!
PROOFS. O40: what WR_NC, atomics, SC and REDUCE do to a line in the cellar (R305, R315, R317 to R319). In order: little-endian fields
and replaced parts of byte strings, what the home's operations leave of the cellar and of the messages, the bytes of a masked write, the
values of atomics and reductions, reservations, and the obligation.
-/
namespace Sys2Proof.Machine

/-! ### Bits and byte strings -/

theorem natBit_eq_testBit (n i : Nat) : natBit n i = n.testBit i := by
  rw [Nat.testBit_eq_decide_div_mod_eq, natBit]
  exact Bool.beq_eq_decide_eq _ _

@[simp] theorem length_leBytes (n v : Nat) : (leBytes n v).length = n := by
  induction n generalizing v with
  | zero => rfl
  | succ n ih => simp [leBytes, ih]

theorem leNat_lt (l : List Byte) : leNat l < 2 ^ (8 * l.length) := by
  induction l with
  | nil => simp [leNat]
  | cons b t ih =>
    have hb : b.toNat < 256 := b.isLt
    rw [List.length_cons, show 8 * (t.length + 1) = 8 * t.length + 8 by omega, Nat.pow_add, leNat]
    omega

/-- A number that `n` bytes hold is read back from them. -/
theorem leNat_leBytes {n v : Nat} (h : v < 2 ^ (8 * n)) : leNat (leBytes n v) = v := by
  induction n generalizing v with
  | zero => exact (Nat.lt_one_iff.mp h).symm
  | succ n ih =>
    rw [show 8 * (n + 1) = 8 * n + 8 by omega, Nat.pow_add] at h
    rw [leBytes, leNat, ih (by omega), BitVec.toNat_ofNat]
    omega

theorem fieldLe_lt (l : List Byte) (a n : Nat) : fieldLe l a n < 2 ^ (8 * n) := by
  refine Nat.lt_of_lt_of_le (leNat_lt _) (Nat.pow_le_pow_right (by decide) ?_)
  have : (slice l a n).length ≤ n := List.length_take_le _ _
  omega

theorem getElem?_slice (l : List Byte) (a n k : Nat) : (slice l a n)[k]? = if k < n then l[a + k]? else none := by
  rw [slice, List.getElem?_take, List.getElem?_drop]

/-- A field of a part of a string is a field of the string. -/
theorem fieldLe_slice (l : List Byte) {a m o n : Nat} (h : o + n ≤ m) : fieldLe (slice l a m) o n = fieldLe l (a + o) n := by
  refine congrArg leNat (List.ext_getElem? fun k => ?_)
  simp only [getElem?_slice]
  by_cases hk : k < n
  · simp [hk, show o + k < m by omega, Nat.add_assoc]
  · simp [hk]

theorem length_splice {l new : List Byte} {a : Nat} (h : a + new.length ≤ l.length) :
    (splice l a new).length = l.length := by
  rw [splice, List.length_append, List.length_append, List.length_take, List.length_drop]
  omega

/-- A string with a part replaced: the new bytes there, and the old ones elsewhere. -/
theorem getElem?_splice {l : List Byte} {a : Nat} (new : List Byte) (h : a ≤ l.length) (k : Nat) :
    (splice l a new)[k]? = if a ≤ k ∧ k < a + new.length then new[k - a]? else l[k]? := by
  have hlen : (l.take a).length = a := List.length_take_of_le h
  rw [splice, List.append_assoc, List.getElem?_append, hlen]
  by_cases before : k < a
  · simp [before, Nat.not_le.mpr before]
  · by_cases within : k < a + new.length
    · simp [before, List.getElem?_append, within, Nat.le_of_not_lt before, show k - a < new.length by omega]
    · simp [before, List.getElem?_append, within, show ¬ k - a < new.length by omega,
        show a + new.length + (k - a - new.length) = k by omega]

/-- A field of the replaced part of a string is a field of the new bytes. -/
theorem fieldLe_splice {l new : List Byte} {a o n : Nat} (h : a ≤ l.length) (hn : o + n ≤ new.length) :
    fieldLe (splice l a new) (a + o) n = fieldLe new o n := by
  refine congrArg leNat (List.ext_getElem? fun k => ?_)
  simp only [getElem?_slice, getElem?_splice new h]
  by_cases hk : k < n
  · simp [hk, show a ≤ a + o + k by omega, show a + o + k < a + new.length by omega, show a + o + k - a = o + k by omega]
  · simp [hk]

/-- A value written as a field of a string is read back. -/
theorem fieldLe_splice_leBytes {l : List Byte} {a n v : Nat} (h : a ≤ l.length) (hv : v < 2 ^ (8 * n)) :
    fieldLe (splice l a (leBytes n v)) a n = v := by
  have hfield := fieldLe_splice (new := leBytes n v) (o := 0) (n := n) h (by simp)
  rw [Nat.add_zero] at hfield
  rw [hfield, fieldLe, slice, List.drop_zero, List.take_of_length_le (Nat.le_of_eq (length_leBytes n v)), leNat_leBytes hv]

/-- The length of a row of blocks of one length. -/
theorem length_flatMap_range {f : Nat → List Byte} {n : Nat} (hf : ∀ i, (f i).length = n) (m : Nat) :
    ((List.range m).flatMap f).length = m * n := by
  induction m with
  | zero => exact (Nat.zero_mul n).symm
  | succ m ih =>
    rw [List.range_succ, List.flatMap_append, List.length_append, ih, List.flatMap_singleton, hf, Nat.succ_mul]

/-- Block `e` of a row of blocks of one length. -/
theorem slice_flatMap_range {f : Nat → List Byte} {n : Nat} (hf : ∀ i, (f i).length = n) {m e : Nat} (he : e < m) :
    slice ((List.range m).flatMap f) (e * n) n = f e := by
  induction m with
  | zero => omega
  | succ m ih =>
    have hlen := length_flatMap_range hf m
    rw [List.range_succ, List.flatMap_append, List.flatMap_singleton, slice]
    rcases Nat.lt_or_eq_of_le (Nat.le_of_lt_succ he) with hlt | rfl
    · have hfit : e * n + n ≤ m * n := by rw [← Nat.succ_mul]; exact Nat.mul_le_mul_right n hlt
      rw [List.drop_append_of_le_length (by omega), List.take_append_of_le_length (by rw [List.length_drop]; omega)]
      exact ih hlt
    · rw [← hlen, List.drop_left, ← hf e, List.take_length]

/-! ### What an operation of a home leaves -/

theorem LogFrame.cellar_eq {s t : State} (h : LogFrame s t) : t.cellar = s.cellar := (congrArg State.cellar h).symm

theorem LogFrame.cohOut_eq {s t : State} (h : LogFrame s t) : t.cohOut = s.cohOut := (congrArg State.cohOut h).symm

theorem LogFrame.cellarLine_eq {s t : State} (h : LogFrame s t) (line : Nat) : cellarLine t line = cellarLine s line :=
  congrArg (mapGet (fun _ => none) · line) h.cellar_eq

theorem doorbellMisuse_log (s : State) (line : Nat) : LogFrame s (doorbellMisuse s line) := by
  unfold doorbellMisuse
  split
  · exact (setFlag_log _ _ _ _ _).trans (raiseEvent_log _ _)
  · exact LogFrame.refl s

/-- R293: an access of a line in the cellar is a hit, and changes a count alone. -/
theorem fetchLine_log {s : State} {line : Nat} {c : CelLine} (ways : Nat) (h : cellarLine s line = some c) :
    LogFrame s (fetchLine s line ways) := by
  simp only [fetchLine, h]
  exact count_log _ _ _ _ _ _

/-- What a request finds of a line in the cellar. -/
theorem homeLine_of_cellarLine {s : State} {line : Nat} {c : CelLine} (src : Nat) (h : cellarLine s line = some c) :
    homeLine s src line = (c.data, c.poison, fetchLine s line (requesterWays s src)) := by
  have hafter := (fetchLine_log (requesterWays s src) h).cellarLine_eq line
  simp only [homeLine, hafter, h]

@[simp] theorem clearReservations_cohOut_eq (s : State) (line : Nat) (keep : Option Nat) :
    (clearReservations s line keep).cohOut = s.cohOut := rfl

@[simp] theorem clearReservations_cellar_eq (s : State) (line : Nat) (keep : Option Nat) :
    (clearReservations s line keep).cellar = s.cellar := rfl

@[simp] theorem cellarLine_clearReservations (s : State) (line : Nat) (keep : Option Nat) (n : Nat) :
    cellarLine (clearReservations s line keep) n = cellarLine s n := rfl

@[simp] theorem cellarLine_count (s : State) (k : RegKind) (a i n j line : Nat) :
    cellarLine (count s k a i n j) line = cellarLine s line := rfl

@[simp] theorem cohReply_cohOut (s : State) (home typ : Nat) (r : CohReq) (payload : List Byte) (detail : Nat) :
    (cohReply s home typ r payload detail).cohOut =
      s.cohOut ++ [⟨typ, r.src, home, r.src, r.tag, r.line, payload, detail, false⟩] := rfl

@[simp] theorem cohReply_cellar_eq (s : State) (home typ : Nat) (r : CohReq) (payload : List Byte) (detail : Nat) :
    (cohReply s home typ r payload detail).cellar = s.cellar := rfl

@[simp] theorem cellarLine_cohReply (s : State) (home typ : Nat) (r : CohReq) (payload : List Byte) (detail line : Nat) :
    cellarLine (cohReply s home typ r payload detail) line = cellarLine s line := rfl

@[simp] theorem tidyEntry_cohOut_eq (s : State) (line : Nat) : (tidyEntry s line).cohOut = s.cohOut := by
  unfold tidyEntry
  split
  · split <;> rfl
  · rfl

@[simp] theorem tidyEntry_cellar_eq (s : State) (line : Nat) : (tidyEntry s line).cellar = s.cellar := by
  unfold tidyEntry
  split
  · split <;> rfl
  · rfl

@[simp] theorem pokeLine_cohOut_eq (s : State) (line off : Nat) (bytes : List Byte) :
    (pokeLine s line off bytes).cohOut = s.cohOut := by
  unfold pokeLine
  split
  · exact (doorbellMisuse_log _ line).cohOut_eq
  · rfl

/-- A line in the cellar after bytes of it are replaced. -/
theorem cellarLine_pokeLine {s : State} {line : Nat} {c : CelLine} (off : Nat) (bytes : List Byte) (h : cellarLine s line = some c) :
    cellarLine (pokeLine s line off bytes) line = some { c with data := splice c.data off bytes, dirty := true } := by
  simp only [pokeLine, h]
  rw [(doorbellMisuse_log _ line).cellarLine_eq, cellarLine_setCellarLine]

/-! ### The bytes of a masked write -/

/-- No byte of a sector is selected when its part of the mask is 0. -/
theorem natBit_eq_false_of_sector {mask j k : Nat} (h : mask / 2 ^ (32 * j) % 2 ^ 32 = 0) (hk : k / 32 = j) : natBit mask k = false := by
  have hbit : (mask / 2 ^ (32 * j) % 2 ^ 32).testBit (k - 32 * j) = mask.testBit k := by
    rw [Nat.testBit_mod_two_pow, Nat.testBit_div_two_pow, show k - 32 * j + 32 * j = k by omega]
    simp [show k - 32 * j < 32 by omega]
  rw [natBit_eq_testBit, ← hbit, h, Nat.zero_testBit]

theorem getElem?_maskMerge {old new : List Byte} (mask base : Nat) {k : Nat} (ho : k < old.length) (hn : k < new.length) :
    (maskMerge old new mask base)[k]? = if natBit mask (base + k) then new[k]? else old[k]? := by
  simp only [maskMerge, List.getElem?_mapIdx, List.getElem?_eq_getElem ho, List.getElem?_eq_getElem hn, Option.map_some,
    List.getD_eq_getElem?_getD, Option.getD_some]
  split <;> rfl

/-- `c'` is the line `c`, unpoisoned, with the bytes of its sectors from `lo` to `hi - 1` that a mask selects replaced by a payload's. -/
def MaskedFrom (c c' : CelLine) (payload : List Byte) (mask lo hi : Nat) : Prop :=
  c'.poison = 0#4 ∧ c'.data.length = 128 ∧ ∀ k < 128,
    c'.data[k]? = if (lo ≤ k / 32 ∧ k / 32 < hi) ∧ natBit mask k = true then payload[k]? else c.data[k]?

/-- A sector none of whose bytes is selected leaves the line. -/
theorem maskSector_of_unselected (s : State) (home : Nat) (c : CelLine) (payload : List Byte) {mask j : Nat}
    (hbits : mask / 2 ^ (32 * j) % 2 ^ 32 = 0) : (maskSector s home c payload mask j).1 = c := by
  rw [maskSector, if_pos hbits]

/-- A sector without poison is merged with the selected bytes. -/
theorem maskSector_of_clean (s : State) (home : Nat) {c : CelLine} (payload : List Byte) {mask j : Nat}
    (hbits : mask / 2 ^ (32 * j) % 2 ^ 32 ≠ 0) (hclean : natBit c.poison.toNat j = false) :
    (maskSector s home c payload mask j).1 = { c with
      data := splice c.data (32 * j) (maskMerge (slice c.data (32 * j) 32) (slice payload (32 * j) 32) mask (32 * j))
      dirty := true } := by
  rw [maskSector, if_neg hbits, hclean]
  rfl

theorem length_maskMerge (old new : List Byte) (mask base : Nat) : (maskMerge old new mask base).length = old.length :=
  List.length_mapIdx

theorem length_slice {l : List Byte} {a n : Nat} (h : a + n ≤ l.length) : (slice l a n).length = n := by
  rw [slice, List.length_take, List.length_drop]
  omega

/-- R305, R315: one sector of a masked write of an unpoisoned line. -/
theorem maskedFrom_maskSector (s : State) (home : Nat) {c : CelLine} {payload : List Byte} (mask : Nat) {j : Nat} (hj : j < 4)
    (hdata : c.data.length = 128) (hpoison : c.poison = 0#4) (hpay : 128 ≤ payload.length) :
    MaskedFrom c (maskSector s home c payload mask j).1 payload mask j (j + 1) := by
  by_cases hbits : mask / 2 ^ (32 * j) % 2 ^ 32 = 0
  · rw [maskSector_of_unselected s home c payload hbits]
    refine ⟨hpoison, hdata, fun k _ => (if_neg ?_).symm⟩
    rintro ⟨hsector, hbit⟩
    rw [natBit_eq_false_of_sector hbits (by omega)] at hbit
    exact absurd hbit (by decide)
  · have hold : (slice c.data (32 * j) 32).length = 32 := length_slice (by omega)
    have hgiven : (slice payload (32 * j) 32).length = 32 := length_slice (by omega)
    have hnew := (length_maskMerge (slice c.data (32 * j) 32) (slice payload (32 * j) 32) mask (32 * j)).trans hold
    rw [maskSector_of_clean s home payload hbits (by simp [hpoison, natBit])]
    refine ⟨hpoison, (length_splice (by omega)).trans hdata, fun k _ => ?_⟩
    rw [getElem?_splice _ (by omega), hnew]
    by_cases hin : 32 * j ≤ k ∧ k < 32 * j + 32
    · obtain ⟨i, rfl⟩ := Nat.exists_eq_add_of_le hin.1
      have hi : i < 32 := by omega
      rw [if_pos hin, Nat.add_sub_cancel_left, getElem?_maskMerge mask (32 * j) (by omega) (by omega), getElem?_slice,
        getElem?_slice, if_pos hi, if_pos hi]
      exact ite_congr (propext ⟨fun hbit => ⟨by omega, hbit⟩, And.right⟩) (fun _ => rfl) (fun _ => rfl)
    · rw [if_neg hin, if_neg (by omega)]

/-- R305, R315: the last `n` sectors of a masked write of an unpoisoned line. -/
theorem maskedFrom_maskSectors (home : Nat) {payload : List Byte} (mask : Nat) (hpay : 128 ≤ payload.length) {n : Nat} (hn : n ≤ 4)
    (s : State) {c : CelLine} (hdata : c.data.length = 128) (hpoison : c.poison = 0#4) :
    MaskedFrom c (maskSectors s home c payload mask n).1 payload mask (4 - n) 4 := by
  induction n generalizing s c with
  | zero => exact ⟨hpoison, hdata, fun k _ => (if_neg (by omega)).symm⟩
  | succ n ih =>
    obtain ⟨hpoison₁, hdata₁, hbytes⟩ := maskedFrom_maskSector s home mask (show 3 - n < 4 by omega) hdata hpoison hpay
    obtain ⟨hpoison₂, hdata₂, hbytes'⟩ := ih (by omega) (maskSector s home c payload mask (3 - n)).2 hdata₁ hpoison₁
    refine ⟨hpoison₂, hdata₂, fun k hk => (hbytes' k hk).trans ?_⟩
    rw [hbytes k hk]
    by_cases hbit : natBit mask k = true
    · by_cases hlater : 4 - n ≤ k / 32
      · rw [if_pos ⟨by omega, hbit⟩, if_pos ⟨by omega, hbit⟩]
      · rw [if_neg (by omega)]
        simp only [hbit, and_true]
        exact ite_congr (propext (by omega)) (fun _ => rfl) (fun _ => rfl)
    · simp [hbit]

/-- R305: a WR_NC of an unpoisoned line in the cellar replaces the bytes that its mask selects. -/
theorem applyMasked_replaces {s : State} (home : Nat) {r : CohReq} {c : CelLine} (hline : cellarLine s r.line = some c)
    (hdata : c.data.length = 128) (hpay : r.payload.length = 144) (hpoison : c.poison = 0#4) :
    ∃ c', cellarLine (applyMasked s home r) r.line = some c' ∧
      ∀ k < 128, c'.data[k]? = if natBit (fieldLe r.payload 128 16) k then r.payload[k]? else c.data[k]? := by
  have hbefore : cellarLine (clearReservations s r.line (some r.src)) r.line = some c := hline
  have hfetched := ((fetchLine_log (requesterWays s r.src) hbefore).cellarLine_eq r.line).trans hbefore
  have hlong : 128 ≤ r.payload.length := by omega
  obtain ⟨-, -, hbytes⟩ := maskedFrom_maskSectors home (fieldLe r.payload 128 16) hlong (Nat.le_refl 4)
    (fetchLine (clearReservations s r.line (some r.src)) r.line (requesterWays s r.src)) hdata hpoison
  refine ⟨_, ?_, fun k hk => (hbytes k hk).trans ?_⟩
  · simp only [applyMasked, hfetched]
    rw [(doorbellMisuse_log _ r.line).cellarLine_eq, cellarLine_setCellarLine]
  · simp [show k / 32 < 4 by omega]

/-! ### The values of atomics and reductions -/

/-- The bytes of an element. -/
theorem elementSize_cases (r : CohReq) : (if r.size8 then 8 else 4) = 4 ∨ (if r.size8 then 8 else 4) = 8 := by
  split
  · exact .inr rfl
  · exact .inl rfl

/-- R317: the new value of an element fits it. -/
theorem aopValue_lt {size old opd : Nat} (aop cmp : Nat) (hsize : size = 4 ∨ size = 8) (hold : old < 2 ^ (8 * size))
    (hopd : opd < 2 ^ (8 * size)) : aopValue aop size old opd cmp < 2 ^ (8 * size) := by
  have hfloat : ∀ x : F32, x.toNat < 2 ^ (8 * size) := fun x =>
    Nat.lt_of_lt_of_le x.isLt (Nat.pow_le_pow_right (by decide) (by omega))
  unfold aopValue
  dsimp only
  split
  case h_1 => exact hopd
  case h_2 => split <;> assumption
  case h_3 => exact Nat.mod_lt _ (Nat.two_pow_pos _)
  case h_4 => exact Nat.and_lt_two_pow _ hopd
  case h_5 => exact Nat.or_lt_two_pow hold hopd
  case h_6 => exact Nat.xor_lt_two_pow hold hopd
  case h_7 => split <;> assumption
  case h_8 => split <;> assumption
  case h_9 => exact Nat.lt_of_le_of_lt (Nat.min_le_left _ _) hold
  case h_10 => exact Nat.max_lt.mpr ⟨hold, hopd⟩
  case h_11 => exact hfloat _
  case h_12 => exact hfloat _
  case h_13 => exact hfloat _
  case h_14 => exact hold

/-- R319: an element of a sector after a REDUCE. -/
theorem fieldLe_reduceSector {size e : Nat} (aop emask : Nat) (old opd : List Byte) (hsize : size = 4 ∨ size = 8) (he : e * size < 32) :
    fieldLe (reduceSector aop size emask old opd) (e * size) size =
      if natBit emask e then aopValue aop size (fieldLe old (e * size) size) (fieldLe opd (e * size) size) 0
      else fieldLe old (e * size) size := by
  have hblock : e < 32 / size := by obtain rfl | rfl := hsize <;> omega
  rw [fieldLe, reduceSector, slice_flatMap_range (fun i => length_leBytes _ _) hblock, leNat_leBytes]
  split
  · exact aopValue_lt _ _ hsize (fieldLe_lt _ _ _) (fieldLe_lt _ _ _)
  · exact fieldLe_lt _ _ _

theorem length_reduceSector {size : Nat} (aop emask : Nat) (old opd : List Byte) (hsize : size = 4 ∨ size = 8) :
    (reduceSector aop size emask old opd).length = 32 := by
  rw [reduceSector, length_flatMap_range fun i => length_leBytes _ _]
  obtain rfl | rfl := hsize <;> rfl

/-! ### Reservations -/

theorem mapGet_of_not_listed {α : Type} (d : Nat → α) {m : SMap α} {k : Nat} (h : ∀ e ∈ m, e.1 ≠ k) : mapGet d m k = d k := by
  induction m with
  | nil => rfl
  | cons e t ih =>
    rw [mapGet, if_neg (h e List.mem_cons_self), ih (fun x hx => h x (List.mem_cons_of_mem e hx))]

/-- R318: an agent none of whose reservations is listed has none at any home. -/
theorem holdsReservation_eq_false {s : State} {src : Nat} (home line : Nat) (hsrc : src < 256)
    (h : ∀ e ∈ s.reservations, e.1 % 256 ≠ src) : holdsReservation s home src line = false := by
  have hnone : mapGet (fun _ => none) s.reservations (256 * home + src) = none :=
    mapGet_of_not_listed _ (fun e he heq => h e he (by omega))
  simp [holdsReservation, hnone]

/-! ### Atomics and reductions of a line in the cellar -/

section
variable {s : State} (home : Nat) {r : CohReq} {c : CelLine} (hline : cellarLine s r.line = some c) (hdata : c.data.length = 128)
include hline hdata

/-- R317: an atomic under AOP 0 to 12 answers the old value and writes the new one alone. -/
theorem applyAtomic_value (hfit : r.offset + (if r.size8 then 8 else 4) ≤ 128) (haop : r.aop ≤ 12) :
    let size := if r.size8 then 8 else 4
    let old := fieldLe c.data r.offset size
    let t := applyAtomic s home r c.data
    t.cohOut = s.cohOut ++ [⟨0x14, r.src, home, r.src, r.tag, r.line, leBytes 8 old, 0, false⟩] ∧
    ∃ c', cellarLine t r.line = some c' ∧
      fieldLe c'.data r.offset size = aopValue r.aop size old (fieldLe r.payload 0 size) (fieldLe r.payload 8 size) ∧
      ∀ k < 128, (k < r.offset ∨ r.offset + size ≤ k) → c'.data[k]? = c.data[k]? := by
  intro size old t
  have ht : t = cohReply (pokeLine (clearReservations (count s .celAtomics home 0) r.line (some r.src)) r.line r.offset
      (leBytes size (aopValue r.aop size old (fieldLe r.payload 0 size) (fieldLe r.payload 8 size)))) home 0x14 r
      (leBytes 8 old) 0 := if_neg (by omega)
  rw [ht]
  refine ⟨by simp, _, (cellarLine_cohReply _ _ _ _ _ _ _).trans (cellarLine_pokeLine _ _ hline), ?_, fun k _ hk => ?_⟩
  · exact fieldLe_splice_leBytes (by omega) (aopValue_lt _ _ (elementSize_cases r) (fieldLe_lt _ _ _) (fieldLe_lt _ _ _))
  · rw [getElem?_splice _ (by omega), length_leBytes, if_neg (by omega)]

/-- R318: an SC whose agent's reservation names the line writes its operand and answers 0. -/
theorem applyAtomic_sc_succeeds (hfit : r.offset + (if r.size8 then 8 else 4) ≤ 128) (haop : r.aop = 13)
    (hres : holdsReservation s home r.src r.line = true) :
    let size := if r.size8 then 8 else 4
    let t := applyAtomic s home r c.data
    t.cohOut = s.cohOut ++ [⟨0x14, r.src, home, r.src, r.tag, r.line, leBytes 8 0, 0, false⟩] ∧
    ∃ c', cellarLine t r.line = some c' ∧ fieldLe c'.data r.offset size = fieldLe r.payload 0 size := by
  intro size t
  have hres' : holdsReservation (count s .celAtomics home 0) home r.src r.line = true := hres
  have hwritten := cellarLine_pokeLine (s := count s .celAtomics home 0) r.offset (leBytes size (fieldLe r.payload 0 size)) hline
  refine ⟨?_, { c with data := splice c.data r.offset (leBytes size (fieldLe r.payload 0 size)), dirty := true }, ?_,
    fieldLe_splice_leBytes (by omega) (fieldLe_lt _ _ _)⟩
  · simp [t, applyAtomic, haop, hres', boolNat]
  · simp only [t, applyAtomic, haop, hres', if_true]
    exact hwritten

/-- R319: a REDUCE applies its operation to the elements that its mask selects, and is answered COMPLETE. -/
theorem applyReduce_element (hfit : r.offset + 32 ≤ 128) {e : Nat} (he : e * (if r.size8 then 8 else 4) < 32) :
    let size := if r.size8 then 8 else 4
    let old := fieldLe c.data (r.offset + e * size) size
    let t := applyReduce s home r c.data
    t.cohOut = s.cohOut ++ [⟨0x13, r.src, home, r.src, r.tag, r.line, [], 0, false⟩] ∧
    ∃ c', cellarLine t r.line = some c' ∧
      fieldLe c'.data (r.offset + e * size) size =
        if natBit r.emask e then aopValue r.aop size old (fieldLe r.payload (e * size) size) 0 else old := by
  intro size old t
  have hsize : size = 4 ∨ size = 8 := elementSize_cases r
  have hin : e * size + size ≤ 32 := by obtain h | h := hsize <;> simp only [size, h] at he ⊢ <;> omega
  have hlen := length_reduceSector r.aop r.emask (slice c.data r.offset 32) r.payload hsize
  refine ⟨by simp [t, applyReduce], _, (cellarLine_cohReply _ _ _ _ _ _ _).trans (cellarLine_pokeLine _ _ hline), ?_⟩
  calc fieldLe (splice c.data r.offset (reduceSector r.aop size r.emask (slice c.data r.offset 32) r.payload)) (r.offset + e * size) size
      = fieldLe (reduceSector r.aop size r.emask (slice c.data r.offset 32) r.payload) (e * size) size :=
        fieldLe_splice (by omega) (by omega)
    _ = if natBit r.emask e then aopValue r.aop size old (fieldLe r.payload (e * size) size) 0 else old := by
        rw [fieldLe_reduceSector _ _ _ _ hsize he, fieldLe_slice _ hin]

end

/-- R318: an SC without its agent's reservation of the line answers 1 and writes nothing. -/
theorem applyAtomic_sc_fails {s : State} {home : Nat} {r : CohReq} (data : List Byte) (haop : r.aop = 13)
    (hres : holdsReservation s home r.src r.line = false) :
    let t := applyAtomic s home r data
    t.cohOut = s.cohOut ++ [⟨0x14, r.src, home, r.src, r.tag, r.line, leBytes 8 1, 0, false⟩] ∧ t.cellar = s.cellar := by
  have hres' : holdsReservation (count s .celAtomics home 0) home r.src r.line = false := hres
  simp [applyAtomic, haop, hres', boolNat]

/-- R318: an SC leaves its agent no reservation. -/
theorem holdsReservation_applyAtomic_sc (s : State) (home : Nat) {r : CohReq} (data : List Byte) (haop : r.aop = 13)
    (hsrc : r.src < 256) (home' : Nat) : holdsReservation (applyAtomic s home r data) home' r.src r.line = false := by
  refine holdsReservation_eq_false home' r.line hsrc fun e he => ?_
  simp only [applyAtomic, haop, if_true] at he
  have hkept : e ∈ List.filter (fun e => e.1 % 256 != r.src) _ := (List.mem_filter.mp he).1
  exact bne_iff_ne.mp (List.mem_filter.mp hkept).2

/-! ### Poison -/

/-- R315: a request that finds poison is answered POISONED, and leaves the cellar. -/
theorem answerPoison_spec (s : State) (home : Nat) (r : CohReq) :
    (answerPoison s home r).cohOut = s.cohOut ++ [⟨0x16, r.src, home, r.src, r.tag, r.line, [], 0x2810 + home, false⟩] ∧
    (answerPoison s home r).cellar = s.cellar := ⟨rfl, rfl⟩

/-- R315: an atomic or a reduction whose sector is poisoned is answered POISONED. -/
theorem carryOut_poisoned {s : State} {home : Nat} {r : CohReq} {c : CelLine} (htyp : r.typ = .atomic ∨ r.typ = .reduce)
    (hline : cellarLine s r.line = some c) (hpoison : natBit c.poison.toNat (r.offset / 32) = true) :
    carryOut s home r = answerPoison (fetchLine s r.line (requesterWays s r.src)) home r := by
  obtain htyp | htyp := htyp <;> simp [carryOut, htyp, homeLine_of_cellarLine r.src hline, hpoison]

/-! ### The obligation -/

/-- Settles O40: it holds. Each request reaches a line in the cellar, where a write is one `splice` of its data. -/
theorem homeEffects : Obligations.HomeEffects := by
  unfold Obligations.HomeEffects
  refine ⟨fun s home r c hline hdata hpay hpoison => ?masked, fun s home r c hline hdata => ?atomic,
    fun s home r c e hline hdata _ hfit => ?reduce, fun s home r c htyp hline hpoison => ?poisoned⟩
  case masked => exact applyMasked_replaces home hline hdata hpay hpoison
  case atomic =>
    intro size old t hfit
    exact ⟨applyAtomic_value home hline hdata hfit, applyAtomic_sc_succeeds home hline hdata hfit,
      applyAtomic_sc_fails c.data, holdsReservation_applyAtomic_sc s home c.data⟩
  case reduce => exact fun he => applyReduce_element home hline hdata hfit he
  case poisoned =>
    have hfetched := fetchLine_log (requesterWays s r.src) hline
    have hanswer := answerPoison_spec (fetchLine s r.line (requesterWays s r.src)) home r
    rw [hfetched.cohOut_eq, hfetched.cellar_eq] at hanswer
    rw [finishRequest, tidyEntry_cohOut_eq, tidyEntry_cellar_eq, carryOut_poisoned htyp hline hpoison]
    exact hanswer

end Sys2Proof.Machine
end

section
/-!
PROOFS. O4: records (R405, R407, R417, R423). In order: fields of a string that is put together from little-endian fields, the bound of
a CRC, the fields of a record's bytes, what a held record and a completion leave, and the obligation.
-/
namespace Sys2Proof.Machine

/-! ### Strings put together from fields -/

/-- The first field of a string is read back. -/
theorem fieldLe_leBytes_append {n v : Nat} (rest : List Byte) (hv : v < 2 ^ (8 * n)) : fieldLe (leBytes n v ++ rest) 0 n = v := by
  rw [fieldLe, slice, List.drop_zero, List.take_left' (length_leBytes n v), leNat_leBytes hv]

/-- A field behind the first part of a string is a field of the rest. -/
theorem fieldLe_append_rest {first : List Byte} (rest : List Byte) {o : Nat} (n : Nat) (h : first.length ≤ o) :
    fieldLe (first ++ rest) o n = fieldLe rest (o - first.length) n := by
  rw [fieldLe, fieldLe, slice, slice, List.drop_append, List.drop_eq_nil_of_le h, List.nil_append]

theorem fieldLe_leBytes_append_rest {m o : Nat} (v : Nat) (rest : List Byte) (n : Nat) (h : m ≤ o) :
    fieldLe (leBytes m v ++ rest) o n = fieldLe rest (o - m) n := by
  rw [fieldLe_append_rest rest n (Nat.le_trans (Nat.le_of_eq (length_leBytes m v)) h), length_leBytes]

/-! ### The CRC -/

theorem crcBits_lt (k : Nat) {c : Nat} (h : c < 2 ^ 32) : crcBits k c < 2 ^ 32 := by
  induction k generalizing c with
  | zero => exact h
  | succ k ih =>
    refine ih ?_
    split
    · exact Nat.xor_lt_two_pow (by omega) (by decide)
    · omega

theorem foldl_crcBits_lt (l : List Byte) {c : Nat} (h : c < 2 ^ 32) :
    l.foldl (fun c b => crcBits 8 (c ^^^ b.toNat)) c < 2 ^ 32 := by
  induction l generalizing c with
  | nil => exact h
  | cons b t ih =>
    have hb : b.toNat < 2 ^ 32 := Nat.lt_of_lt_of_le b.isLt (by decide)
    exact ih (crcBits_lt 8 (Nat.xor_lt_two_pow h hb))

theorem crc32c_lt (l : List Byte) : crc32c l < 2 ^ 32 :=
  Nat.xor_lt_two_pow (foldl_crcBits_lt l (by decide)) (by decide)

/-! ### The bytes of a record -/

theorem statusCode_lt (st : Status) : statusCode st < 2 ^ 16 := by
  cases st <;> decide

theorem boolNat_lt (b : Bool) : boolNat b < 2 := by
  cases b <;> decide

/-- R405: the bytes of a record before its CRC. -/
def recordBody (r : Record) : List Byte :=
  leBytes 4 r.ticket ++ (leBytes 2 (statusCode r.status) ++ (leBytes 2 r.detail ++ (leBytes 8 r.stamp ++
    (leBytes 2 (r.path % 4096 + 4096 * (r.pathKind % 4)) ++
      (leBytes 1 (boolNat r.defaultSeed + 2 * boolNat r.withheld + 4 * boolNat r.kept) ++
        (leBytes 1 r.queue ++ leBytes 8 r.value))))))

theorem recordBytes_eq (r : Record) : recordBytes r = recordBody r ++ leBytes 4 (crc32c (recordBody r)) := by
  simp only [recordBytes, recordBody, List.append_assoc]

@[simp] theorem length_recordBody (r : Record) : (recordBody r).length = 28 := by simp [recordBody]

@[simp] theorem length_recordBytes (r : Record) : (recordBytes r).length = 32 := by simp [recordBytes_eq]

/-- R405: a record's last field is the CRC of the bytes before it. -/
theorem fieldLe_recordBytes_crc (r : Record) : fieldLe (recordBytes r) 28 4 = crc32c ((recordBytes r).take 28) := by
  have hcrc : fieldLe (leBytes 4 (crc32c (recordBody r)) ++ []) 0 4 = crc32c (recordBody r) :=
    fieldLe_leBytes_append [] (crc32c_lt _)
  rw [recordBytes_eq, List.take_left' (length_recordBody r), fieldLe_append_rest _ _ (Nat.le_of_eq (length_recordBody r)),
    length_recordBody, ← List.append_nil (leBytes 4 _), hcrc]

/-- R405: the table of a record's fields. -/
theorem recordBytes_fields {r : Record} (hticket : r.ticket < 2 ^ 32) (hdetail : r.detail < 2 ^ 16) (hstamp : r.stamp < 2 ^ 64)
    (hpath : r.path < 2 ^ 12) (hkind : r.pathKind < 4) (hqueue : r.queue < 2 ^ 8) (hvalue : r.value < 2 ^ 64) :
    fieldLe (recordBytes r) 0 4 = r.ticket ∧ fieldLe (recordBytes r) 4 2 = statusCode r.status ∧
    fieldLe (recordBytes r) 6 2 = r.detail ∧ fieldLe (recordBytes r) 8 8 = r.stamp ∧
    fieldLe (recordBytes r) 16 2 = r.path + 4096 * r.pathKind ∧
    fieldLe (recordBytes r) 18 1 = boolNat r.defaultSeed + 2 * boolNat r.withheld + 4 * boolNat r.kept ∧
    fieldLe (recordBytes r) 19 1 = r.queue ∧ fieldLe (recordBytes r) 20 8 = r.value := by
  have hstatus := statusCode_lt r.status
  have hplace : r.path % 4096 + 4096 * (r.pathKind % 4) = r.path + 4096 * r.pathKind := by omega
  have hflags : boolNat r.defaultSeed + 2 * boolNat r.withheld + 4 * boolNat r.kept < 2 ^ 8 := by
    have := boolNat_lt r.defaultSeed
    have := boolNat_lt r.withheld
    have := boolNat_lt r.kept
    omega
  rw [recordBytes_eq, recordBody, hplace]
  refine ⟨?_, ?_, ?_, ?_, ?_, ?_, ?_, ?_⟩ <;>
    simp (disch := omega) only [List.append_assoc, fieldLe_leBytes_append_rest, fieldLe_leBytes_append, Nat.reduceSub]

/-! ### Held records and completions -/

/-- R407: behind a full ring, or behind records held already, a record is held last and counted. -/
theorem postRecord_held {s : State} {q : Nat} (r : Record) (hposting : posting (queue s q) = true)
    (hfull : ringFull (queue s q) = true ∨ (queue s q).heldRecords ≠ []) :
    postRecord s q r = count (setQueue s q { queue s q with heldRecords := (queue s q).heldRecords ++ [r] })
      .cmdCplStalls (4 + q / 128) 0 := by
  have hheld : (ringFull (queue s q) || !(queue s q).heldRecords.isEmpty) = true := by simpa using hfull
  simp [postRecord, hposting, hheld, queueSite]

/-- R417: the result of a command with a ticket is kept while there is room. -/
theorem complete_results {s : State} {id : Nat} {c : Cmd} (d : Done) (hc : findCmd s id = some c) (hticket : c.ticket ≠ 0)
    (hroom : s.results.length < 65536) :
    (complete s id d).results = s.results ++ [⟨c.queue, c.ticket, doneRecord c.queue c.ticket true
      { d.named c.wait with seed := (d.named c.wait).seed || defaultSeedOf c.instr c.seed }, s.beat.waits⟩] := by
  have hkeep : decide (c.ticket ≠ 0 ∧ s.results.length < 65536) = true := decide_eq_true ⟨hticket, hroom⟩
  rw [complete_eq d hc]
  simp only [hkeep, if_true]
  split
  · exact (postRecord_post _ _ _).results
  · rfl

/-! ### The obligation -/

/-- Settles O4: it holds. A record's bytes are its fields one after the other, and neither a held nor a posted record changes the
commands in flight or the kept results. -/
theorem records : Obligations.Records := by
  unfold Obligations.Records
  refine ⟨fun r hticket hdetail hstamp hpath hkind hqueue hvalue => ?bytes,
    fun s q r hposting hfull => postRecord_held r hposting hfull,
    fun s id c d hc hticket hroom => ⟨complete_cmds s id d hc, complete_results d hc hticket hroom⟩⟩
  case bytes =>
    obtain ⟨fticket, fstatus, fdetail, fstamp, fpath, fflags, fqueue, fvalue⟩ :=
      recordBytes_fields hticket hdetail hstamp hpath hkind hqueue hvalue
    exact ⟨length_recordBytes r, fticket, fstatus, fdetail, fstamp, fpath, fflags, fqueue, fvalue, fieldLe_recordBytes_crc r⟩

end Sys2Proof.Machine
end

section
/-!
PROOFS. O7: READ_RESULT, RELEASE_RESULT and the expiry of results (R418 to R420), and a command's local output (R410, R421, R313). In
order: the check of the named queue, the states of a ticket, what the two commands answer, the expiry, local outputs, and the
obligation.
-/
namespace Sys2Proof.Machine

/-! ### The named queue -/

theorem admitted_valid (s : State) (h : Hdr) (i : Instr) (q : Nat) : (queue (admitted s h i) q).valid = (queue s q).valid :=
  (congrArg Queue.valid (admitted_queue s h i q) :)

theorem admitted_partition (s : State) (h : Hdr) (i : Instr) (q : Nat) :
    (queue (admitted s h i) q).partition = (queue s q).partition :=
  (congrArg Queue.partition (admitted_queue s h i q) :)

/-- R418, R419: the check of a result command refuses exactly the queues that its issuer may not name. -/
theorem resultDenied_admitted (s : State) (h : Hdr) (i : Instr) (q : Nat) :
    resultDenied (admitted s h i) (newCmd s h i) q = true ↔ ¬ mayName s h q := by
  by_cases hq : h.queue.val = 0
  · simp [resultDenied, newCmd, queueWho, mayName, hq]
  · simp only [resultDenied, newCmd, queueWho, mayName, hq, admitted_valid, admitted_partition, if_false, Option.any_some, false_or,
      Bool.or_eq_true, Bool.not_eq_true', beq_iff_eq, bne_iff_ne, ← Bool.not_eq_true, ne_eq, Decidable.not_and_iff_not_or_not,
      Decidable.not_not, or_assoc]

theorem resultDenied_of_mayName {s : State} {h : Hdr} (i : Instr) {q : Nat} (hname : mayName s h q) :
    resultDenied (admitted s h i) (newCmd s h i) q = false :=
  Bool.eq_false_iff.mpr fun hden => (resultDenied_admitted s h i q).mp hden hname

/-! ### The state of a ticket -/

theorem ticketState_zero (s : State) (q : Nat) : ticketState s q 0 = .unknown := rfl

theorem ticketState_busy {s : State} {q t : Nat} (ht : t ≠ 0) (hbusy : ∃ c ∈ s.cmds, c.queue = q ∧ c.ticket = t) :
    ticketState s q t = .busy := by
  simp [ticketState, ht, hbusy]

theorem ticketState_kept {s : State} {q t : Nat} {r : Kept} (ht : t ≠ 0) (hidle : ∀ c ∈ s.cmds, ¬(c.queue = q ∧ c.ticket = t))
    (hkept : s.results.find? (fun r => r.queue == q && r.ticket == t) = some r) : ticketState s q t = .kept r.record := by
  have hfree : s.cmds.any (fun c => c.queue == q && c.ticket == t) = false := by simpa using hidle
  simp [ticketState, ht, hfree, hkept]

theorem ticketState_unknown {s : State} {q t : Nat} (ht : t ≠ 0) (hidle : ∀ c ∈ s.cmds, ¬(c.queue = q ∧ c.ticket = t))
    (hnone : ∀ r ∈ s.results, ¬(r.queue = q ∧ r.ticket = t)) : ticketState s q t = .unknown := by
  have hfree : s.cmds.any (fun c => c.queue == q && c.ticket == t) = false := by simpa using hidle
  have hfind : s.results.find? (fun r => r.queue == q && r.ticket == t) = none := by simpa using hnone
  simp [ticketState, ht, hfree, hfind]

/-! ### What the two commands answer

The check of the named queue comes first, then the state of the ticket decides. -/

section
variable {s : State} {c : Cmd} {q t dest : Nat} {r : Record}

theorem startReadResult_denied (hden : resultDenied s c q = true) : startReadResult q t dest s c = fail s c.id .denied 0x2C41 := by
  simp [startReadResult, hden]

theorem startReadResult_busy (hopen : resultDenied s c q = false) (hstate : ticketState s q t = .busy) :
    startReadResult q t dest s c = fail s c.id .notReady 0 := by simp [startReadResult, hopen, hstate]

theorem startReadResult_kept (hopen : resultDenied s c q = false) (hstate : ticketState s q t = .kept r) :
    startReadResult q t dest s c = deliver s c dest (recordBytes r) := by simp [startReadResult, hopen, hstate]

theorem startReadResult_unknown (hopen : resultDenied s c q = false) (hstate : ticketState s q t = .unknown) :
    startReadResult q t dest s c = fail s c.id .badParam 0x2C0B := by simp [startReadResult, hopen, hstate]

theorem startReleaseResult_denied (hden : resultDenied s c q = true) : startReleaseResult q t s c = fail s c.id .denied 0x2C41 := by
  simp [startReleaseResult, hden]

theorem startReleaseResult_busy (hopen : resultDenied s c q = false) (hstate : ticketState s q t = .busy) :
    startReleaseResult q t s c = fail s c.id .notReady 0 := by simp [startReleaseResult, hopen, hstate]

theorem startReleaseResult_kept (hopen : resultDenied s c q = false) (hstate : ticketState s q t = .kept r) :
    startReleaseResult q t s c = succeed (dropResult s q t) c.id 0 := by simp [startReleaseResult, hopen, hstate]

theorem startReleaseResult_unknown (hopen : resultDenied s c q = false) (hstate : ticketState s q t = .unknown) :
    startReleaseResult q t s c = fail s c.id .badParam 0x2C0B := by simp [startReleaseResult, hopen, hstate]

end

/-! ### The two commands of a ready queue -/

section
variable {s t : State} {h : Hdr} {q : Fin 256} {ticket : BitVec 32} {dest : BitVec 64}

theorem exec_readResult (r : Ready s h (.readResult h q ticket dest) .any)
    (hstart : startReadResult q.val ticket.toNat dest.toNat (admitted s h (.readResult h q ticket dest))
      (newCmd s h (.readResult h q ticket dest)) = t) : exec (.readResult h q ticket dest) s = .next t :=
  congrArg Host.Outcome.next ((command_ready r _).trans hstart)

theorem exec_releaseResult (r : Ready s h (.releaseResult h q ticket) .any)
    (hstart : startReleaseResult q.val ticket.toNat (admitted s h (.releaseResult h q ticket))
      (newCmd s h (.releaseResult h q ticket)) = t) : exec (.releaseResult h q ticket) s = .next t :=
  congrArg Host.Outcome.next ((command_ready r _).trans hstart)

/-- A result dropped from two states that differ by a posting leaves them so. -/
theorem PostFrame.dropResult {s u : State} (h : PostFrame s u) (q t : Nat) : PostFrame (dropResult s q t) (dropResult u q t) := by
  refine ⟨?_, h.2⟩
  have hframe := congrArg (fun x : State => ({ x with results := (Machine.dropResult u q t).results } : State)) h.1
  rw [show (Machine.dropResult s q t).results = (Machine.dropResult u q t).results by simp [Machine.dropResult, h.results]]
  exact hframe

/-- R419: a kept result released: the command completes, and what it leaves is `s` without that result. -/
theorem releaseResult_completes (r : Ready s h (.releaseResult h q ticket) .any) (hname : mayName s h q.val) {rec : Record}
    (hkept : ticketState (admitted s h (.releaseResult h q ticket)) q.val ticket.toNat = .kept rec) :
    Completes s h (.releaseResult h q ticket) (dropResult s q.val ticket.toNat) { status := .ok } := by
  have hexec := exec_releaseResult r (startReleaseResult_kept (resultDenied_of_mayName _ hname) hkept)
  refine completes_of (c := newCmd s h (.releaseResult h q ticket)) hexec ((admitted_post s h _).dropResult _ _) r.ids
    (fun ht => ?room) ⟨rfl, rfl, rfl⟩ ⟨rfl, rfl, rfl⟩
  case room => exact Nat.lt_of_le_of_lt (List.length_filter_le _ _) (r.room ht)

end

/-! ### Expiry -/

/-- R420: a result kept for RETAIN beats is released and counted. -/
theorem exec_resultExpire_due {s : State} {q : Fin 256} {ticket : BitVec 32} {r : Kept}
    (hkept : s.results.find? (fun r => r.queue == q.val && r.ticket == ticket.toNat) = some r) (hretain : (queue s q.val).retain ≠ 0)
    (hdue : r.since + (queue s q.val).retain ≤ s.beat.waits) :
    exec (.resultExpire q ticket) s = .next (count (dropResult s q.val ticket.toNat) .cmdExpired (queueSite q.val) 0) := by
  change execResultExpire q ticket s = _
  rw [execResultExpire]
  simp only [hkept]
  rw [if_pos ⟨hretain, hdue⟩]

/-! ### Local outputs -/

section
variable {s : State} {c : Cmd} {dest x : Nat} {bytes : List Byte} (hdest : destOf s c.queue dest = .local_ x)
  (hopen : accessError s (queueWho s c.queue) (c.queue % 4) x bytes.length = none)
include hdest hopen

/-- R410, R421: an output to a local destination that is open to its issuer is written through the homes. -/
theorem deliver_local_ok (hwrite : (putRange s (waysOf s (queueWho s c.queue)) x bytes).1 = none) :
    deliver s c dest bytes = succeed (putRange s (waysOf s (queueWho s c.queue)) x bytes).2 c.id 0 := by
  simp only [deliver, hdest, hopen, hwrite]

/-- R313: such an output meets a line that a failed agent owned. -/
theorem deliver_local_poisoned {d : Nat} (hwrite : (putRange s (waysOf s (queueWho s c.queue)) x bytes).1 = some d) :
    deliver s c dest bytes = fail (putRange s (waysOf s (queueWho s c.queue)) x bytes).2 c.id .poisoned d := by
  simp only [deliver, hdest, hopen, hwrite]

end

/-! ### The obligation -/

/-- Settles O7: it holds. Both commands answer as the ticket's state says, which their acceptance leaves but for their own ticket in
flight. -/
theorem resultCommands : Obligations.ResultCommands := by
  unfold Obligations.ResultCommands
  refine ⟨fun s h q ticket dest r => ?read, fun s h q ticket r => ?release, fun s q ticket r hkept hretain hdue => ?expire,
    fun s c dest x bytes hdest hopen => ⟨deliver_local_ok hdest hopen, fun d => deliver_local_poisoned hdest hopen⟩⟩
  case read =>
    have hresults := admitted_results s h (.readResult h q ticket dest)
    have hmay := resultDenied_of_mayName (s := s) (h := h) (.readResult h q ticket dest) (q := q.val)
    refine ⟨fun hname => ?denied, fun hname ht => ⟨fun hbusy => ?busy, fun k hidle hkept => ?kept, fun hidle hnone => ?unknown⟩,
      fun hname hzero => ?zero⟩
    case denied => exact exec_readResult r (startReadResult_denied ((resultDenied_admitted s h _ _).mpr hname))
    case busy => exact exec_readResult r (startReadResult_busy (hmay hname) (ticketState_busy ht hbusy))
    case kept => exact exec_readResult r (startReadResult_kept (hmay hname) (ticketState_kept ht hidle (hresults ▸ hkept)))
    case unknown => exact exec_readResult r (startReadResult_unknown (hmay hname) (ticketState_unknown ht hidle (hresults ▸ hnone)))
    case zero => exact exec_readResult r (startReadResult_unknown (hmay hname) (hzero ▸ ticketState_zero _ _))
  case release =>
    have hresults := admitted_results s h (.releaseResult h q ticket)
    have hmay := resultDenied_of_mayName (s := s) (h := h) (.releaseResult h q ticket) (q := q.val)
    refine ⟨fun hname => ?denied, fun hname hzero => ?zero,
      fun hname ht => ⟨fun hbusy => ?busy, fun hidle hkept => ?kept, fun hidle hnone => ?unknown⟩⟩
    case denied => exact exec_releaseResult r (startReleaseResult_denied ((resultDenied_admitted s h _ _).mpr hname))
    case zero => exact exec_releaseResult r (startReleaseResult_unknown (hmay hname) (hzero ▸ ticketState_zero _ _))
    case busy => exact exec_releaseResult r (startReleaseResult_busy (hmay hname) (ticketState_busy ht hbusy))
    case kept =>
      obtain ⟨k, hfind⟩ : ∃ k, s.results.find? (fun r => r.queue == q.val && r.ticket == ticket.toNat) = some k :=
        Option.isSome_iff_exists.mp (by simpa using hkept)
      exact releaseResult_completes r hname (ticketState_kept ht hidle (hresults ▸ hfind))
    case unknown =>
      exact exec_releaseResult r (startReleaseResult_unknown (hmay hname) (ticketState_unknown ht hidle (hresults ▸ hnone)))
  case expire => exact ⟨_, exec_resultExpire_due hkept hretain hdue, rfl, getReg_setReg _ _ _ _ _ _⟩

end Sys2Proof.Machine
end

section
/-!
PROOFS. O36: the commit gate (R547, R548). In order: the rows of the decision, the mean after an update, the gate after a decision,
and the obligation.
-/
namespace Sys2Proof.Machine

/-! ### The rows of the decision -/

/-- R547, row 1. -/
theorem judge_disarmed {k : Gate} (n : Nat) (loss : Option F32) (harmed : k.armed = false) : judge k n loss = ⟨true, none, false⟩ := by
  simp [judge, harmed]

/-- R547, row 2. -/
theorem judge_warm {k : Gate} (n : Nat) (loss : Option F32) (harmed : k.armed = true) (hwarm : k.seen < k.warmup) :
    judge k n loss = ⟨true, none, true⟩ := by
  simp [judge, harmed, hwarm]

/-- The cause of R547, rows 3 to 6: the first of them that applies. -/
def tripCause (k : Gate) (n : Nat) (loss : Option F32) : Option Nat :=
  if 0 < n then some 49 else if loss.any f32NonFinite then some 50 else if lossSpike k loss then some 51 else none

/-- R547, rows 3 to 6: past its warm-up, an armed gate updates the mean exactly when no row trips. -/
theorem judge_past_warmup {k : Gate} (n : Nat) (loss : Option F32) (harmed : k.armed = true) (hpast : k.warmup ≤ k.seen) :
    judge k n loss = ⟨false, tripCause k n loss, (tripCause k n loss).isNone⟩ := by
  have hcold : ¬ k.seen < k.warmup := Nat.not_lt.mpr hpast
  by_cases hcount : 0 < n
  · simp [judge, tripCause, harmed, hcold, hcount]
  by_cases hloss : loss.any f32NonFinite = true
  · simp [judge, tripCause, harmed, hcold, hcount, hloss]
  by_cases hspike : lossSpike k loss = true
  · simp [judge, tripCause, harmed, hcold, hcount, hloss, hspike]
  · simp [judge, tripCause, harmed, hcold, hcount, hloss, hspike]

/-- R547: no row both trips and updates the mean. -/
theorem judge_update_of_trip {k : Gate} {n : Nat} {loss : Option F32} (htrip : (judge k n loss).cause.isSome = true) :
    (judge k n loss).update = false := by
  cases harmed : k.armed
  case false => rw [judge_disarmed n loss harmed]
  case true =>
    rcases Nat.lt_or_ge k.seen k.warmup with hwarm | hpast
    · simp [judge_warm n loss harmed hwarm] at htrip
    · rw [judge_past_warmup n loss harmed hpast] at htrip ⊢
      simpa using htrip

/-! ### The mean after an update -/

/-- R548: the first finite loss. -/
theorem newMean_unset {l : F32} (hfin : f32NonFinite l = false) : newMean none (some l) = some l := by
  simp [newMean, hfin]

/-- R548: a later finite loss. -/
theorem newMean_set {l : F32} (m : F32) (hfin : f32NonFinite l = false) :
    newMean (some m) (some l) = some (rndFp32 (extOfFrac (fracAdd (extFrac (decode32 m))
      (fracMul (fracAdd (extFrac (decode32 l)) (extFrac (extNeg (decode32 m)))) ⟨1, 16⟩)))) := by
  simp [newMean, hfin]

/-- R548: a loss that is not finite, or none. -/
theorem newMean_keeps (mean : Option F32) {loss : Option F32} (hloss : loss.all f32NonFinite = true) : newMean mean loss = mean := by
  cases loss with
  | none => rfl
  | some l =>
    have hnonfin : f32NonFinite l = true := hloss
    simp [newMean, hnonfin]

/-! ### The gate after a decision -/

theorem gateAfter_mean_of_update (k : Gate) {v : Verdict} (loss : Option F32) (step : Nat) (hupdate : v.update = true) :
    (gateAfter k v loss step).mean = newMean k.mean loss := by
  simp [gateAfter, hupdate]

theorem gateAfter_mean_of_no_update (k : Gate) {v : Verdict} (loss : Option F32) (step : Nat) (hupdate : v.update = false) :
    (gateAfter k v loss step).mean = k.mean := by
  simp [gateAfter, hupdate]

@[simp] theorem gateAfter_seen (k : Gate) (v : Verdict) (loss : Option F32) (step : Nat) :
    (gateAfter k v loss step).seen = k.seen + 1 := rfl

@[simp] theorem gateAfter_lastWithheld (k : Gate) (v : Verdict) (loss : Option F32) (step : Nat) :
    (gateAfter k v loss step).lastWithheld = v.cause.isSome := rfl

/-- R549: the update is withheld exactly when the context's gate trips on the run's own counts. -/
theorem applyVerdict_withheld (s : State) (r : Run) (loss : Option F32) :
    (applyVerdict s r loss).1 = (judge (ctxOf s r.ctx).gate r.nonFinite loss).cause.isSome := rfl

/-! ### The obligation -/

/-- Settles O36: it holds. The verdict is the first row of R547 that applies, a row that trips never updates the mean, and one that
updates it does so as R548 says. -/
theorem commitGate : Obligations.CommitGate := by
  unfold Obligations.CommitGate
  intro k n step loss v
  refine ⟨fun harmed => ?disarmed, fun harmed hwarm => ?warm, fun harmed hpast => ?past, fun htrip => ?trip, gateAfter_seen k v loss step,
    fun hupdate l hl hfin => ?finite, fun hupdate hloss => ?keeps, fun s r => applyVerdict_withheld s r loss⟩
  case disarmed =>
    have hv : v = ⟨true, none, false⟩ := judge_disarmed n loss harmed
    exact ⟨congrArg Verdict.cause hv, congrArg Verdict.update hv⟩
  case warm =>
    have hv : v = ⟨true, none, true⟩ := judge_warm n loss harmed hwarm
    exact ⟨congrArg Verdict.cause hv, congrArg Verdict.update hv⟩
  case past => exact congrArg Verdict.cause (judge_past_warmup n loss harmed hpast)
  case trip =>
    exact ⟨gateAfter_mean_of_no_update k loss step (judge_update_of_trip htrip), (gateAfter_lastWithheld k v loss step).trans htrip⟩
  case finite =>
    rw [gateAfter_mean_of_update k loss step hupdate, hl]
    exact ⟨fun hunset => hunset ▸ newMean_unset hfin, fun m hset => hset ▸ newMean_set m hfin⟩
  case keeps => exact (gateAfter_mean_of_update k loss step hupdate).trans (newMean_keeps k.mean hloss)

end Sys2Proof.Machine
end
